-- ==== Sys2Proof/Syntax.lean ====
section
/-! DEFINITION. Syntax: every row of spec/opcode_table.json as one constructor of `Instr`, with the
field types of the control-core word [11 R268], the node record [11 R260] and the operands of the events. -/

namespace Sys2Proof

/-- The fields every control-core word has: SW (bit 25) and GAP (bits 24:23) [11 R268]. -/
structure CcHd where
  sw  : BitVec 1
  gap : BitVec 2
deriving DecidableEq, Repr

/-- A destination field of a node record [11 R260]. -/
structure Dest where
  port : BitVec 2
  node : BitVec 12
  core : BitVec 6
  elem : BitVec 6
deriving DecidableEq, Repr

/-- The fields every node record has beside OP and LIT [11 R260]. -/
structure NodeHd where
  mm  : BitVec 2
  yld : BitVec 1
  d0  : Dest
  d1  : Dest
deriving DecidableEq, Repr

/-- Literal sub-format V [11 R260]. -/
structure LitV where
  ofmt : BitVec 4
  rnd  : BitVec 3
  kc   : BitVec 4
  kd   : BitVec 4
  md   : BitVec 17
deriving DecidableEq, Repr

/-- Literal sub-format M [11 R260]. -/
structure LitM where
  slot : BitVec 7
  ofmt : BitVec 4
  rnd  : BitVec 3
  md   : BitVec 18
deriving DecidableEq, Repr

/-- Literal sub-format P [11 R260]. -/
structure LitP where
  shape : BitVec 8
  bank  : BitVec 4
  idx   : BitVec 8
  spm   : BitVec 1
  md    : BitVec 11
deriving DecidableEq, Repr

/-- Literal sub-format A [11 R260]. -/
structure LitA where
  opm  : BitVec 2
  wave : BitVec 30
deriving DecidableEq, Repr

/-- Literal sub-format X [11 R260]. -/
structure LitX where
  xop  : BitVec 4
  sem  : BitVec 2
  disp : BitVec 26
deriving DecidableEq, Repr

/-- Literal sub-format Q [11 R260]. -/
structure LitQ where
  red : BitVec 16
  lin : BitVec 5
  vt  : BitVec 1
deriving DecidableEq, Repr

/-- Literal sub-format F [11 R260]. -/
structure LitF where
  spath : BitVec 3
  dpath : BitVec 3
  scope : BitVec 3
deriving DecidableEq, Repr

/-- Literal sub-format T [11 R260]: `off` holds bits 22:4 of the barrier's offset. -/
structure LitT where
  buf : BitVec 2
  off : BitVec 19
deriving DecidableEq, Repr

/-- A fabric packet: the fields of the 128-bit header [02 R35] and the payload with its PAD bytes taken off or not,
as it stands on the link.  `hop` is the neighbour it came from, which the link itself tells. -/
structure Packet where
  dst  : BitVec 8
  src  : BitVec 8
  via  : BitVec 8
  vv   : BitVec 1
  tc   : BitVec 3
  ten  : BitVec 4
  rsv  : BitVec 16
  seq  : BitVec 16
  kind : BitVec 4
  len  : BitVec 6
  np   : BitVec 1
  pad  : BitVec 5
  win  : BitVec 8
  opq  : BitVec 40
  data : List (BitVec 8)
  hop  : BitVec 8
deriving DecidableEq, Repr

/-- Where a launch packet comes from, and what answers it goes back to: a Triwin port in UALink mode, or a peer of an Ethernet connection
[04 R88]. -/
inductive RackSrc where
  | ualink (port : Nat)
  | ether (peer : Nat)
deriving DecidableEq, Repr

/-- A launch packet as it arrives: where it comes from, and its bytes [04 R88]. -/
structure RackPkt where
  src   : RackSrc
  bytes : List (BitVec 8)
deriving DecidableEq, Repr

/-- One instruction or event: one constructor for each row of the opcode table.
Control-core words [11 R268 to R272], node records [11 R260 to R267], events of the units [95]. -/
inductive Instr where
  /-- ADD [R280]. -/
  | add (h : CcHd) (d a b : BitVec 5)
  /-- SUB [R280]. -/
  | sub (h : CcHd) (d a b : BitVec 5)
  /-- AND [R280]. -/
  | and (h : CcHd) (d a b : BitVec 5)
  /-- OR [R280]. -/
  | or (h : CcHd) (d a b : BitVec 5)
  /-- XOR [R280]. -/
  | xor (h : CcHd) (d a b : BitVec 5)
  /-- SLL [R280]. -/
  | sll (h : CcHd) (d a b : BitVec 5)
  /-- SRL [R280]. -/
  | srl (h : CcHd) (d a b : BitVec 5)
  /-- SRA [R280]. -/
  | sra (h : CcHd) (d a b : BitVec 5)
  /-- SLT [R280]. -/
  | slt (h : CcHd) (d a b : BitVec 5)
  /-- SLTU [R280]. -/
  | sltu (h : CcHd) (d a b : BitVec 5)
  /-- MUL [R280]. -/
  | mul (h : CcHd) (d a b : BitVec 5)
  /-- MULH [R280]. -/
  | mulh (h : CcHd) (d a b : BitVec 5)
  /-- MULHU [R280]. -/
  | mulhu (h : CcHd) (d a b : BitVec 5)
  /-- MIN [R280]. -/
  | min (h : CcHd) (d a b : BitVec 5)
  /-- MAX [R280]. -/
  | max (h : CcHd) (d a b : BitVec 5)
  /-- ADDI [R281]. -/
  | addi (h : CcHd) (d a : BitVec 5) (i : BitVec 13)
  /-- ANDI [R281]. -/
  | andi (h : CcHd) (d a : BitVec 5) (i : BitVec 13)
  /-- ORI [R281]. -/
  | ori (h : CcHd) (d a : BitVec 5) (i : BitVec 13)
  /-- XORI [R281]. -/
  | xori (h : CcHd) (d a : BitVec 5) (i : BitVec 13)
  /-- SLLI [R281]. -/
  | slli (h : CcHd) (d a : BitVec 5) (i : BitVec 6)
  /-- SRLI [R281]. -/
  | srli (h : CcHd) (d a : BitVec 5) (i : BitVec 6)
  /-- SRAI [R281]. -/
  | srai (h : CcHd) (d a : BitVec 5) (i : BitVec 6)
  /-- SLTI [R281]. -/
  | slti (h : CcHd) (d a : BitVec 5) (i : BitVec 13)
  /-- SLTIU [R281]. -/
  | sltiu (h : CcHd) (d a : BitVec 5) (i : BitVec 13)
  /-- LUI [R281]. -/
  | lui (h : CcHd) (d : BitVec 5) (i : BitVec 18)
  /-- LD1 [R282]. -/
  | ld1 (h : CcHd) (d a : BitVec 5) (i : BitVec 13)
  /-- LD2 [R282]. -/
  | ld2 (h : CcHd) (d a : BitVec 5) (i : BitVec 13)
  /-- LD4 [R282]. -/
  | ld4 (h : CcHd) (d a : BitVec 5) (i : BitVec 13)
  /-- LD8 [R282]. -/
  | ld8 (h : CcHd) (d a : BitVec 5) (i : BitVec 13)
  /-- LD1Z [R282]. -/
  | ld1z (h : CcHd) (d a : BitVec 5) (i : BitVec 13)
  /-- LD2Z [R282]. -/
  | ld2z (h : CcHd) (d a : BitVec 5) (i : BitVec 13)
  /-- LD4Z [R282]. -/
  | ld4z (h : CcHd) (d a : BitVec 5) (i : BitVec 13)
  /-- ST1 [R283]. -/
  | st1 (h : CcHd) (b a : BitVec 5) (i : BitVec 13)
  /-- ST2 [R283]. -/
  | st2 (h : CcHd) (b a : BitVec 5) (i : BitVec 13)
  /-- ST4 [R283]. -/
  | st4 (h : CcHd) (b a : BitVec 5) (i : BitVec 13)
  /-- ST8 [R283]. -/
  | st8 (h : CcHd) (b a : BitVec 5) (i : BitVec 13)
  /-- BEQ [R284]. -/
  | beq (h : CcHd) (b a : BitVec 5) (i : BitVec 13)
  /-- BNE [R284]. -/
  | bne (h : CcHd) (b a : BitVec 5) (i : BitVec 13)
  /-- BLT [R284]. -/
  | blt (h : CcHd) (b a : BitVec 5) (i : BitVec 13)
  /-- BGE [R284]. -/
  | bge (h : CcHd) (b a : BitVec 5) (i : BitVec 13)
  /-- BLTU [R284]. -/
  | bltu (h : CcHd) (b a : BitVec 5) (i : BitVec 13)
  /-- BGEU [R284]. -/
  | bgeu (h : CcHd) (b a : BitVec 5) (i : BitVec 13)
  /-- JAL [R285]. -/
  | jal (h : CcHd) (d : BitVec 5) (i : BitVec 18)
  /-- JALR [R285]. -/
  | jalr (h : CcHd) (d a : BitVec 5) (i : BitVec 13)
  /-- LOOPI [R286]. -/
  | loopi (h : CcHd) (c : BitVec 10) (i : BitVec 13)
  /-- LOOPR [R286]. -/
  | loopr (h : CcHd) (a : BitVec 5) (i : BitVec 13)
  /-- AMADD [R288]. -/
  | amadd (h : CcHd) (d a b : BitVec 5) (e o : BitVec 3) (z : BitVec 2)
  /-- AMSWP [R288]. -/
  | amswp (h : CcHd) (d a b : BitVec 5) (e o : BitVec 3) (z : BitVec 2)
  /-- AMCAS [R288]. -/
  | amcas (h : CcHd) (d a b : BitVec 5) (e o : BitVec 3) (z : BitVec 2)
  /-- AMMAX [R288]. -/
  | ammax (h : CcHd) (d a b : BitVec 5) (e o : BitVec 3) (z : BitVec 2)
  /-- AMMIN [R288]. -/
  | ammin (h : CcHd) (d a b : BitVec 5) (e o : BitVec 3) (z : BitVec 2)
  /-- FENCE [R290]. -/
  | fence (h : CcHd) (e o : BitVec 3)
  /-- XFENCE [R291]. -/
  | xfence (h : CcHd) (p q o : BitVec 3)
  /-- GLOAD [R293]. -/
  | gload (h : CcHd) (d a : BitVec 5) (f : BitVec 8)
  /-- CFGW [R296]. -/
  | cfgw (h : CcHd) (a b : BitVec 5) (n : BitVec 4)
  /-- CFGW_APPLY [R141]. -/
  | cfgwApply (slot core elem : Nat)
  /-- KSET [R297]. -/
  | kset (h : CcHd) (a b : BitVec 5) (m : BitVec 8)
  /-- INJ [R299]. -/
  | inj (h : CcHd) (a b : BitVec 5)
  /-- INJT [R300]. -/
  | injt (h : CcHd) (a b : BitVec 5) (c : BitVec 3) (r : BitVec 5)
  /-- MARK [R298]. -/
  | mark (h : CcHd) (a : BitVec 5) (m : BitVec 8)
  /-- PURGE [R302]. -/
  | purge (h : CcHd) (d a : BitVec 5)
  /-- CLRSET [R294]. -/
  | clrset (h : CcHd) (d a b : BitVec 5)
  /-- DLQ [R295]. -/
  | dlq (h : CcHd) (d a : BitVec 5) (f : BitVec 2)
  /-- SBIND [R303]. -/
  | sbind (h : CcHd) (a b : BitVec 5) (n : BitVec 3)
  /-- SBAR [R304]. -/
  | sbar (h : CcHd) (d a : BitVec 5)
  /-- SWAIT [R304]. -/
  | swait (h : CcHd) (d a : BitVec 5) (i : BitVec 13)
  /-- CHSTART [R305]. -/
  | chstart (h : CcHd) (d a : BitVec 5) (c : BitVec 4)
  /-- CHSTAT [R306]. -/
  | chstat (h : CcHd) (d : BitVec 5) (e : BitVec 1) (c : BitVec 4)
  /-- TBINIT [R307]. -/
  | tbinit (h : CcHd) (a b : BitVec 5)
  /-- TBARR [R307]. -/
  | tbarr (h : CcHd) (a b : BitVec 5)
  /-- TBWAIT [R308]. -/
  | tbwait (h : CcHd) (d a b : BitVec 5)
  /-- QPUSHC [R309]. -/
  | qpushc (h : CcHd) (d a b : BitVec 5)
  /-- QCLOSE [R309]. -/
  | qclose (h : CcHd) (d a : BitVec 5)
  /-- TSIG_EXIT [R310]. -/
  | tsigExit (h : CcHd) (x : BitVec 3)
  /-- TSIG_MSI [R310]. -/
  | tsigMsi (h : CcHd) (v : BitVec 3)
  /-- TSIG_WAKE [R310]. -/
  | tsigWake (h : CcHd) (a : BitVec 5) (t : BitVec 2)
  /-- TRAP [R312]. -/
  | trap (h : CcHd) (c : BitVec 10)
  /-- ERET [R312]. -/
  | eret (h : CcHd)
  /-- WFE [R312]. -/
  | wfe (h : CcHd)
  /-- YIELD [R312]. -/
  | yield (h : CcHd)
  /-- CSRR [R313]. -/
  | csrr (h : CcHd) (d : BitVec 5) (c : BitVec 12)
  /-- CSRW [R313]. -/
  | csrw (h : CcHd) (d a : BitVec 5) (c : BitVec 12)
  /-- CSRS [R313]. -/
  | csrs (h : CcHd) (d a : BitVec 5) (c : BitVec 12)
  /-- CSRC [R313]. -/
  | csrc (h : CcHd) (d a : BitVec 5) (c : BitVec 12)
  /-- ASYNCHRONOUS_TRAP [R155]. -/
  | asynchronousTrap (slot core : Nat)
  /-- ILLEGAL [R272]. -/
  | illegal (w : Option (BitVec 32))
  /-- STEER [R321]. -/
  | steer (h : NodeHd)
  /-- SELECT [R321]. -/
  | select (h : NodeHd)
  /-- MERGE [R322]. -/
  | merge (h : NodeHd)
  /-- DUP [R321]. -/
  | dup (h : NodeHd)
  /-- SINK [R321]. -/
  | sink (h : NodeHd)
  /-- CINC [R323]. -/
  | cinc (h : NodeHd)
  /-- CENTER [R323]. -/
  | center (h : NodeHd)
  /-- CEXIT [R323]. -/
  | cexit (h : NodeHd)
  /-- LOOPN [R324]. -/
  | loopn (h : NodeHd) (count : BitVec 32)
  /-- LOOPN_STEP [R324]. -/
  | loopnStep (slot core elem node ctx : Nat)
  /-- INVAR [R326]. -/
  | invar (h : NodeHd)
  /-- PURGEN [R326]. -/
  | purgen (h : NodeHd)
  /-- GATE [R321]. -/
  | gate (h : NodeHd)
  /-- JOIN [R321]. -/
  | join (h : NodeHd)
  /-- BARV [R327]. -/
  | barv (h : NodeHd) (bcore bar : BitVec 6)
  /-- BARRIER_ARRIVAL [R222]. -/
  | barrierArrival (slot core idx : Nat)
  /-- BARRIER_RELEASE [R222]. -/
  | barrierRelease (slot core elem bcore bar : Nat)
  /-- QPOP [R328]. -/
  | qpop (h : NodeHd)
  /-- QTRY [R328]. -/
  | qtry (h : NodeHd)
  /-- EOS [R321]. -/
  | eos (h : NodeHd)
  /-- SADD [R329]. -/
  | sadd (h : NodeHd) (imm : BitVec 32)
  /-- SSUB [R329]. -/
  | ssub (h : NodeHd) (imm : BitVec 32)
  /-- SMUL [R329]. -/
  | smul (h : NodeHd) (imm : BitVec 32)
  /-- SAND [R329]. -/
  | sand (h : NodeHd) (imm : BitVec 32)
  /-- SOR [R329]. -/
  | sor (h : NodeHd) (imm : BitVec 32)
  /-- SXOR [R329]. -/
  | sxor (h : NodeHd) (imm : BitVec 32)
  /-- SSHL [R329]. -/
  | sshl (h : NodeHd) (imm : BitVec 32)
  /-- SSHR [R329]. -/
  | sshr (h : NodeHd) (imm : BitVec 32)
  /-- SSRA [R329]. -/
  | ssra (h : NodeHd) (imm : BitVec 32)
  /-- SMIN [R329]. -/
  | smin (h : NodeHd) (imm : BitVec 32)
  /-- SMAX [R329]. -/
  | smax (h : NodeHd) (imm : BitVec 32)
  /-- SCMP [R330]. -/
  | scmp (h : NodeHd) (sel : BitVec 4)
  /-- SSEL [R330]. -/
  | ssel (h : NodeHd)
  /-- SCONST [R330]. -/
  | sconst (h : NodeHd) (imm : BitVec 32)
  /-- SKRD [R330]. -/
  | skrd (h : NodeHd) (sel : BitVec 4)
  /-- SFADD [R331]. -/
  | sfadd (h : NodeHd) (imm : BitVec 32)
  /-- SFMUL [R331]. -/
  | sfmul (h : NodeHd) (imm : BitVec 32)
  /-- SCVT [R331]. -/
  | scvt (h : NodeHd) (l : LitV)
  /-- VADD [R333]. -/
  | vadd (h : NodeHd) (l : LitV)
  /-- VSUB [R333]. -/
  | vsub (h : NodeHd) (l : LitV)
  /-- VMUL [R333]. -/
  | vmul (h : NodeHd) (l : LitV)
  /-- VFMA [R333]. -/
  | vfma (h : NodeHd) (l : LitV)
  /-- VMAX [R333]. -/
  | vmax (h : NodeHd) (l : LitV)
  /-- VMIN [R333]. -/
  | vmin (h : NodeHd) (l : LitV)
  /-- VABS [R333]. -/
  | vabs (h : NodeHd) (l : LitV)
  /-- VSCL [R333]. -/
  | vscl (h : NodeHd) (l : LitV)
  /-- VMOV [R333]. -/
  | vmov (h : NodeHd) (l : LitV)
  /-- VEXP2 [R246]. -/
  | vexp2 (h : NodeHd) (l : LitV)
  /-- VLOG2 [R334]. -/
  | vlog2 (h : NodeHd) (l : LitV)
  /-- VRCP [R334]. -/
  | vrcp (h : NodeHd) (l : LitV)
  /-- VRSQ [R334]. -/
  | vrsq (h : NodeHd) (l : LitV)
  /-- VCVT [R335]. -/
  | vcvt (h : NodeHd) (l : LitV)
  /-- VBSCALE [R336]. -/
  | vbscale (h : NodeHd) (l : LitV)
  /-- VQUANT [R337]. -/
  | vquant (h : NodeHd) (l : LitV)
  /-- VROWMAX [R338]. -/
  | vrowmax (h : NodeHd) (l : LitV)
  /-- VROWSUM [R338]. -/
  | vrowsum (h : NodeHd) (l : LitV)
  /-- VSMX [R339]. -/
  | vsmx (h : NodeHd) (l : LitV)
  /-- VSMXF [R340]. -/
  | vsmxf (h : NodeHd) (l : LitV)
  /-- VTRANS [R341]. -/
  | vtrans (h : NodeHd) (l : LitV)
  /-- VSEL [R333]. -/
  | vsel (h : NodeHd) (l : LitV)
  /-- VCMP [R333]. -/
  | vcmp (h : NodeHd) (l : LitV)
  /-- VCLAMP [R333]. -/
  | vclamp (h : NodeHd) (l : LitV)
  /-- VBCAST [R341]. -/
  | vbcast (h : NodeHd) (l : LitV)
  /-- VZERO [R341]. -/
  | vzero (h : NodeHd) (l : LitV)
  /-- MCLAIM [R347]. -/
  | mclaim (h : NodeHd) (l : LitM)
  /-- MREL [R347]. -/
  | mrel (h : NodeHd) (l : LitM)
  /-- MLDB [R348]. -/
  | mldb (h : NodeHd) (l : LitM)
  /-- MBCB [R349]. -/
  | mbcb (h : NodeHd) (l : LitM)
  /-- B_BROADCAST [R148]. -/
  | bBroadcast (slot core : Nat)
  /-- MSEL [R347]. -/
  | msel (h : NodeHd) (l : LitM)
  /-- MMA [R352]. -/
  | mma (h : NodeHd) (l : LitM)
  /-- MMAS [R352]. -/
  | mmas (h : NodeHd) (l : LitM)
  /-- MZERO [R354]. -/
  | mzero (h : NodeHd) (l : LitM)
  /-- MDRN [R355]. -/
  | mdrn (h : NodeHd) (l : LitM)
  /-- MSAVE [R356]. -/
  | msave (h : NodeHd) (l : LitM)
  /-- MREST [R356]. -/
  | mrest (h : NodeHd) (l : LitM)
  /-- SPLD [R368]. -/
  | spld (h : NodeHd) (l : LitP)
  /-- SPST [R368]. -/
  | spst (h : NodeHd) (l : LitP)
  /-- SPW [R368]. -/
  | spw (h : NodeHd) (l : LitP)
  /-- SPUP [R364]. -/
  | spup (h : NodeHd) (l : LitP)
  /-- SPDN [R365]. -/
  | spdn (h : NodeHd) (l : LitP)
  /-- SPMAX [R364]. -/
  | spmax (h : NodeHd) (l : LitP)
  /-- SPARG [R366]. -/
  | sparg (h : NodeHd) (l : LitP)
  /-- SPNRM [R368]. -/
  | spnrm (h : NodeHd) (l : LitP)
  /-- SPCVT [R368]. -/
  | spcvt (h : NodeHd) (l : LitP)
  /-- SPZERO [R368]. -/
  | spzero (h : NodeHd) (l : LitP)
  /-- ALOAD [R373]. -/
  | aload (h : NodeHd) (l : LitA)
  /-- ASTORE [R373]. -/
  | astore (h : NodeHd) (l : LitA)
  /-- AGATH [R375]. -/
  | agath (h : NodeHd) (l : LitA)
  /-- ASCAT [R375]. -/
  | ascat (h : NodeHd) (l : LitA)
  /-- ACFG [R376]. -/
  | acfg (h : NodeHd) (l : LitA)
  /-- AEOS [R377]. -/
  | aeos (h : NodeHd) (l : LitA)
  /-- WLD [R374]. -/
  | wld (h : NodeHd) (l : LitA)
  /-- WST [R374]. -/
  | wst (h : NodeHd) (l : LitA)
  /-- WAVE_RELEASE [R188]. -/
  | waveRelease (slot core elem : Nat)
  /-- RLD [R378]. -/
  | rld (h : NodeHd) (l : LitX)
  /-- RST [R378]. -/
  | rst (h : NodeHd) (l : LitX)
  /-- RATOM [R380]. -/
  | ratom (h : NodeHd) (l : LitX)
  /-- RFEN [R382]. -/
  | rfen (h : NodeHd)
  /-- SMSEND [R385]. -/
  | smsend (h : NodeHd) (l : LitQ)
  /-- SMRECV [R387]. -/
  | smrecv (h : NodeHd) (l : LitQ)
  /-- CLAUNCH [R388]. -/
  | claunch (h : NodeHd) (coll : BitVec 6)
  /-- CRECV [R389]. -/
  | crecv (h : NodeHd) (coll : BitVec 6)
  /-- FENCEX [R383]. -/
  | fencex (h : NodeHd) (l : LitF)
  /-- TBARV [R384]. -/
  | tbarv (h : NodeHd) (l : LitT)
  /-- TOKEN_LANDING [R166]. -/
  | tokenLanding (slot idx : Nat)
  /-- TALON_REFETCH [R168]. -/
  | talonRefetch (slot core idx : Nat)
  /-- MARKER_TAKE [R143]. -/
  | markerTake (slot core elem : Nat)
  /-- RETIREMENT_SNAPSHOT [R165]. -/
  | retirementSnapshot (slot : Nat)
  /-- LEAD_COLOUR_BROADCAST [R165]. -/
  | leadColourBroadcast (slot core elem : Nat)
  /-- DEADLOCK [R173]. -/
  | deadlock (slot : Nat)
  /-- READ [R20]. -/
  | read (idx : Nat)
  /-- WRITE [R20]. -/
  | write (idx : Nat)
  /-- MASKED_WRITE [R23]. -/
  | maskedWrite (idx : Nat)
  /-- MEM_REPLY [R21]. -/
  | memReply (idx : Nat)
  /-- REQUEST_TIMEOUT [R193]. -/
  | requestTimeout (idx : Nat)
  /-- PARITY_ALERT [R25]. -/
  | parityAlert (stack chan : Nat)
  /-- CHANNEL_RETRAIN [R25]. -/
  | channelRetrain (stack chan : Nat) (ok : Bool)
  /-- FAR_CHAIN_FAIL [R26]. -/
  | farChainFail (stack : Nat)
  /-- ELEMENT_REQUEST [R190]. -/
  | elementRequest (edge idx : Nat)
  /-- GATHER_ROW_TIMEOUT [R190]. -/
  | gatherRowTimeout (edge row : Nat)
  /-- TABLE_WALK_READ [R97]. -/
  | tableWalkRead (unit idx : Nat)
  /-- RECORD_READ [R195]. -/
  | recordRead (slot core ch : Nat)
  /-- SECTOR_LAND [R199]. -/
  | sectorLand (slot core ch idx : Nat)
  /-- NOP [R85]. -/
  | nop (run : Nat)
  /-- IMGREG [R111]. -/
  | imgreg (run : Nat)
  /-- IMGDROP [R85]. -/
  | imgdrop (run : Nat)
  /-- LAUNCH [R85]. -/
  | launch (run : Nat)
  /-- WALK [R121]. -/
  | walk (run : Nat)
  /-- COPY [R85]. -/
  | copy (run : Nat)
  /-- INVTLB [R98]. -/
  | invtlb (run : Nat)
  /-- RESREP [R89]. -/
  | resrep (run : Nat)
  /-- ATTEST [R74]. -/
  | attest (run : Nat)
  /-- EXTMEAS [R73]. -/
  | extmeas (run : Nat)
  /-- CLOAD [R58]. -/
  | cload (run : Nat)
  /-- CGROUP [R58]. -/
  | cgroup (run : Nat)
  /-- CDROP [R58]. -/
  | cdrop (run : Nat)
  /-- QDOOR [R83]. -/
  | qdoor (fn q : Nat) (v : BitVec 32)
  /-- QUEUE_ENABLE [R82]. -/
  | queueEnable (fn q : Nat) (v : BitVec 32)
  /-- QUEUE_DISABLE [R83]. -/
  | queueDisable (fn q : Nat) (v : BitVec 32)
  /-- QERR_CLEAR [R82]. -/
  | qerrClear (fn q : Nat)
  /-- COMMAND_START [R83]. -/
  | commandStart (fn q : Nat)
  /-- LAUNCH_PACKET [R88]. -/
  | launchPacket (p : RackPkt)
  /-- BAR2_READ [R79]. -/
  | bar2Read (vf off n : Nat)
  /-- BAR2_WRITE [R79]. -/
  | bar2Write (vf off : Nat) (d : List (BitVec 8))
  /-- BIND [R106]. -/
  | bind (slot : Nat)
  /-- RECONF [R114]. -/
  | reconf (slot : Nat)
  /-- FREEZE [R118]. -/
  | freeze (slot : Nat)
  /-- RESTORE [R120]. -/
  | restore (slot : Nat)
  /-- RELEASE [R106]. -/
  | release (slot : Nat)
  /-- RESTART [R106]. -/
  | restart (slot : Nat)
  /-- LOAD_COMPLETE [R108]. -/
  | loadComplete (slot : Nat)
  /-- LOAD_FAULT [R106]. -/
  | loadFault (slot : Nat)
  /-- DRAIN_COMPLETE [R114]. -/
  | drainComplete (slot : Nat)
  /-- DRAIN_TIMEOUT [R114]. -/
  | drainTimeout (slot : Nat)
  /-- SAVE_COMPLETE [R106]. -/
  | saveComplete (slot : Nat)
  /-- TASK [R121]. -/
  | taskNode (ten node : Nat)
  /-- COND [R121]. -/
  | condNode (ten node : Nat)
  /-- WHILE [R121]. -/
  | whileNode (ten node : Nat)
  /-- FORK [R121]. -/
  | forkNode (ten node : Nat)
  /-- END [R121]. -/
  | endNode (ten node : Nat)
  /-- COLD_RESET [R63]. -/
  | coldReset
  /-- WARM_RESET [R66]. -/
  | warmReset
  /-- TENANT_RESET [R69]. -/
  | tenantReset (ten : Nat)
  /-- REGION_RESET [R70]. -/
  | regionReset (slot : Nat)
  /-- POWER_ON [R63]. -/
  | powerOn
  /-- SECURE_ERASE_TIMEOUT [R66]. -/
  | secureEraseTimeout (port : Nat)
  /-- LIFECYCLE_TRANSITION [R72]. -/
  | lifecycleTransition (tgt : Nat) (sig : List (BitVec 8))
  /-- SEAL [R67]. -/
  | sealImage (base len ten : Nat)
  /-- UNSEAL [R68]. -/
  | unsealImage (base : Nat)
  /-- THROTTLE_ENTRY [R13]. -/
  | throttleEntry (die : Nat) (t : Int) (w : Nat)
  /-- THROTTLE_EXIT [R13]. -/
  | throttleExit (die : Nat) (t : Int) (w : Nat)
  /-- OVERTEMP_CUT [R15]. -/
  | overtempCut (die : Nat) (t : Int)
  /-- RSTSTAT_WRITE [R64]. -/
  | rststatWrite (v : BitVec 32)
  /-- TRIMAP_WRITE [R31]. -/
  | trimapWrite (v : BitVec 32)
  /-- DOMCFG_WRITE [R411]. -/
  | domcfgWrite (v : BitVec 32)
  /-- VWCFG_WRITE [R46]. -/
  | vwcfgWrite (v : BitVec 32)
  /-- VW_K_TAKE_EFFECT [R46]. -/
  | vwKTakeEffect
  /-- DLKCFG_WRITE [R174]. -/
  | dlkcfgWrite (v : BitVec 32)
  /-- TWIN_WRITE [R90]. -/
  | twinWrite (ten w : Nat) (v : BitVec 64)
  /-- HSTAT_READ [R26]. -/
  | hstatRead (stack : Nat)
  /-- MESTAT_READ [R194]. -/
  | mestatRead (edge : Nat)
  /-- VWSTAT_READ [R46]. -/
  | vwstatRead
  /-- CSTALE_READ [R59]. -/
  | cstaleRead
  /-- FRLOST_READ [R81]. -/
  | frlostRead (fn : Nat)
  /-- REGISTER_WRITE [R80]. -/
  | registerWrite (fn addr n : Nat) (v : BitVec 64)
  /-- VERSION [R76]. -/
  | version
  /-- STATUS [R76]. -/
  | status
  /-- TEMP [R76]. -/
  | temp (die : Nat)
  /-- POWER [R76]. -/
  | power
  /-- PLIMIT_READ [R76]. -/
  | plimitRead
  /-- PLIMIT_WRITE [R76]. -/
  | plimitWrite (v : BitVec 16)
  /-- SMBUS_RSTSTAT [R76]. -/
  | smbusRststat
  /-- SMBUS_HSTAT [R76]. -/
  | smbusHstat (stack : Nat)
  /-- SMBUS_RESET [R76]. -/
  | smbusReset (kind : BitVec 8)
  /-- LCS [R76]. -/
  | lcs
  /-- DEVID [R76]. -/
  | devid
  /-- FABRIC_WRITE [R45]. -/
  | fabricWrite (p : Packet)
  /-- FABRIC_READ_REQUEST [R35]. -/
  | fabricReadRequest (p : Packet)
  /-- FABRIC_READ_REPLY [R35]. -/
  | fabricReadReply (p : Packet)
  /-- FABRIC_ATOMIC [R219]. -/
  | fabricAtomic (p : Packet)
  /-- FABRIC_ATOMIC_REPLY [R35]. -/
  | fabricAtomicReply (p : Packet)
  /-- MELD_PACKET [R49]. -/
  | meldPacket (p : Packet)
  /-- CHUNK [R62]. -/
  | chunk (p : Packet)
  /-- CUSTODY_ACK [R41]. -/
  | custodyAck (p : Packet)
  /-- DELIVERY_ACK [R41]. -/
  | deliveryAck (p : Packet)
  /-- CONNECTION_ACK [R42]. -/
  | connectionAck (p : Packet)
  /-- ERROR_NOTICE [R41]. -/
  | errorNotice (p : Packet)
  /-- HOLD [R61]. -/
  | hold (p : Packet)
  /-- RESUME [R61]. -/
  | resume (p : Packet)
  /-- ABORT [R60]. -/
  | abort (p : Packet)
  /-- ARMED [R405]. -/
  | armed (p : Packet)
  /-- SYNC_MESSAGE [R46]. -/
  | syncMessage (t : BitVec 64)
  /-- SYNC_LOST [R46]. -/
  | syncLost
  /-- CUSTODY_TIMEOUT [R41]. -/
  | custodyTimeout (idx : Nat)
  /-- CONNECTION_TIMEOUT [R42]. -/
  | connectionTimeout (idx : Nat)
  /-- ACK_TIMER [R42]. -/
  | ackTimer (idx : Nat)
  /-- HOLD_PACKET_TIMEOUT [R40]. -/
  | holdPacketTimeout (idx : Nat)
  /-- LINK_DOWN [R40]. -/
  | linkDown (port : Nat)
  /-- LINK_UP [R40]. -/
  | linkUp (port : Nat)
  /-- CONNECTION_FETCH [R43]. -/
  | connectionFetch (idx : Nat)
  /-- OUTPUT_SEGMENT [R50]. -/
  | outputSegment (unit red : Nat)
  /-- OUTPUT_END [R53]. -/
  | outputEnd (unit red : Nat)
  /-- END_ACK [R386]. -/
  | endAck (p : Packet)
  /-- OUTPUT_PACKET_ARRIVAL [R387]. -/
  | outputPacketArrival (p : Packet)
  /-- SEND [R55]. -/
  | send (ten coll trick : Nat)
  /-- RECV [R406]. -/
  | recv (ten coll trick : Nat)
  /-- RREDUCE [R56]. -/
  | rreduce (ten coll trick : Nat)
  /-- TRICK_COPY [R55]. -/
  | trickCopy (ten coll trick : Nat)
  /-- MELD [R405]. -/
  | meld (ten coll trick : Nat)
  /-- SIGNAL [R55]. -/
  | signal (ten coll trick : Nat)
  /-- TRICK_COMPLETE [R56]. -/
  | trickComplete (ten coll trick : Nat)
  /-- COLLECTIVE_TIMEOUT [R60]. -/
  | collectiveTimeout (ten coll : Nat)
  /-- HOLD_LIMIT [R61]. -/
  | holdLimit (ten coll : Nat)
  /-- PEER_HOLD_EXPIRY [R61]. -/
  | peerHoldExpiry (ten coll : Nat)
  /-- SECURE_ERASE_COMPLETION [R66]. -/
  | secureEraseCompletion (port : Nat)
  /-- POWER_FAIL [R72]. -/
  | powerFail
  /-- FUNCTION_LEVEL_RESET [R78]. -/
  | functionLevelReset
  /-- VF_ENABLE [R78]. -/
  | vfEnable (vf : Nat)
  /-- VF_DISABLE [R78]. -/
  | vfDisable (vf : Nat)
  /-- HELD_REQUEST_DISCARD [R193]. -/
  | heldRequestDiscard (idx : Nat)
  /-- COMPLETION_TIMEOUT [R28]. -/
  | completionTimeout (idx : Nat)
  /-- CONNECTION_SET_UP [R33]. -/
  | connectionSetUp (peer mode : Nat)
deriving DecidableEq, Repr

end Sys2Proof
end

