-- ==== Sys2Proof/WellFormed.lean ====
section
/-! DEFINITION. WellFormed: the checks of a word or record beyond its opcode. -/

namespace Sys2Proof

/-- A SCOPE code of an ordering field: 1 core to 5 system [11 R269]. -/
def scopeOk (o : BitVec 3) : Bool := o != 0#3 && o != 6#3 && o != 7#3

/-- The ordering field of an atomic: SEM 0 to 4, SCOPE 1 to 5, SIZE 2 or 3, and SCOPE 1 when plain [11 R269]. -/
def atomicOrd (e o : BitVec 3) (z : BitVec 2) : Bool :=
  e.toNat ≤ 4 && scopeOk o && (z == 2#2 || z == 3#2) && (e != 0#3 || o == 1#3)

/-- The ordering field of a fence: SEM 1 to 4, SCOPE 1 to 5 [11 R269]. -/
def fenceOrd (e o : BitVec 3) : Bool := e != 0#3 && e.toNat ≤ 4 && scopeOk o

/-- A destination with PORT 11 has NODE, CORE and ELEM 0 [11 R260]. -/
def Dest.ok (d : Dest) : Bool := d.port != 3#2 || (d.node == 0#12 && d.core == 0#6 && d.elem == 0#6)

/-- The match mode is `m` and the destinations are legal [11 R267]. -/
def hdOk (h : NodeHd) (m : BitVec 2) : Bool := h.mm == m && h.d0.ok && h.d1.ok


/-- The literal of VQUANT [13 R337]: BLKQ is not 3; without blocks MM and STY are 0, with blocks OFMT is 4 to 8. -/
def quantOk (h : NodeHd) (l : LitV) : Bool :=
  l.rnd.toNat ≤ 4 && l.kc == 0#4 && l.kd == 0#4 && l.md.toNat < 8 && l.md.toNat % 4 != 3 &&
    (if l.md.toNat % 4 == 0 then h.mm == 0#2 && l.md.toNat < 4 else 4 ≤ l.ofmt.toNat && l.ofmt.toNat ≤ 8)

/-- The literal of VSMX [13 R339]: OFMT 0; slot and kind in MOD[5:0] with MM 0. -/
def smxOk (h : NodeHd) (l : LitV) : Bool :=
  l.ofmt == 0#4 && l.rnd == 0#3 && l.kd == 0#4 && (if h.mm == 0#2 then l.md.toNat < 64 else l.md == 0#17)

/-- The literal of VSMXF [13 R340]: slot in MOD[3:0] with MM 0. -/
def smxfOk (h : NodeHd) (l : LitV) : Bool :=
  l.rnd.toNat ≤ 4 && l.kd == 0#4 && (if h.mm == 0#2 then l.md.toNat < 16 else l.md == 0#17)

/-- The literal of SCVT [13 R331]. -/
def scvtOk (l : LitV) : Bool :=
  l.rnd.toNat ≤ 4 && l.kc == 0#4 && l.kd == 0#4 && l.md.toNat < 64 && (!l.md.getLsbD 4 || l.md.toNat % 16 == 0) &&
    (!l.md.getLsbD 5 || l.ofmt == 0#4)

/-- The literal of TBARV [15 R384]: a buffer W, A or C that holds the barrier's 16 bytes. -/
def tbarvOk (l : LitT) : Bool :=
  match l.buf.toNat with
  | 0 => 16 * l.off.toNat + 16 ≤ 0x600000
  | 1 => 16 * l.off.toNat + 16 ≤ 0x300000
  | 2 => 16 * l.off.toNat + 16 ≤ 0x180000
  | _ => false
/-- The checks that a word passes to be an instruction beyond its opcode [11 R267, R269, R272].
Events carry no encoding, so nothing is checked of them. -/
def Instr.wf (i : Instr) : Bool :=
  match i with
  | .add _ _ _ _ => true
  | .sub _ _ _ _ => true
  | .and _ _ _ _ => true
  | .or _ _ _ _ => true
  | .xor _ _ _ _ => true
  | .sll _ _ _ _ => true
  | .srl _ _ _ _ => true
  | .sra _ _ _ _ => true
  | .slt _ _ _ _ => true
  | .sltu _ _ _ _ => true
  | .mul _ _ _ _ => true
  | .mulh _ _ _ _ => true
  | .mulhu _ _ _ _ => true
  | .min _ _ _ _ => true
  | .max _ _ _ _ => true
  | .addi _ _ _ _ => true
  | .andi _ _ _ _ => true
  | .ori _ _ _ _ => true
  | .xori _ _ _ _ => true
  | .slli _ _ _ _ => true
  | .srli _ _ _ _ => true
  | .srai _ _ _ _ => true
  | .slti _ _ _ _ => true
  | .sltiu _ _ _ _ => true
  | .lui _ _ _ => true
  | .ld1 _ _ _ _ => true
  | .ld2 _ _ _ _ => true
  | .ld4 _ _ _ _ => true
  | .ld8 _ _ _ _ => true
  | .ld1z _ _ _ _ => true
  | .ld2z _ _ _ _ => true
  | .ld4z _ _ _ _ => true
  | .st1 _ _ _ _ => true
  | .st2 _ _ _ _ => true
  | .st4 _ _ _ _ => true
  | .st8 _ _ _ _ => true
  | .beq _ _ _ _ => true
  | .bne _ _ _ _ => true
  | .blt _ _ _ _ => true
  | .bge _ _ _ _ => true
  | .bltu _ _ _ _ => true
  | .bgeu _ _ _ _ => true
  | .jal _ _ _ => true
  | .jalr _ _ _ _ => true
  | .loopi _ _ _ => true
  | .loopr _ _ _ => true
  | .amadd _ _ _ _ e o z => atomicOrd e o z
  | .amswp _ _ _ _ e o z => atomicOrd e o z
  | .amcas _ _ _ _ e o z => atomicOrd e o z
  | .ammax _ _ _ _ e o z => atomicOrd e o z
  | .ammin _ _ _ _ e o z => atomicOrd e o z
  | .fence _ e o => fenceOrd e o
  | .xfence _ _ _ o => scopeOk o
  | .gload _ _ _ _ => true
  | .cfgw _ _ _ _ => true
  | .cfgwApply _ _ _ => true
  | .kset _ _ _ _ => true
  | .inj _ _ _ => true
  | .injt _ _ _ _ _ => true
  | .mark _ _ _ => true
  | .purge _ _ _ => true
  | .clrset _ _ _ _ => true
  | .dlq _ _ a f => f == 2#2 || a == 0#5
  | .sbind _ _ _ _ => true
  | .sbar _ _ _ => true
  | .swait _ _ _ _ => true
  | .chstart _ _ _ _ => true
  | .chstat _ _ _ _ => true
  | .tbinit _ _ _ => true
  | .tbarr _ _ _ => true
  | .tbwait _ _ _ _ => true
  | .qpushc _ _ _ _ => true
  | .qclose _ _ _ => true
  | .tsigExit _ _ => true
  | .tsigMsi _ _ => true
  | .tsigWake _ _ _ => true
  | .trap _ _ => true
  | .eret _ => true
  | .wfe _ => true
  | .yield _ => true
  | .csrr _ _ _ => true
  | .csrw _ _ _ _ => true
  | .csrs _ _ _ _ => true
  | .csrc _ _ _ _ => true
  | .asynchronousTrap _ _ => true
  | .illegal _ => true
  | .steer h => hdOk h 1
  | .select h => hdOk h 3
  | .merge h => hdOk h 1
  | .dup h => hdOk h 0
  | .sink h => hdOk h 0
  | .cinc h => (hdOk h 0 || hdOk h 1)
  | .center h => (hdOk h 0 || hdOk h 1)
  | .cexit h => (hdOk h 0 || hdOk h 1)
  | .loopn h count => (hdOk h 0 || hdOk h 1) && (h.mm == 0#2 || count == 0#32)
  | .loopnStep _ _ _ _ _ => true
  | .invar h => hdOk h 0
  | .purgen h => (hdOk h 0 || hdOk h 1)
  | .gate h => hdOk h 1
  | .join h => (hdOk h 1 || hdOk h 3)
  | .barv h _ _ => (hdOk h 0 || hdOk h 1)
  | .barrierArrival _ _ _ => true
  | .barrierRelease _ _ _ _ _ => true
  | .qpop h => hdOk h 0
  | .qtry h => hdOk h 0
  | .eos h => hdOk h 0
  | .sadd h imm => (hdOk h 0 || hdOk h 1) && (h.mm == 0#2 || imm == 0#32)
  | .ssub h imm => (hdOk h 0 || hdOk h 1) && (h.mm == 0#2 || imm == 0#32)
  | .smul h imm => (hdOk h 0 || hdOk h 1) && (h.mm == 0#2 || imm == 0#32)
  | .sand h imm => (hdOk h 0 || hdOk h 1) && (h.mm == 0#2 || imm == 0#32)
  | .sor h imm => (hdOk h 0 || hdOk h 1) && (h.mm == 0#2 || imm == 0#32)
  | .sxor h imm => (hdOk h 0 || hdOk h 1) && (h.mm == 0#2 || imm == 0#32)
  | .sshl h imm => (hdOk h 0 || hdOk h 1) && (h.mm == 0#2 || imm == 0#32)
  | .sshr h imm => (hdOk h 0 || hdOk h 1) && (h.mm == 0#2 || imm == 0#32)
  | .ssra h imm => (hdOk h 0 || hdOk h 1) && (h.mm == 0#2 || imm == 0#32)
  | .smin h imm => (hdOk h 0 || hdOk h 1) && (h.mm == 0#2 || imm == 0#32)
  | .smax h imm => (hdOk h 0 || hdOk h 1) && (h.mm == 0#2 || imm == 0#32)
  | .scmp h sel => hdOk h 1 && sel.toNat ≤ 5
  | .ssel h => hdOk h 3
  | .sconst h _ => hdOk h 0
  | .skrd h _ => hdOk h 0
  | .sfadd h imm => (hdOk h 0 || hdOk h 1) && (h.mm == 0#2 || imm == 0#32)
  | .sfmul h imm => (hdOk h 0 || hdOk h 1) && (h.mm == 0#2 || imm == 0#32)
  | .scvt h l => hdOk h 0 && scvtOk l
  | .vadd h l => hdOk h 1 && l.rnd.toNat ≤ 4 && l.kc == 0#4 && l.kd == 0#4 && l.md == 0#17
  | .vsub h l => hdOk h 1 && l.rnd.toNat ≤ 4 && l.kc == 0#4 && l.kd == 0#4 && l.md == 0#17
  | .vmul h l => hdOk h 1 && l.rnd.toNat ≤ 4 && l.kc == 0#4 && l.kd == 0#4 && l.md == 0#17
  | .vfma h l => hdOk h 3 && l.rnd.toNat ≤ 4 && l.kc == 0#4 && l.kd == 0#4 && l.md == 0#17
  | .vmax h l => hdOk h 1 && l.rnd.toNat ≤ 4 && l.kc == 0#4 && l.kd == 0#4 && l.md == 0#17
  | .vmin h l => hdOk h 1 && l.rnd.toNat ≤ 4 && l.kc == 0#4 && l.kd == 0#4 && l.md == 0#17
  | .vabs h l => hdOk h 0 && l.rnd.toNat ≤ 4 && l.kc == 0#4 && l.kd == 0#4 && l.md == 0#17
  | .vscl h l => hdOk h 0 && l.rnd.toNat ≤ 4 && l.md == 0#17
  | .vmov h l => hdOk h 0 && l.rnd.toNat ≤ 4 && l.kc == 0#4 && l.kd == 0#4 && l.md == 0#17
  | .vexp2 h l => hdOk h 0 && l.rnd.toNat ≤ 4 && l.kc == 0#4 && l.kd == 0#4 && l.md == 0#17
  | .vlog2 h l => hdOk h 0 && l.rnd.toNat ≤ 4 && l.kc == 0#4 && l.kd == 0#4 && l.md == 0#17
  | .vrcp h l => hdOk h 0 && l.rnd.toNat ≤ 4 && l.kc == 0#4 && l.kd == 0#4 && l.md == 0#17
  | .vrsq h l => hdOk h 0 && l.rnd.toNat ≤ 4 && l.kc == 0#4 && l.kd == 0#4 && l.md == 0#17
  | .vcvt h l => hdOk h 0 && l.rnd.toNat ≤ 4 && l.kc == 0#4 && l.kd == 0#4 && l.md.toNat < 16
  | .vbscale h l => hdOk h 1 && l.rnd.toNat ≤ 4 && l.kc == 0#4 && l.kd == 0#4 && l.md.toNat < 2
  | .vquant h l => (hdOk h 0 || hdOk h 1) && quantOk h l
  | .vrowmax h l => hdOk h 0 && l.rnd.toNat ≤ 4 && l.kc == 0#4 && l.kd == 0#4 && l.md == 0#17
  | .vrowsum h l => hdOk h 0 && l.rnd.toNat ≤ 4 && l.kc == 0#4 && l.kd == 0#4 && l.md == 0#17
  | .vsmx h l => (hdOk h 0 || hdOk h 1) && smxOk h l
  | .vsmxf h l => (hdOk h 0 || hdOk h 1) && smxfOk h l
  | .vtrans h l => hdOk h 0 && l.rnd.toNat ≤ 4 && l.kc == 0#4 && l.kd == 0#4 && l.md == 0#17
  | .vsel h l => hdOk h 3 && l.rnd.toNat ≤ 4 && l.kc == 0#4 && l.kd == 0#4 && l.md == 0#17
  | .vcmp h l => hdOk h 1 && l.rnd.toNat ≤ 4 && l.kc == 0#4 && l.kd == 0#4 && l.md.toNat ≤ 5
  | .vclamp h l => hdOk h 0 && l.rnd.toNat ≤ 4 && l.md == 0#17
  | .vbcast h l => hdOk h 0 && l.rnd.toNat ≤ 4 && l.kc == 0#4 && l.kd == 0#4 && l.md.toNat < 2
  | .vzero h l => hdOk h 0 && l.rnd.toNat ≤ 4 && l.kc == 0#4 && l.kd == 0#4 && l.md == 0#17
  | .mclaim h l => hdOk h 0 && l.ofmt == 0#4 && l.rnd == 0#3 && l.md.toNat < 128
  | .mrel h l => hdOk h 0 && l.ofmt == 0#4 && l.rnd == 0#3 && l.md.toNat < 128
  | .mldb h l => hdOk h 0 && l.ofmt == 0#4 && l.rnd == 0#3 && l.md == 0#18
  | .mbcb h l => hdOk h 0 && l.ofmt == 0#4 && l.rnd == 0#3 && l.md == 0#18
  | .bBroadcast _ _ => true
  | .msel h l => (hdOk h 0 || hdOk h 1) && l.ofmt == 0#4 && l.rnd == 0#3 && l.md.toNat < 128 && (h.mm == 0#2 || (l.slot == 0#7 && l.md == 0#18))
  | .mma h l => hdOk h 0 && l.ofmt == 0#4 && l.rnd == 0#3 && l.md.toNat < 256 && (!l.md.getLsbD 7 || (l.slot == 0#7 && l.md.toNat == 128))
  | .mmas h l => hdOk h 1 && l.ofmt == 0#4 && l.rnd == 0#3 && l.md.toNat < 256 && (!l.md.getLsbD 7 || (l.slot == 0#7 && l.md.toNat == 128))
  | .mzero h l => hdOk h 0 && l.slot == 0#7 && l.ofmt == 0#4 && l.rnd == 0#3 && l.md == 0#18
  | .mdrn h l => hdOk h 0 && l.slot == 0#7 && l.rnd.toNat ≤ 4 && l.md.toNat < 8 && (!l.md.getLsbD 0 || (l.ofmt == 0#4 && l.rnd == 0#3))
  | .msave h l => hdOk h 0 && l.ofmt == 0#4 && l.rnd == 0#3 && l.md == 0#18
  | .mrest h l => hdOk h 0 && l.ofmt == 0#4 && l.rnd == 0#3 && l.md == 0#18
  | .spld h l => hdOk h 0 && l.shape == 0#8 && l.md.toNat < 8 && (!l.md.getLsbD 1 || l.spm == 1#1)
  | .spst h l => hdOk h 0 && l.shape == 0#8 && l.md.toNat < 16 && !(l.md.getLsbD 1 && l.md.getLsbD 2) && (!l.md.getLsbD 3 || l.spm == 1#1)
  | .spw h l => (hdOk h 0 || hdOk h 1) && l.shape == 0#8 && l.md == 0#11 && (h.mm == 0#2 || (l.bank == 0#4 && l.idx == 0#8))
  | .spup h l => hdOk h 0 && l.bank == 0#4 && l.md.toNat < 2
  | .spdn h l => hdOk h 0 && l.bank == 0#4 && l.md.toNat < 8
  | .spmax h l => hdOk h 0 && l.bank == 0#4 && l.md.toNat < 2
  | .sparg h l => hdOk h 0 && l.bank == 0#4 && l.md.toNat < 4
  | .spnrm h l => hdOk h 0 && l.shape == 0#8 && l.spm == 1#1 && l.md.toNat < 1024
  | .spcvt h l => hdOk h 0 && l.shape == 0#8 && l.spm == 1#1
  | .spzero h l => hdOk h 0 && l.shape == 0#8 && l.md.toNat < 1024
  | .aload h _ => hdOk h 0
  | .astore h l => hdOk h 0 && l.opm == 0#2
  | .agath h _ => hdOk h 0
  | .ascat h l => hdOk h 1 && l.opm == 0#2
  | .acfg h _ => hdOk h 0
  | .aeos h l => hdOk h 0 && l.opm.toNat ≤ 1
  | .wld h _ => hdOk h 0
  | .wst h _ => hdOk h 1
  | .waveRelease _ _ _ => true
  | .rld h l => hdOk h 1 && l.xop.toNat ≤ 6 && l.sem == 0#2
  | .rst h l => hdOk h 3 && l.xop.toNat ≤ 6 && l.sem == 0#2
  | .ratom h l => hdOk h 3 && l.xop.toNat ≤ 12
  | .rfen h => hdOk h 0
  | .smsend h _ => hdOk h 0
  | .smrecv h l => hdOk h 0 && l.lin == 0#5
  | .claunch h _ => hdOk h 0
  | .crecv h _ => hdOk h 0
  | .fencex h l => hdOk h 0 && l.scope.toNat ≤ 5
  | .tbarv h l => hdOk h 0 && tbarvOk l
  | .tokenLanding _ _ => true
  | .talonRefetch _ _ _ => true
  | .markerTake _ _ _ => true
  | .retirementSnapshot _ => true
  | .leadColourBroadcast _ _ _ => true
  | .deadlock _ => true
  | .read _ => true
  | .write _ => true
  | .maskedWrite _ => true
  | .memReply _ => true
  | .requestTimeout _ => true
  | .parityAlert _ _ => true
  | .channelRetrain _ _ _ => true
  | .farChainFail _ => true
  | .elementRequest _ _ => true
  | .gatherRowTimeout _ _ => true
  | .tableWalkRead _ _ => true
  | .recordRead _ _ _ => true
  | .sectorLand _ _ _ _ => true
  | .nop _ => true
  | .imgreg _ => true
  | .imgdrop _ => true
  | .launch _ => true
  | .walk _ => true
  | .copy _ => true
  | .invtlb _ => true
  | .resrep _ => true
  | .attest _ => true
  | .extmeas _ => true
  | .cload _ => true
  | .cgroup _ => true
  | .cdrop _ => true
  | .qdoor _ _ _ => true
  | .queueEnable _ _ _ => true
  | .queueDisable _ _ _ => true
  | .qerrClear _ _ => true
  | .commandStart _ _ => true
  | .launchPacket _ => true
  | .bar2Read _ _ _ => true
  | .bar2Write _ _ _ => true
  | .bind _ => true
  | .reconf _ => true
  | .freeze _ => true
  | .restore _ => true
  | .release _ => true
  | .restart _ => true
  | .loadComplete _ => true
  | .loadFault _ => true
  | .drainComplete _ => true
  | .drainTimeout _ => true
  | .saveComplete _ => true
  | .taskNode _ _ => true
  | .condNode _ _ => true
  | .whileNode _ _ => true
  | .forkNode _ _ => true
  | .endNode _ _ => true
  | .coldReset => true
  | .warmReset => true
  | .tenantReset _ => true
  | .regionReset _ => true
  | .powerOn => true
  | .secureEraseTimeout _ => true
  | .lifecycleTransition _ _ => true
  | .sealImage _ _ _ => true
  | .unsealImage _ => true
  | .throttleEntry _ _ _ => true
  | .throttleExit _ _ _ => true
  | .overtempCut _ _ => true
  | .rststatWrite _ => true
  | .trimapWrite _ => true
  | .domcfgWrite _ => true
  | .vwcfgWrite _ => true
  | .vwKTakeEffect => true
  | .dlkcfgWrite _ => true
  | .twinWrite _ _ _ => true
  | .hstatRead _ => true
  | .mestatRead _ => true
  | .vwstatRead => true
  | .cstaleRead => true
  | .frlostRead _ => true
  | .registerWrite _ _ _ _ => true
  | .version => true
  | .status => true
  | .temp _ => true
  | .power => true
  | .plimitRead => true
  | .plimitWrite _ => true
  | .smbusRststat => true
  | .smbusHstat _ => true
  | .smbusReset _ => true
  | .lcs => true
  | .devid => true
  | .fabricWrite _ => true
  | .fabricReadRequest _ => true
  | .fabricReadReply _ => true
  | .fabricAtomic _ => true
  | .fabricAtomicReply _ => true
  | .meldPacket _ => true
  | .chunk _ => true
  | .custodyAck _ => true
  | .deliveryAck _ => true
  | .connectionAck _ => true
  | .errorNotice _ => true
  | .hold _ => true
  | .resume _ => true
  | .abort _ => true
  | .armed _ => true
  | .syncMessage _ => true
  | .syncLost => true
  | .custodyTimeout _ => true
  | .connectionTimeout _ => true
  | .ackTimer _ => true
  | .holdPacketTimeout _ => true
  | .linkDown _ => true
  | .linkUp _ => true
  | .connectionFetch _ => true
  | .outputSegment _ _ => true
  | .outputEnd _ _ => true
  | .endAck _ => true
  | .outputPacketArrival _ => true
  | .send _ _ _ => true
  | .recv _ _ _ => true
  | .rreduce _ _ _ => true
  | .trickCopy _ _ _ => true
  | .meld _ _ _ => true
  | .signal _ _ _ => true
  | .trickComplete _ _ _ => true
  | .collectiveTimeout _ _ => true
  | .holdLimit _ _ => true
  | .peerHoldExpiry _ _ => true
  | .secureEraseCompletion _ => true
  | .powerFail => true
  | .functionLevelReset => true
  | .vfEnable _ => true
  | .vfDisable _ => true
  | .heldRequestDiscard _ => true
  | .completionTimeout _ => true
  | .connectionSetUp _ _ => true

/-- A well-formed instruction. -/
abbrev Instr.WellFormed (i : Instr) : Prop := i.wf = true

end Sys2Proof
end

