-- ==== Sys2Proof/Decode.lean ====
section
/-! DEFINITION. Decode: control-core words and node records to instructions, total, rejecting by name; then the encoder. -/

namespace Sys2Proof

/-- Why bits are no instruction. -/
inductive DecodeError where
  /-- FN 0x0F to 0xFF in the ALU group [11 R272]. -/
  | aluFunction
  /-- SYS kind 4 to 7 [11 R272]. -/
  | sysFunction
  /-- TSIG kind 3 to 7 [12 R310]. -/
  | tsigKind
  /-- A nonzero field that the instruction does not use [11 R272]. -/
  | unusedField
  /-- A reserved code in an ordering field, or a register that must be 0 [11 R269, R272]. -/
  | reservedCode
  /-- An unassigned OP of a node record [11 R267]. -/
  | nodeOpcode
  /-- A nonzero reserved literal field [11 R267]. -/
  | literal
  /-- A match mode, destination or literal code that R267 refuses. -/
  | badRecord
  /-- Too few bytes. -/
  | short
deriving DecidableEq, Repr

/-- Bits `lo` up to `lo + n - 1` of `w`. -/
def fld (w lo n : Nat) : BitVec n := BitVec.ofNat n (w / 2 ^ lo)

/-- SW and GAP of a control-core word [11 R268]. -/
def ccHd (w : Nat) : CcHd := { sw := fld w 25 1, gap := fld w 23 2 }

/-- The instruction of a control-core word by MAJ, FN and kind [11 R270, R271; 12 R310], its unused fields checked [11 R272]. -/
def decodeMajor (w : Nat) : Except DecodeError Instr :=
  let h := ccHd w
  match w / 2 ^ 26 % 64 with
  | 0 => match w % 256 with
    | 0 => .ok (.add h (fld w 18 5) (fld w 13 5) (fld w 8 5))
    | 1 => .ok (.sub h (fld w 18 5) (fld w 13 5) (fld w 8 5))
    | 2 => .ok (.and h (fld w 18 5) (fld w 13 5) (fld w 8 5))
    | 3 => .ok (.or h (fld w 18 5) (fld w 13 5) (fld w 8 5))
    | 4 => .ok (.xor h (fld w 18 5) (fld w 13 5) (fld w 8 5))
    | 5 => .ok (.sll h (fld w 18 5) (fld w 13 5) (fld w 8 5))
    | 6 => .ok (.srl h (fld w 18 5) (fld w 13 5) (fld w 8 5))
    | 7 => .ok (.sra h (fld w 18 5) (fld w 13 5) (fld w 8 5))
    | 8 => .ok (.slt h (fld w 18 5) (fld w 13 5) (fld w 8 5))
    | 9 => .ok (.sltu h (fld w 18 5) (fld w 13 5) (fld w 8 5))
    | 10 => .ok (.mul h (fld w 18 5) (fld w 13 5) (fld w 8 5))
    | 11 => .ok (.mulh h (fld w 18 5) (fld w 13 5) (fld w 8 5))
    | 12 => .ok (.mulhu h (fld w 18 5) (fld w 13 5) (fld w 8 5))
    | 13 => .ok (.min h (fld w 18 5) (fld w 13 5) (fld w 8 5))
    | 14 => .ok (.max h (fld w 18 5) (fld w 13 5) (fld w 8 5))
    | _ => .error .aluFunction
  | 1 => .ok (.addi h (fld w 18 5) (fld w 13 5) (fld w 0 13))
  | 2 => .ok (.andi h (fld w 18 5) (fld w 13 5) (fld w 0 13))
  | 3 => .ok (.ori h (fld w 18 5) (fld w 13 5) (fld w 0 13))
  | 4 => .ok (.xori h (fld w 18 5) (fld w 13 5) (fld w 0 13))
  | 5 => if w / 2 ^ 6 % 2 ^ 7 == 0 then .ok (.slli h (fld w 18 5) (fld w 13 5) (fld w 0 6)) else .error .unusedField
  | 6 => if w / 2 ^ 6 % 2 ^ 7 == 0 then .ok (.srli h (fld w 18 5) (fld w 13 5) (fld w 0 6)) else .error .unusedField
  | 7 => if w / 2 ^ 6 % 2 ^ 7 == 0 then .ok (.srai h (fld w 18 5) (fld w 13 5) (fld w 0 6)) else .error .unusedField
  | 8 => .ok (.slti h (fld w 18 5) (fld w 13 5) (fld w 0 13))
  | 9 => .ok (.sltiu h (fld w 18 5) (fld w 13 5) (fld w 0 13))
  | 10 => .ok (.lui h (fld w 18 5) (fld w 0 18))
  | 11 => .ok (.ld1 h (fld w 18 5) (fld w 13 5) (fld w 0 13))
  | 12 => .ok (.ld2 h (fld w 18 5) (fld w 13 5) (fld w 0 13))
  | 13 => .ok (.ld4 h (fld w 18 5) (fld w 13 5) (fld w 0 13))
  | 14 => .ok (.ld8 h (fld w 18 5) (fld w 13 5) (fld w 0 13))
  | 15 => .ok (.ld1z h (fld w 18 5) (fld w 13 5) (fld w 0 13))
  | 16 => .ok (.ld2z h (fld w 18 5) (fld w 13 5) (fld w 0 13))
  | 17 => .ok (.ld4z h (fld w 18 5) (fld w 13 5) (fld w 0 13))
  | 18 => .ok (.st1 h (fld w 18 5) (fld w 13 5) (fld w 0 13))
  | 19 => .ok (.st2 h (fld w 18 5) (fld w 13 5) (fld w 0 13))
  | 20 => .ok (.st4 h (fld w 18 5) (fld w 13 5) (fld w 0 13))
  | 21 => .ok (.st8 h (fld w 18 5) (fld w 13 5) (fld w 0 13))
  | 22 => .ok (.beq h (fld w 18 5) (fld w 13 5) (fld w 0 13))
  | 23 => .ok (.bne h (fld w 18 5) (fld w 13 5) (fld w 0 13))
  | 24 => .ok (.blt h (fld w 18 5) (fld w 13 5) (fld w 0 13))
  | 25 => .ok (.bge h (fld w 18 5) (fld w 13 5) (fld w 0 13))
  | 26 => .ok (.bltu h (fld w 18 5) (fld w 13 5) (fld w 0 13))
  | 27 => .ok (.bgeu h (fld w 18 5) (fld w 13 5) (fld w 0 13))
  | 28 => .ok (.jal h (fld w 18 5) (fld w 0 18))
  | 29 => .ok (.jalr h (fld w 18 5) (fld w 13 5) (fld w 0 13))
  | 30 => .ok (.loopi h (fld w 13 10) (fld w 0 13))
  | 31 => if w / 2 ^ 18 % 2 ^ 5 == 0 then .ok (.loopr h (fld w 13 5) (fld w 0 13)) else .error .unusedField
  | 32 => .ok (.amadd h (fld w 18 5) (fld w 13 5) (fld w 8 5) (fld w 5 3) (fld w 2 3) (fld w 0 2))
  | 33 => .ok (.amswp h (fld w 18 5) (fld w 13 5) (fld w 8 5) (fld w 5 3) (fld w 2 3) (fld w 0 2))
  | 34 => .ok (.amcas h (fld w 18 5) (fld w 13 5) (fld w 8 5) (fld w 5 3) (fld w 2 3) (fld w 0 2))
  | 35 => .ok (.ammax h (fld w 18 5) (fld w 13 5) (fld w 8 5) (fld w 5 3) (fld w 2 3) (fld w 0 2))
  | 36 => .ok (.ammin h (fld w 18 5) (fld w 13 5) (fld w 8 5) (fld w 5 3) (fld w 2 3) (fld w 0 2))
  | 37 => if w % 2 ^ 2 == 0 && w / 2 ^ 8 % 2 ^ 15 == 0 then .ok (.fence h (fld w 5 3) (fld w 2 3)) else .error .unusedField
  | 38 => if w % 2 ^ 2 == 0 && w / 2 ^ 5 % 2 ^ 8 == 3 && w / 2 ^ 16 % 2 ^ 2 == 0 && w / 2 ^ 21 % 2 ^ 2 == 0 then .ok (.xfence h (fld w 18 3) (fld w 13 3) (fld w 2 3)) else .error .unusedField
  | 39 => if w / 2 ^ 8 % 2 ^ 5 == 0 then .ok (.gload h (fld w 18 5) (fld w 13 5) (fld w 0 8)) else .error .unusedField
  | 40 => if w / 2 ^ 4 % 2 ^ 4 == 0 && w / 2 ^ 18 % 2 ^ 5 == 0 then .ok (.cfgw h (fld w 13 5) (fld w 8 5) (fld w 0 4)) else .error .unusedField
  | 41 => if w / 2 ^ 18 % 2 ^ 5 == 0 then .ok (.kset h (fld w 13 5) (fld w 8 5) (fld w 0 8)) else .error .unusedField
  | 42 => if w % 2 ^ 8 == 0 && w / 2 ^ 18 % 2 ^ 5 == 0 then .ok (.inj h (fld w 13 5) (fld w 8 5)) else .error .unusedField
  | 43 => if w / 2 ^ 18 % 2 ^ 5 == 0 then .ok (.injt h (fld w 13 5) (fld w 8 5) (fld w 5 3) (fld w 0 5)) else .error .unusedField
  | 44 => if w / 2 ^ 8 % 2 ^ 5 == 0 && w / 2 ^ 18 % 2 ^ 5 == 0 then .ok (.mark h (fld w 13 5) (fld w 0 8)) else .error .unusedField
  | 45 => if w % 2 ^ 13 == 0 then .ok (.purge h (fld w 18 5) (fld w 13 5)) else .error .unusedField
  | 46 => if w % 2 ^ 8 == 0 then .ok (.clrset h (fld w 18 5) (fld w 13 5) (fld w 8 5)) else .error .unusedField
  | 47 => if w / 2 ^ 2 % 2 ^ 11 == 0 then .ok (.dlq h (fld w 18 5) (fld w 13 5) (fld w 0 2)) else .error .unusedField
  | 48 => if w / 2 ^ 3 % 2 ^ 5 == 0 && w / 2 ^ 18 % 2 ^ 5 == 0 then .ok (.sbind h (fld w 13 5) (fld w 8 5) (fld w 0 3)) else .error .unusedField
  | 49 => if w % 2 ^ 13 == 0 then .ok (.sbar h (fld w 18 5) (fld w 13 5)) else .error .unusedField
  | 50 => .ok (.swait h (fld w 18 5) (fld w 13 5) (fld w 0 13))
  | 51 => if w / 2 ^ 4 % 2 ^ 9 == 0 then .ok (.chstart h (fld w 18 5) (fld w 13 5) (fld w 0 4)) else .error .unusedField
  | 52 => if w / 2 ^ 5 % 2 ^ 13 == 0 then .ok (.chstat h (fld w 18 5) (fld w 4 1) (fld w 0 4)) else .error .unusedField
  | 53 => if w % 2 ^ 8 == 0 && w / 2 ^ 18 % 2 ^ 5 == 0 then .ok (.tbinit h (fld w 13 5) (fld w 8 5)) else .error .unusedField
  | 54 => if w % 2 ^ 8 == 0 && w / 2 ^ 18 % 2 ^ 5 == 0 then .ok (.tbarr h (fld w 13 5) (fld w 8 5)) else .error .unusedField
  | 55 => if w % 2 ^ 8 == 0 then .ok (.tbwait h (fld w 18 5) (fld w 13 5) (fld w 8 5)) else .error .unusedField
  | 56 => if w % 2 ^ 8 == 0 then .ok (.qpushc h (fld w 18 5) (fld w 13 5) (fld w 8 5)) else .error .unusedField
  | 57 => if w % 2 ^ 13 == 0 then .ok (.qclose h (fld w 18 5) (fld w 13 5)) else .error .unusedField
  | 58 => match w / 2 ^ 10 % 8 with
    | 0 => if w / 2 ^ 3 % 2 ^ 7 == 0 && w / 2 ^ 13 % 2 ^ 10 == 0 then .ok (.tsigExit h (fld w 0 3)) else .error .unusedField
    | 1 => if w / 2 ^ 3 % 2 ^ 7 == 0 && w / 2 ^ 13 % 2 ^ 10 == 0 then .ok (.tsigMsi h (fld w 0 3)) else .error .unusedField
    | 2 => if w / 2 ^ 2 % 2 ^ 8 == 0 && w / 2 ^ 18 % 2 ^ 5 == 0 then .ok (.tsigWake h (fld w 13 5) (fld w 0 2)) else .error .unusedField
    | _ => .error .tsigKind
  | 59 => match w / 2 ^ 10 % 8 with
    | 0 => if w / 2 ^ 13 % 2 ^ 10 == 0 then .ok (.trap h (fld w 0 10)) else .error .unusedField
    | 1 => if w % 2 ^ 10 == 0 && w / 2 ^ 13 % 2 ^ 10 == 0 then .ok (.eret h) else .error .unusedField
    | 2 => if w % 2 ^ 10 == 0 && w / 2 ^ 13 % 2 ^ 10 == 0 then .ok (.wfe h) else .error .unusedField
    | 3 => if w % 2 ^ 10 == 0 && w / 2 ^ 13 % 2 ^ 10 == 0 then .ok (.yield h) else .error .unusedField
    | _ => .error .sysFunction
  | 60 => if w / 2 ^ 12 % 2 ^ 6 == 0 then .ok (.csrr h (fld w 18 5) (fld w 0 12)) else .error .unusedField
  | 61 => if w / 2 ^ 12 % 2 ^ 1 == 0 then .ok (.csrw h (fld w 18 5) (fld w 13 5) (fld w 0 12)) else .error .unusedField
  | 62 => if w / 2 ^ 12 % 2 ^ 1 == 0 then .ok (.csrs h (fld w 18 5) (fld w 13 5) (fld w 0 12)) else .error .unusedField
  | 63 => if w / 2 ^ 12 % 2 ^ 1 == 0 then .ok (.csrc h (fld w 18 5) (fld w 13 5) (fld w 0 12)) else .error .unusedField
  | _ => .error .aluFunction

/-- The instruction of a 32-bit control-core word [11 R268 to R272]. -/
def decodeWord (w : Nat) : Except DecodeError Instr :=
  match decodeMajor w with
  | .error e => .error e
  | .ok i => if i.wf then .ok i else .error .reservedCode

/-- A destination field [11 R260]. -/
def destOf (d : Nat) : Dest :=
  { port := fld d 24 2, node := fld d 12 12, core := fld d 6 6, elem := fld d 0 6 }

/-- MM, YLD and the destinations of a node record [11 R260]. -/
def nodeHd (r : Nat) : NodeHd :=
  { mm := fld r 85 2, yld := fld r 84 1, d0 := destOf (r / 2 ^ 58 % 2 ^ 26), d1 := destOf (r / 2 ^ 32 % 2 ^ 26) }

/-- Sub-format V [11 R260]. -/
def litV (l : Nat) : LitV :=
  { ofmt := fld l 28 4, rnd := fld l 25 3, kc := fld l 21 4, kd := fld l 17 4, md := fld l 0 17 }

/-- Sub-format M [11 R260]. -/
def litM (l : Nat) : LitM :=
  { slot := fld l 25 7, ofmt := fld l 21 4, rnd := fld l 18 3, md := fld l 0 18 }

/-- Sub-format P [11 R260]. -/
def litP (l : Nat) : LitP :=
  { shape := fld l 24 8, bank := fld l 20 4, idx := fld l 12 8, spm := fld l 11 1, md := fld l 0 11 }

/-- Sub-format A [11 R260]. -/
def litA (l : Nat) : LitA := { opm := fld l 30 2, wave := fld l 0 30 }

/-- Sub-format X [11 R260]. -/
def litX (l : Nat) : LitX := { xop := fld l 28 4, sem := fld l 26 2, disp := fld l 0 26 }

/-- Sub-format Q [11 R260]. -/
def litQ (l : Nat) : LitQ := { red := fld l 16 16, lin := fld l 11 5, vt := fld l 10 1 }

/-- Sub-format F [11 R260]. -/
def litF (l : Nat) : LitF := { spath := fld l 29 3, dpath := fld l 26 3, scope := fld l 23 3 }

/-- Sub-format T [11 R260]. -/
def litT (l : Nat) : LitT := { buf := fld l 30 2, off := fld l 4 19 }

/-- The operator of a node record by OP [11 R262 to R266], its reserved literal bits checked [11 R267]. -/
def decodeOp (r : Nat) : Except DecodeError Instr :=
  let h := nodeHd r
  let l := r % 2 ^ 32
  match r / 2 ^ 87 % 512 with
  | 0 => if l == 0 then .ok (.steer h) else .error .literal
  | 1 => if l == 0 then .ok (.select h) else .error .literal
  | 2 => if l == 0 then .ok (.merge h) else .error .literal
  | 3 => if l == 0 then .ok (.dup h) else .error .literal
  | 4 => if l == 0 then .ok (.sink h) else .error .literal
  | 5 => if l == 0 then .ok (.cinc h) else .error .literal
  | 6 => if l == 0 then .ok (.center h) else .error .literal
  | 7 => if l == 0 then .ok (.cexit h) else .error .literal
  | 8 => .ok (.loopn h (fld l 0 32))
  | 9 => if l == 0 then .ok (.invar h) else .error .literal
  | 10 => if l == 0 then .ok (.purgen h) else .error .literal
  | 11 => if l == 0 then .ok (.gate h) else .error .literal
  | 12 => if l == 0 then .ok (.join h) else .error .literal
  | 13 => if l / 2 ^ 12 == 0 then .ok (.barv h (fld l 6 6) (fld l 0 6)) else .error .literal
  | 14 => if l == 0 then .ok (.qpop h) else .error .literal
  | 15 => if l == 0 then .ok (.qtry h) else .error .literal
  | 16 => if l == 0 then .ok (.eos h) else .error .literal
  | 64 => .ok (.sadd h (fld l 0 32))
  | 65 => .ok (.ssub h (fld l 0 32))
  | 66 => .ok (.smul h (fld l 0 32))
  | 67 => .ok (.sand h (fld l 0 32))
  | 68 => .ok (.sor h (fld l 0 32))
  | 69 => .ok (.sxor h (fld l 0 32))
  | 70 => .ok (.sshl h (fld l 0 32))
  | 71 => .ok (.sshr h (fld l 0 32))
  | 72 => .ok (.ssra h (fld l 0 32))
  | 73 => .ok (.smin h (fld l 0 32))
  | 74 => .ok (.smax h (fld l 0 32))
  | 75 => if l / 2 ^ 4 == 0 then .ok (.scmp h (fld l 0 4)) else .error .literal
  | 76 => if l == 0 then .ok (.ssel h) else .error .literal
  | 77 => .ok (.sconst h (fld l 0 32))
  | 78 => if l / 2 ^ 4 == 0 then .ok (.skrd h (fld l 0 4)) else .error .literal
  | 79 => .ok (.sfadd h (fld l 0 32))
  | 80 => .ok (.sfmul h (fld l 0 32))
  | 81 => .ok (.scvt h (litV l))
  | 128 => .ok (.vadd h (litV l))
  | 129 => .ok (.vsub h (litV l))
  | 130 => .ok (.vmul h (litV l))
  | 131 => .ok (.vfma h (litV l))
  | 132 => .ok (.vmax h (litV l))
  | 133 => .ok (.vmin h (litV l))
  | 134 => .ok (.vabs h (litV l))
  | 135 => .ok (.vscl h (litV l))
  | 136 => .ok (.vmov h (litV l))
  | 137 => .ok (.vexp2 h (litV l))
  | 138 => .ok (.vlog2 h (litV l))
  | 139 => .ok (.vrcp h (litV l))
  | 140 => .ok (.vrsq h (litV l))
  | 141 => .ok (.vcvt h (litV l))
  | 142 => .ok (.vbscale h (litV l))
  | 143 => .ok (.vquant h (litV l))
  | 144 => .ok (.vrowmax h (litV l))
  | 145 => .ok (.vrowsum h (litV l))
  | 146 => .ok (.vsmx h (litV l))
  | 147 => .ok (.vsmxf h (litV l))
  | 148 => .ok (.vtrans h (litV l))
  | 149 => .ok (.vsel h (litV l))
  | 150 => .ok (.vcmp h (litV l))
  | 151 => .ok (.vclamp h (litV l))
  | 152 => .ok (.vbcast h (litV l))
  | 153 => .ok (.vzero h (litV l))
  | 192 => .ok (.mclaim h (litM l))
  | 193 => .ok (.mrel h (litM l))
  | 194 => .ok (.mldb h (litM l))
  | 195 => .ok (.mbcb h (litM l))
  | 196 => .ok (.msel h (litM l))
  | 197 => .ok (.mma h (litM l))
  | 198 => .ok (.mmas h (litM l))
  | 199 => .ok (.mzero h (litM l))
  | 200 => .ok (.mdrn h (litM l))
  | 201 => .ok (.msave h (litM l))
  | 202 => .ok (.mrest h (litM l))
  | 256 => .ok (.spld h (litP l))
  | 257 => .ok (.spst h (litP l))
  | 258 => .ok (.spw h (litP l))
  | 259 => .ok (.spup h (litP l))
  | 260 => .ok (.spdn h (litP l))
  | 261 => .ok (.spmax h (litP l))
  | 262 => .ok (.sparg h (litP l))
  | 263 => .ok (.spnrm h (litP l))
  | 264 => .ok (.spcvt h (litP l))
  | 265 => .ok (.spzero h (litP l))
  | 320 => .ok (.aload h (litA l))
  | 321 => .ok (.astore h (litA l))
  | 322 => .ok (.agath h (litA l))
  | 323 => .ok (.ascat h (litA l))
  | 324 => .ok (.acfg h (litA l))
  | 325 => .ok (.aeos h (litA l))
  | 326 => .ok (.wld h (litA l))
  | 327 => .ok (.wst h (litA l))
  | 384 => .ok (.rld h (litX l))
  | 385 => .ok (.rst h (litX l))
  | 386 => .ok (.ratom h (litX l))
  | 387 => if l == 0 then .ok (.rfen h) else .error .literal
  | 388 => if l % 2 ^ 10 == 0 then .ok (.smsend h (litQ l)) else .error .literal
  | 389 => if l % 2 ^ 10 == 0 then .ok (.smrecv h (litQ l)) else .error .literal
  | 390 => if l % 2 ^ 26 == 0 then .ok (.claunch h (fld l 26 6)) else .error .literal
  | 391 => if l % 2 ^ 26 == 0 then .ok (.crecv h (fld l 26 6)) else .error .literal
  | 392 => if l % 2 ^ 23 == 0 then .ok (.fencex h (litF l)) else .error .literal
  | 393 => if l % 2 ^ 4 == 0 && l / 2 ^ 23 % 2 ^ 7 == 0 then .ok (.tbarv h (litT l)) else .error .literal
  | _ => .error .nodeOpcode

/-- The operator of a 96-bit node record [11 R260, R267]. -/
def decodeNode (r : Nat) : Except DecodeError Instr :=
  match decodeOp r with
  | .error e => .error e
  | .ok i => if i.wf then .ok i else .error .badRecord

/-- A little-endian number from bytes [00 R4]. -/
def leNat : List (BitVec 8) → Nat
  | [] => 0
  | b :: bs => b.toNat + 256 * leNat bs

/-- The low `n` bytes of a number, little-endian [00 R4]. -/
def leBytes : Nat → Nat → List (BitVec 8)
  | 0, _ => []
  | n + 1, v => BitVec.ofNat 8 v :: leBytes n (v / 256)

/-- The control-core instruction that the first four bytes hold, with the rest. -/
def decodeBytes (bs : List (BitVec 8)) : Except DecodeError (Instr × List (BitVec 8)) :=
  if bs.length < 4 then .error .short
  else match decodeWord (leNat (bs.take 4)) with
    | .error e => .error e
    | .ok i => .ok (i, bs.drop 4)

/-- The node operator that the first twelve bytes hold, with the rest [11 R260]. -/
def decodeRecord (bs : List (BitVec 8)) : Except DecodeError (Instr × List (BitVec 8)) :=
  if bs.length < 12 then .error .short
  else match decodeNode (leNat (bs.take 12)) with
    | .error e => .error e
    | .ok i => .ok (i, bs.drop 12)

/-- The instruction whose bits are `w`: a control-core word up to 32 bits, a node record above, the bits above `nbits` 0. -/
def decodeTableWord (nbits w : Nat) : Option Instr :=
  let v := w % 2 ^ nbits
  match (if nbits ≤ 32 then decodeBytes (leBytes 4 v) else decodeRecord (leBytes 12 v)) with
  | .ok (i, _) => some i
  | .error _ => none

/-- A field's bits in their place. -/
def put (x : BitVec n) (lo : Nat) : Nat := x.toNat * 2 ^ lo

/-- MAJ with the fixed bits `m`, SW and GAP [11 R268]. -/
def ccWord (m : Nat) (h : CcHd) : Nat := m + put h.sw 25 + put h.gap 23

/-- The bits of a destination [11 R260]. -/
def encDest (d : Dest) : Nat :=
  put d.port 24 + put d.node 12 + put d.core 6 + d.elem.toNat

/-- A node record from its fields [11 R260]. -/
def nodeWord (op : Nat) (h : NodeHd) (l : Nat) : Nat :=
  op * 2 ^ 87 + put h.mm 85 + put h.yld 84 + encDest h.d0 * 2 ^ 58 + encDest h.d1 * 2 ^ 32 + l

/-- The bits of sub-format V. -/
def encV (l : LitV) : Nat :=
  put l.ofmt 28 + put l.rnd 25 + put l.kc 21 + put l.kd 17 + l.md.toNat

/-- The bits of sub-format M. -/
def encM (l : LitM) : Nat :=
  put l.slot 25 + put l.ofmt 21 + put l.rnd 18 + l.md.toNat

/-- The bits of sub-format P. -/
def encP (l : LitP) : Nat :=
  put l.shape 24 + put l.bank 20 + put l.idx 12 + put l.spm 11 + l.md.toNat

/-- The bits of sub-format A. -/
def encA (l : LitA) : Nat := put l.opm 30 + l.wave.toNat

/-- The bits of sub-format X. -/
def encX (l : LitX) : Nat := put l.xop 28 + put l.sem 26 + l.disp.toNat

/-- The bits of sub-format Q. -/
def encQ (l : LitQ) : Nat := put l.red 16 + put l.lin 11 + put l.vt 10

/-- The bits of sub-format F. -/
def encF (l : LitF) : Nat := put l.spath 29 + put l.dpath 26 + put l.scope 23

/-- The bits of sub-format T. -/
def encT (l : LitT) : Nat := put l.buf 30 + put l.off 4

/-- The number of bits that an instruction's encoding has: 32 for a control-core word, 96 for a node record, none for an event. -/
def Instr.bits (i : Instr) : Nat :=
  match i with
  | .add _ _ _ _ => 32
  | .sub _ _ _ _ => 32
  | .and _ _ _ _ => 32
  | .or _ _ _ _ => 32
  | .xor _ _ _ _ => 32
  | .sll _ _ _ _ => 32
  | .srl _ _ _ _ => 32
  | .sra _ _ _ _ => 32
  | .slt _ _ _ _ => 32
  | .sltu _ _ _ _ => 32
  | .mul _ _ _ _ => 32
  | .mulh _ _ _ _ => 32
  | .mulhu _ _ _ _ => 32
  | .min _ _ _ _ => 32
  | .max _ _ _ _ => 32
  | .addi _ _ _ _ => 32
  | .andi _ _ _ _ => 32
  | .ori _ _ _ _ => 32
  | .xori _ _ _ _ => 32
  | .slli _ _ _ _ => 32
  | .srli _ _ _ _ => 32
  | .srai _ _ _ _ => 32
  | .slti _ _ _ _ => 32
  | .sltiu _ _ _ _ => 32
  | .lui _ _ _ => 32
  | .ld1 _ _ _ _ => 32
  | .ld2 _ _ _ _ => 32
  | .ld4 _ _ _ _ => 32
  | .ld8 _ _ _ _ => 32
  | .ld1z _ _ _ _ => 32
  | .ld2z _ _ _ _ => 32
  | .ld4z _ _ _ _ => 32
  | .st1 _ _ _ _ => 32
  | .st2 _ _ _ _ => 32
  | .st4 _ _ _ _ => 32
  | .st8 _ _ _ _ => 32
  | .beq _ _ _ _ => 32
  | .bne _ _ _ _ => 32
  | .blt _ _ _ _ => 32
  | .bge _ _ _ _ => 32
  | .bltu _ _ _ _ => 32
  | .bgeu _ _ _ _ => 32
  | .jal _ _ _ => 32
  | .jalr _ _ _ _ => 32
  | .loopi _ _ _ => 32
  | .loopr _ _ _ => 32
  | .amadd _ _ _ _ _ _ _ => 32
  | .amswp _ _ _ _ _ _ _ => 32
  | .amcas _ _ _ _ _ _ _ => 32
  | .ammax _ _ _ _ _ _ _ => 32
  | .ammin _ _ _ _ _ _ _ => 32
  | .fence _ _ _ => 32
  | .xfence _ _ _ _ => 32
  | .gload _ _ _ _ => 32
  | .cfgw _ _ _ _ => 32
  | .cfgwApply _ _ _ => 0
  | .kset _ _ _ _ => 32
  | .inj _ _ _ => 32
  | .injt _ _ _ _ _ => 32
  | .mark _ _ _ => 32
  | .purge _ _ _ => 32
  | .clrset _ _ _ _ => 32
  | .dlq _ _ _ _ => 32
  | .sbind _ _ _ _ => 32
  | .sbar _ _ _ => 32
  | .swait _ _ _ _ => 32
  | .chstart _ _ _ _ => 32
  | .chstat _ _ _ _ => 32
  | .tbinit _ _ _ => 32
  | .tbarr _ _ _ => 32
  | .tbwait _ _ _ _ => 32
  | .qpushc _ _ _ _ => 32
  | .qclose _ _ _ => 32
  | .tsigExit _ _ => 32
  | .tsigMsi _ _ => 32
  | .tsigWake _ _ _ => 32
  | .trap _ _ => 32
  | .eret _ => 32
  | .wfe _ => 32
  | .yield _ => 32
  | .csrr _ _ _ => 32
  | .csrw _ _ _ _ => 32
  | .csrs _ _ _ _ => 32
  | .csrc _ _ _ _ => 32
  | .asynchronousTrap _ _ => 0
  | .illegal _ => 0
  | .steer _ => 96
  | .select _ => 96
  | .merge _ => 96
  | .dup _ => 96
  | .sink _ => 96
  | .cinc _ => 96
  | .center _ => 96
  | .cexit _ => 96
  | .loopn _ _ => 96
  | .loopnStep _ _ _ _ _ => 0
  | .invar _ => 96
  | .purgen _ => 96
  | .gate _ => 96
  | .join _ => 96
  | .barv _ _ _ => 96
  | .barrierArrival _ _ _ => 0
  | .barrierRelease _ _ _ _ _ => 0
  | .qpop _ => 96
  | .qtry _ => 96
  | .eos _ => 96
  | .sadd _ _ => 96
  | .ssub _ _ => 96
  | .smul _ _ => 96
  | .sand _ _ => 96
  | .sor _ _ => 96
  | .sxor _ _ => 96
  | .sshl _ _ => 96
  | .sshr _ _ => 96
  | .ssra _ _ => 96
  | .smin _ _ => 96
  | .smax _ _ => 96
  | .scmp _ _ => 96
  | .ssel _ => 96
  | .sconst _ _ => 96
  | .skrd _ _ => 96
  | .sfadd _ _ => 96
  | .sfmul _ _ => 96
  | .scvt _ _ => 96
  | .vadd _ _ => 96
  | .vsub _ _ => 96
  | .vmul _ _ => 96
  | .vfma _ _ => 96
  | .vmax _ _ => 96
  | .vmin _ _ => 96
  | .vabs _ _ => 96
  | .vscl _ _ => 96
  | .vmov _ _ => 96
  | .vexp2 _ _ => 96
  | .vlog2 _ _ => 96
  | .vrcp _ _ => 96
  | .vrsq _ _ => 96
  | .vcvt _ _ => 96
  | .vbscale _ _ => 96
  | .vquant _ _ => 96
  | .vrowmax _ _ => 96
  | .vrowsum _ _ => 96
  | .vsmx _ _ => 96
  | .vsmxf _ _ => 96
  | .vtrans _ _ => 96
  | .vsel _ _ => 96
  | .vcmp _ _ => 96
  | .vclamp _ _ => 96
  | .vbcast _ _ => 96
  | .vzero _ _ => 96
  | .mclaim _ _ => 96
  | .mrel _ _ => 96
  | .mldb _ _ => 96
  | .mbcb _ _ => 96
  | .bBroadcast _ _ => 0
  | .msel _ _ => 96
  | .mma _ _ => 96
  | .mmas _ _ => 96
  | .mzero _ _ => 96
  | .mdrn _ _ => 96
  | .msave _ _ => 96
  | .mrest _ _ => 96
  | .spld _ _ => 96
  | .spst _ _ => 96
  | .spw _ _ => 96
  | .spup _ _ => 96
  | .spdn _ _ => 96
  | .spmax _ _ => 96
  | .sparg _ _ => 96
  | .spnrm _ _ => 96
  | .spcvt _ _ => 96
  | .spzero _ _ => 96
  | .aload _ _ => 96
  | .astore _ _ => 96
  | .agath _ _ => 96
  | .ascat _ _ => 96
  | .acfg _ _ => 96
  | .aeos _ _ => 96
  | .wld _ _ => 96
  | .wst _ _ => 96
  | .waveRelease _ _ _ => 0
  | .rld _ _ => 96
  | .rst _ _ => 96
  | .ratom _ _ => 96
  | .rfen _ => 96
  | .smsend _ _ => 96
  | .smrecv _ _ => 96
  | .claunch _ _ => 96
  | .crecv _ _ => 96
  | .fencex _ _ => 96
  | .tbarv _ _ => 96
  | .tokenLanding _ _ => 0
  | .talonRefetch _ _ _ => 0
  | .markerTake _ _ _ => 0
  | .retirementSnapshot _ => 0
  | .leadColourBroadcast _ _ _ => 0
  | .deadlock _ => 0
  | .read _ => 0
  | .write _ => 0
  | .maskedWrite _ => 0
  | .memReply _ => 0
  | .requestTimeout _ => 0
  | .parityAlert _ _ => 0
  | .channelRetrain _ _ _ => 0
  | .farChainFail _ => 0
  | .elementRequest _ _ => 0
  | .gatherRowTimeout _ _ => 0
  | .tableWalkRead _ _ => 0
  | .recordRead _ _ _ => 0
  | .sectorLand _ _ _ _ => 0
  | .nop _ => 0
  | .imgreg _ => 0
  | .imgdrop _ => 0
  | .launch _ => 0
  | .walk _ => 0
  | .copy _ => 0
  | .invtlb _ => 0
  | .resrep _ => 0
  | .attest _ => 0
  | .extmeas _ => 0
  | .cload _ => 0
  | .cgroup _ => 0
  | .cdrop _ => 0
  | .qdoor _ _ _ => 0
  | .queueEnable _ _ _ => 0
  | .queueDisable _ _ _ => 0
  | .qerrClear _ _ => 0
  | .commandStart _ _ => 0
  | .launchPacket _ => 0
  | .bar2Read _ _ _ => 0
  | .bar2Write _ _ _ => 0
  | .bind _ => 0
  | .reconf _ => 0
  | .freeze _ => 0
  | .restore _ => 0
  | .release _ => 0
  | .restart _ => 0
  | .loadComplete _ => 0
  | .loadFault _ => 0
  | .drainComplete _ => 0
  | .drainTimeout _ => 0
  | .saveComplete _ => 0
  | .taskNode _ _ => 0
  | .condNode _ _ => 0
  | .whileNode _ _ => 0
  | .forkNode _ _ => 0
  | .endNode _ _ => 0
  | .coldReset => 0
  | .warmReset => 0
  | .tenantReset _ => 0
  | .regionReset _ => 0
  | .powerOn => 0
  | .secureEraseTimeout _ => 0
  | .lifecycleTransition _ _ => 0
  | .sealImage _ _ _ => 0
  | .unsealImage _ => 0
  | .throttleEntry _ _ _ => 0
  | .throttleExit _ _ _ => 0
  | .overtempCut _ _ => 0
  | .rststatWrite _ => 0
  | .trimapWrite _ => 0
  | .domcfgWrite _ => 0
  | .vwcfgWrite _ => 0
  | .vwKTakeEffect => 0
  | .dlkcfgWrite _ => 0
  | .twinWrite _ _ _ => 0
  | .hstatRead _ => 0
  | .mestatRead _ => 0
  | .vwstatRead => 0
  | .cstaleRead => 0
  | .frlostRead _ => 0
  | .registerWrite _ _ _ _ => 0
  | .version => 0
  | .status => 0
  | .temp _ => 0
  | .power => 0
  | .plimitRead => 0
  | .plimitWrite _ => 0
  | .smbusRststat => 0
  | .smbusHstat _ => 0
  | .smbusReset _ => 0
  | .lcs => 0
  | .devid => 0
  | .fabricWrite _ => 0
  | .fabricReadRequest _ => 0
  | .fabricReadReply _ => 0
  | .fabricAtomic _ => 0
  | .fabricAtomicReply _ => 0
  | .meldPacket _ => 0
  | .chunk _ => 0
  | .custodyAck _ => 0
  | .deliveryAck _ => 0
  | .connectionAck _ => 0
  | .errorNotice _ => 0
  | .hold _ => 0
  | .resume _ => 0
  | .abort _ => 0
  | .armed _ => 0
  | .syncMessage _ => 0
  | .syncLost => 0
  | .custodyTimeout _ => 0
  | .connectionTimeout _ => 0
  | .ackTimer _ => 0
  | .holdPacketTimeout _ => 0
  | .linkDown _ => 0
  | .linkUp _ => 0
  | .connectionFetch _ => 0
  | .outputSegment _ _ => 0
  | .outputEnd _ _ => 0
  | .endAck _ => 0
  | .outputPacketArrival _ => 0
  | .send _ _ _ => 0
  | .recv _ _ _ => 0
  | .rreduce _ _ _ => 0
  | .trickCopy _ _ _ => 0
  | .meld _ _ _ => 0
  | .signal _ _ _ => 0
  | .trickComplete _ _ _ => 0
  | .collectiveTimeout _ _ => 0
  | .holdLimit _ _ => 0
  | .peerHoldExpiry _ _ => 0
  | .secureEraseCompletion _ => 0
  | .powerFail => 0
  | .functionLevelReset => 0
  | .vfEnable _ => 0
  | .vfDisable _ => 0
  | .heldRequestDiscard _ => 0
  | .completionTimeout _ => 0
  | .connectionSetUp _ _ => 0

/-- The 32-bit word of a control-core instruction, from the encoding tables [11 R268 to R271; 12]; 0 for another. -/
def encodeCc (i : Instr) : Nat :=
  match i with
  | .add h d a b => ccWord 0x00000000 h + put d 18 + put a 13 + put b 8
  | .sub h d a b => ccWord 0x00000001 h + put d 18 + put a 13 + put b 8
  | .and h d a b => ccWord 0x00000002 h + put d 18 + put a 13 + put b 8
  | .or h d a b => ccWord 0x00000003 h + put d 18 + put a 13 + put b 8
  | .xor h d a b => ccWord 0x00000004 h + put d 18 + put a 13 + put b 8
  | .sll h d a b => ccWord 0x00000005 h + put d 18 + put a 13 + put b 8
  | .srl h d a b => ccWord 0x00000006 h + put d 18 + put a 13 + put b 8
  | .sra h d a b => ccWord 0x00000007 h + put d 18 + put a 13 + put b 8
  | .slt h d a b => ccWord 0x00000008 h + put d 18 + put a 13 + put b 8
  | .sltu h d a b => ccWord 0x00000009 h + put d 18 + put a 13 + put b 8
  | .mul h d a b => ccWord 0x0000000A h + put d 18 + put a 13 + put b 8
  | .mulh h d a b => ccWord 0x0000000B h + put d 18 + put a 13 + put b 8
  | .mulhu h d a b => ccWord 0x0000000C h + put d 18 + put a 13 + put b 8
  | .min h d a b => ccWord 0x0000000D h + put d 18 + put a 13 + put b 8
  | .max h d a b => ccWord 0x0000000E h + put d 18 + put a 13 + put b 8
  | .addi h d a i => ccWord 0x04000000 h + put d 18 + put a 13 + put i 0
  | .andi h d a i => ccWord 0x08000000 h + put d 18 + put a 13 + put i 0
  | .ori h d a i => ccWord 0x0C000000 h + put d 18 + put a 13 + put i 0
  | .xori h d a i => ccWord 0x10000000 h + put d 18 + put a 13 + put i 0
  | .slli h d a i => ccWord 0x14000000 h + put d 18 + put a 13 + put i 0
  | .srli h d a i => ccWord 0x18000000 h + put d 18 + put a 13 + put i 0
  | .srai h d a i => ccWord 0x1C000000 h + put d 18 + put a 13 + put i 0
  | .slti h d a i => ccWord 0x20000000 h + put d 18 + put a 13 + put i 0
  | .sltiu h d a i => ccWord 0x24000000 h + put d 18 + put a 13 + put i 0
  | .lui h d i => ccWord 0x28000000 h + put d 18 + put i 0
  | .ld1 h d a i => ccWord 0x2C000000 h + put d 18 + put a 13 + put i 0
  | .ld2 h d a i => ccWord 0x30000000 h + put d 18 + put a 13 + put i 0
  | .ld4 h d a i => ccWord 0x34000000 h + put d 18 + put a 13 + put i 0
  | .ld8 h d a i => ccWord 0x38000000 h + put d 18 + put a 13 + put i 0
  | .ld1z h d a i => ccWord 0x3C000000 h + put d 18 + put a 13 + put i 0
  | .ld2z h d a i => ccWord 0x40000000 h + put d 18 + put a 13 + put i 0
  | .ld4z h d a i => ccWord 0x44000000 h + put d 18 + put a 13 + put i 0
  | .st1 h b a i => ccWord 0x48000000 h + put b 18 + put a 13 + put i 0
  | .st2 h b a i => ccWord 0x4C000000 h + put b 18 + put a 13 + put i 0
  | .st4 h b a i => ccWord 0x50000000 h + put b 18 + put a 13 + put i 0
  | .st8 h b a i => ccWord 0x54000000 h + put b 18 + put a 13 + put i 0
  | .beq h b a i => ccWord 0x58000000 h + put b 18 + put a 13 + put i 0
  | .bne h b a i => ccWord 0x5C000000 h + put b 18 + put a 13 + put i 0
  | .blt h b a i => ccWord 0x60000000 h + put b 18 + put a 13 + put i 0
  | .bge h b a i => ccWord 0x64000000 h + put b 18 + put a 13 + put i 0
  | .bltu h b a i => ccWord 0x68000000 h + put b 18 + put a 13 + put i 0
  | .bgeu h b a i => ccWord 0x6C000000 h + put b 18 + put a 13 + put i 0
  | .jal h d i => ccWord 0x70000000 h + put d 18 + put i 0
  | .jalr h d a i => ccWord 0x74000000 h + put d 18 + put a 13 + put i 0
  | .loopi h c i => ccWord 0x78000000 h + put c 13 + put i 0
  | .loopr h a i => ccWord 0x7C000000 h + put a 13 + put i 0
  | .amadd h d a b e o z => ccWord 0x80000000 h + put d 18 + put a 13 + put b 8 + put e 5 + put o 2 + put z 0
  | .amswp h d a b e o z => ccWord 0x84000000 h + put d 18 + put a 13 + put b 8 + put e 5 + put o 2 + put z 0
  | .amcas h d a b e o z => ccWord 0x88000000 h + put d 18 + put a 13 + put b 8 + put e 5 + put o 2 + put z 0
  | .ammax h d a b e o z => ccWord 0x8C000000 h + put d 18 + put a 13 + put b 8 + put e 5 + put o 2 + put z 0
  | .ammin h d a b e o z => ccWord 0x90000000 h + put d 18 + put a 13 + put b 8 + put e 5 + put o 2 + put z 0
  | .fence h e o => ccWord 0x94000000 h + put e 5 + put o 2
  | .xfence h p q o => ccWord 0x98000060 h + put p 18 + put q 13 + put o 2
  | .gload h d a f => ccWord 0x9C000000 h + put d 18 + put a 13 + put f 0
  | .cfgw h a b n => ccWord 0xA0000000 h + put a 13 + put b 8 + put n 0
  | .kset h a b m => ccWord 0xA4000000 h + put a 13 + put b 8 + put m 0
  | .inj h a b => ccWord 0xA8000000 h + put a 13 + put b 8
  | .injt h a b c r => ccWord 0xAC000000 h + put a 13 + put b 8 + put c 5 + put r 0
  | .mark h a m => ccWord 0xB0000000 h + put a 13 + put m 0
  | .purge h d a => ccWord 0xB4000000 h + put d 18 + put a 13
  | .clrset h d a b => ccWord 0xB8000000 h + put d 18 + put a 13 + put b 8
  | .dlq h d a f => ccWord 0xBC000000 h + put d 18 + put a 13 + put f 0
  | .sbind h a b n => ccWord 0xC0000000 h + put a 13 + put b 8 + put n 0
  | .sbar h d a => ccWord 0xC4000000 h + put d 18 + put a 13
  | .swait h d a i => ccWord 0xC8000000 h + put d 18 + put a 13 + put i 0
  | .chstart h d a c => ccWord 0xCC000000 h + put d 18 + put a 13 + put c 0
  | .chstat h d e c => ccWord 0xD0000000 h + put d 18 + put e 4 + put c 0
  | .tbinit h a b => ccWord 0xD4000000 h + put a 13 + put b 8
  | .tbarr h a b => ccWord 0xD8000000 h + put a 13 + put b 8
  | .tbwait h d a b => ccWord 0xDC000000 h + put d 18 + put a 13 + put b 8
  | .qpushc h d a b => ccWord 0xE0000000 h + put d 18 + put a 13 + put b 8
  | .qclose h d a => ccWord 0xE4000000 h + put d 18 + put a 13
  | .tsigExit h x => ccWord 0xE8000000 h + put x 0
  | .tsigMsi h v => ccWord 0xE8000400 h + put v 0
  | .tsigWake h a t => ccWord 0xE8000800 h + put a 13 + put t 0
  | .trap h c => ccWord 0xEC000000 h + put c 0
  | .eret h => ccWord 0xEC000400 h
  | .wfe h => ccWord 0xEC000800 h
  | .yield h => ccWord 0xEC000C00 h
  | .csrr h d c => ccWord 0xF0000000 h + put d 18 + put c 0
  | .csrw h d a c => ccWord 0xF4000000 h + put d 18 + put a 13 + put c 0
  | .csrs h d a c => ccWord 0xF8000000 h + put d 18 + put a 13 + put c 0
  | .csrc h d a c => ccWord 0xFC000000 h + put d 18 + put a 13 + put c 0
  | _ => 0

/-- The 96-bit record of a node operator, from the encoding tables [11 R260 to R266]; 0 for another. -/
def encodeNode (i : Instr) : Nat :=
  match i with
  | .steer h => nodeWord 0 h (0)
  | .select h => nodeWord 1 h (0)
  | .merge h => nodeWord 2 h (0)
  | .dup h => nodeWord 3 h (0)
  | .sink h => nodeWord 4 h (0)
  | .cinc h => nodeWord 5 h (0)
  | .center h => nodeWord 6 h (0)
  | .cexit h => nodeWord 7 h (0)
  | .loopn h count => nodeWord 8 h (count.toNat)
  | .invar h => nodeWord 9 h (0)
  | .purgen h => nodeWord 10 h (0)
  | .gate h => nodeWord 11 h (0)
  | .join h => nodeWord 12 h (0)
  | .barv h bcore bar => nodeWord 13 h (put bcore 6 + put bar 0)
  | .qpop h => nodeWord 14 h (0)
  | .qtry h => nodeWord 15 h (0)
  | .eos h => nodeWord 16 h (0)
  | .sadd h imm => nodeWord 64 h (imm.toNat)
  | .ssub h imm => nodeWord 65 h (imm.toNat)
  | .smul h imm => nodeWord 66 h (imm.toNat)
  | .sand h imm => nodeWord 67 h (imm.toNat)
  | .sor h imm => nodeWord 68 h (imm.toNat)
  | .sxor h imm => nodeWord 69 h (imm.toNat)
  | .sshl h imm => nodeWord 70 h (imm.toNat)
  | .sshr h imm => nodeWord 71 h (imm.toNat)
  | .ssra h imm => nodeWord 72 h (imm.toNat)
  | .smin h imm => nodeWord 73 h (imm.toNat)
  | .smax h imm => nodeWord 74 h (imm.toNat)
  | .scmp h sel => nodeWord 75 h (sel.toNat)
  | .ssel h => nodeWord 76 h (0)
  | .sconst h imm => nodeWord 77 h (imm.toNat)
  | .skrd h sel => nodeWord 78 h (sel.toNat)
  | .sfadd h imm => nodeWord 79 h (imm.toNat)
  | .sfmul h imm => nodeWord 80 h (imm.toNat)
  | .scvt h l => nodeWord 81 h (encV l)
  | .vadd h l => nodeWord 128 h (encV l)
  | .vsub h l => nodeWord 129 h (encV l)
  | .vmul h l => nodeWord 130 h (encV l)
  | .vfma h l => nodeWord 131 h (encV l)
  | .vmax h l => nodeWord 132 h (encV l)
  | .vmin h l => nodeWord 133 h (encV l)
  | .vabs h l => nodeWord 134 h (encV l)
  | .vscl h l => nodeWord 135 h (encV l)
  | .vmov h l => nodeWord 136 h (encV l)
  | .vexp2 h l => nodeWord 137 h (encV l)
  | .vlog2 h l => nodeWord 138 h (encV l)
  | .vrcp h l => nodeWord 139 h (encV l)
  | .vrsq h l => nodeWord 140 h (encV l)
  | .vcvt h l => nodeWord 141 h (encV l)
  | .vbscale h l => nodeWord 142 h (encV l)
  | .vquant h l => nodeWord 143 h (encV l)
  | .vrowmax h l => nodeWord 144 h (encV l)
  | .vrowsum h l => nodeWord 145 h (encV l)
  | .vsmx h l => nodeWord 146 h (encV l)
  | .vsmxf h l => nodeWord 147 h (encV l)
  | .vtrans h l => nodeWord 148 h (encV l)
  | .vsel h l => nodeWord 149 h (encV l)
  | .vcmp h l => nodeWord 150 h (encV l)
  | .vclamp h l => nodeWord 151 h (encV l)
  | .vbcast h l => nodeWord 152 h (encV l)
  | .vzero h l => nodeWord 153 h (encV l)
  | .mclaim h l => nodeWord 192 h (encM l)
  | .mrel h l => nodeWord 193 h (encM l)
  | .mldb h l => nodeWord 194 h (encM l)
  | .mbcb h l => nodeWord 195 h (encM l)
  | .msel h l => nodeWord 196 h (encM l)
  | .mma h l => nodeWord 197 h (encM l)
  | .mmas h l => nodeWord 198 h (encM l)
  | .mzero h l => nodeWord 199 h (encM l)
  | .mdrn h l => nodeWord 200 h (encM l)
  | .msave h l => nodeWord 201 h (encM l)
  | .mrest h l => nodeWord 202 h (encM l)
  | .spld h l => nodeWord 256 h (encP l)
  | .spst h l => nodeWord 257 h (encP l)
  | .spw h l => nodeWord 258 h (encP l)
  | .spup h l => nodeWord 259 h (encP l)
  | .spdn h l => nodeWord 260 h (encP l)
  | .spmax h l => nodeWord 261 h (encP l)
  | .sparg h l => nodeWord 262 h (encP l)
  | .spnrm h l => nodeWord 263 h (encP l)
  | .spcvt h l => nodeWord 264 h (encP l)
  | .spzero h l => nodeWord 265 h (encP l)
  | .aload h l => nodeWord 320 h (encA l)
  | .astore h l => nodeWord 321 h (encA l)
  | .agath h l => nodeWord 322 h (encA l)
  | .ascat h l => nodeWord 323 h (encA l)
  | .acfg h l => nodeWord 324 h (encA l)
  | .aeos h l => nodeWord 325 h (encA l)
  | .wld h l => nodeWord 326 h (encA l)
  | .wst h l => nodeWord 327 h (encA l)
  | .rld h l => nodeWord 384 h (encX l)
  | .rst h l => nodeWord 385 h (encX l)
  | .ratom h l => nodeWord 386 h (encX l)
  | .rfen h => nodeWord 387 h (0)
  | .smsend h l => nodeWord 388 h (encQ l)
  | .smrecv h l => nodeWord 389 h (encQ l)
  | .claunch h coll => nodeWord 390 h (put coll 26)
  | .crecv h coll => nodeWord 391 h (put coll 26)
  | .fencex h l => nodeWord 392 h (encF l)
  | .tbarv h l => nodeWord 393 h (encT l)
  | _ => 0

/-- The control-core word or node record of an instruction; 0 for an event, which has none. -/
def encode (i : Instr) : Nat :=
  if i.bits == 32 then encodeCc i else if i.bits == 96 then encodeNode i else 0

/-- The bytes of an instruction as they lie in memory, the lowest first [00 R4; 11 R260, R268]. -/
def encodeBytes (i : Instr) : List (BitVec 8) := leBytes (i.bits / 8) (encode i)

end Sys2Proof
end

