-- ==== Sys2Proof/Config.lean ====
section
/-! DEFINITION. Config: what an implementation fixes and the spec leaves open, as constants without a body, so that
no proof can see their value.  Each is named in the assumption log. -/

namespace Sys2Proof

/-- A value the spec leaves open, one for each draw of the counter in the state (log 2). -/
opaque Config.freeValue : Nat → Word

/-- The FP32 result of VEXP2 proposed by the implementation, kept only inside the bound of [10 R246] (log 9). -/
opaque Config.exp2Result : W32 → W32

/-- The FP32 result of VLOG2 proposed by the implementation, kept only inside the bound of [13 R334] (log 9). -/
opaque Config.log2Result : W32 → W32

/-- The FP32 result of VRSQ proposed by the implementation, kept only inside the bound of [13 R334] (log 9). -/
opaque Config.rsqResult : W32 → W32

/-- Whether a signature over a message verifies under the key of the given kind [03 R67, R71, R72] (log 10). -/
opaque Config.sigOk : Nat → List Byte → List Byte → Bool

/-- The signature of a message under the device's identity key [03 R74] (log 10). -/
opaque Config.signature : List Byte → List Byte

/-- DEVID: the digest of the identity public key [03 R74, R76] (log 10). -/
opaque Config.devId : List Byte

/-- The bytes that the boot ROM measures at each boot stage [03 R73] (log 10). -/
opaque Config.bootStage : Nat → List Byte

/-- Whether a boot stage's signature verifies [03 R73] (log 10). -/
opaque Config.bootOk : Nat → Bool

/-- The capacity in bytes of the expander at a CXL port [04 R94] (log 5). -/
opaque Config.cxlCapacity : Nat → Nat

/-- The latency in ns of the expander at a CXL port [01 R28; 05 R115] (log 5). -/
opaque Config.cxlLatency : Nat → Nat

/-- Whether the expander at a CXL port supports Secure Erase [03 R66] (log 5). -/
opaque Config.cxlErase : Nat → Bool

/-- Which format of its container a tile has that a node passes on, by the bits of the container: the node's record names none
[07 R179] (log 50). -/
opaque Config.passFormat : Nat → Nat

/-- Bytes of a save area or of a report whose layout the spec does not give, by draw (log 12). -/
opaque Config.freeBytes : Nat → Nat → List Byte

end Sys2Proof
end

