-- ==== Sys2Proof/Machine/TypesCore.lean ====
section
/-! DEFINITION. The data of the state, part one: tokens, elements, control-core threads, cores and regions.
Every type is plain data. -/

namespace Sys2Proof.Machine

/-- A table of entries by number; a number that is not listed holds the table's default. -/
abbrev Table (α : Type) := List (Nat × α)

/-- A byte memory: the listed cells, addresses rising, none equal to what an unlisted address reads as (0). -/
abbrev Memory := List Host.Cell

/-- Token kinds [07 R157]. -/
inductive TokKind where
  | scalar | arow | vrow | tile | nil | eos | fault | marker | cfg | zero
deriving DecidableEq, Repr

/-- The payload of a token [07 R157]: none, 8 bytes, or the bytes of a row beat or tile. -/
inductive Payload where
  | none
  | word (w : Word)
  | bytes (b : List Byte)
deriving DecidableEq, Repr

/-- A token: the header of [07 R156] and its payload. -/
structure Token where
  kind   : TokKind
  act    : BitVec 2
  port   : BitVec 2
  node   : BitVec 12
  core   : BitVec 6
  elem   : BitVec 6
  ctx    : BitVec 12
  colour : BitVec 8
  skip   : BitVec 4
  aux    : BitVec 8
  pay    : Payload
deriving DecidableEq, Repr

/-- The arc a token travels on: from a destination of a node, or from a thread to an element [07 R167; 12 R299]. -/
inductive ArcKey where
  | node (core elem node which : Nat)
  | inject (core thr tcore telem : Nat)
deriving DecidableEq, Repr

/-- A token in flight on an arc, with the core that sent it, whether its wait for a full talon has been reported, whether its flits have
entered the first link of its path, and the links that it has left behind [07 R167, R168; 12 R301]. -/
structure Flight where
  arc    : ArcKey
  sender : Nat
  tok    : Token
  told   : Bool := false
  entered : Bool := false
  hop    : Nat := 0
deriving DecidableEq, Repr

/-- Where a token is held at its element [07 R166, R168]. -/
inductive Place where
  | widow | general | refill
deriving DecidableEq, Repr

/-- Where the payload of a token lies [06 R133; 14 R343]: nowhere but its pool entry, at an ME a beat position or a tile landing slot
(true for the place reserved for the lead colour), at a VE, SE or XE an offset in the scratchpad. -/
inductive Landing where
  | none
  | beat (pos : Nat)
  | slot (lead : Bool)
  | pad (off : Nat)
deriving DecidableEq, Repr

/-- A token held in a pool entry. -/
structure Held where
  tok   : Token
  place : Place
  land  : Landing
deriving DecidableEq, Repr

/-- A virtual zero waiting at a port [07 R180]. -/
structure VZero where
  node   : Nat
  port   : BitVec 2
  ctx    : BitVec 12
  colour : BitVec 8
deriving DecidableEq, Repr

/-- A pending constant write [06 R142]. -/
structure PendK where
  k : BitVec 4
  v : W32
  m : BitVec 8
deriving DecidableEq, Repr

/-- The colour that a MERGE node expects next for a context [07 R178]. -/
structure MergeExp where
  node   : Nat
  ctx    : BitVec 12
  colour : BitVec 8
deriving DecidableEq, Repr

/-- An activation of a LOOPN node [13 R324]. -/
structure LoopAct where
  node : Nat
  ctx  : BitVec 12
  k    : BitVec 8
  i    : Nat
  n    : Nat
  v    : Word
deriving DecidableEq, Repr

/-- A pending-skip entry of an arc [07 R179]. -/
structure Skip where
  node  : Nat
  which : Nat
  ctx   : BitVec 12
  last  : BitVec 8
  cnt   : Nat
deriving DecidableEq, Repr

/-- A CFGW that waits at an element [06 R141]. -/
structure CfgWait where
  core : Nat
  thr  : Nat
  n    : BitVec 4
  v    : W32
deriving DecidableEq, Repr

/-- The firing arbiter's state [07 R162]: current node, its firings in a row, YLD of its last firing, the clk in which that started. -/
structure Arb where
  cur : Nat
  run : Nat
  yld : Bool
  at_ : Option Nat := none
deriving DecidableEq, Repr

/-- One accumulator row of an ME [14 R351]: 64 words, its owner, and the row flags FOVF FNAN BSNAN IOVF. -/
structure AccRow where
  w     : Table W32
  owner : Option (BitVec 12)
  flags : BitVec 4
deriving DecidableEq, Repr

/-- One operand slot of an ME [14 R343 to R345]. -/
structure OpSlot where
  bytes : Memory
  claim : Bool
  zero  : Bool
deriving DecidableEq, Repr

/-- The matrix element's own state [14 R343 to R351]. -/
structure MeSt where
  slots : Table OpSlot
  selB  : BitVec 7
  selT  : BitVec 7
  acc   : Table AccRow
deriving DecidableEq, Repr

/-- The softmax state of one row [13 R339]: m, sigma, n and q as FP32. -/
structure SmxRow where
  m  : W32
  sg : W32
  n  : W32
  q  : W32
deriving DecidableEq, Repr

/-- A layout word waiting in the layout queue [08 R186]: from a CFG token (with its tag and the node's
destinations) or from SBIND. -/
structure LayoutWord where
  num : BitVec 8
  v   : Word
  tag : Option (BitVec 12 × BitVec 8)
  node : Nat
deriving DecidableEq, Repr

/-- The layout words LW0 to LW4 [08 R184]. -/
structure Layout where
  lw0 : Word
  lw1 : Word
  lw2 : Word
  lw3 : Word
  lw4 : Word
deriving DecidableEq, Repr

/-- What an AE access does [15 R372 to R375]. -/
inductive AccKind where
  | aload (opm : BitVec 2)
  | astore
  | agath (opm : BitVec 2)
  | ascat
  | wld (opm : BitVec 2)
  | wst (opm : BitVec 2)
  | noop
  /-- A stream boundary; 0 emits nothing, 1 an EOS, 2 a SCALAR of SBC [08 R186; 15 R377]. -/
  | boundary (emits : Nat)
deriving DecidableEq, Repr

/-- A begun memory firing of an AE: its node, tag and operands, whether it waited at the range scoreboard, and, once it has
taken its pieces, their parts as offset, address and length [15 R372; 08 R204]. -/
structure Access where
  kind   : AccKind
  node   : Nat
  ctx    : BitVec 12
  colour : BitVec 8
  a      : Word
  data   : List Byte
  own    : BitVec 10
  pred   : BitVec 10
  succ   : BitVec 10
  num    : Nat
  waited : Bool
  parts  : List (Nat × Word × Nat) := []
deriving DecidableEq, Repr

/-- The wave of one context and colour at an AE: its last released firing, or ended [08 R188, R189]. -/
structure Wave where
  ctx    : BitVec 12
  colour : BitVec 8
  own    : BitVec 10
  succ   : BitVec 10
  ended  : Bool
deriving DecidableEq, Repr

/-- The address generator's own state [08 R184 to R191; 12 R304]. -/
structure AeSt where
  lay     : Layout
  queue   : List LayoutWord
  pos     : Nat
  sbc     : BitVec 16
  atBound : Bool
  waiting : List Access
  ready   : List Access
  waves   : List Wave
  seq     : BitVec 16
deriving DecidableEq, Repr

/-- A meld send stream of an XE [02 R47; 15 R385, R386]: the packet buffer holds entries (index, value), `wait` the framed packets
that wait for credit; `placing` is a firing whose last entry is not placed: its node, tag and entry count. -/
structure SendStream where
  red    : BitVec 16
  lin    : BitVec 5
  vt     : BitVec 1
  buf    : List (W32 × W32)
  wait   : List (List Byte)
  placing : Option (Nat × BitVec 12 × BitVec 8 × Nat)
  pseq   : BitVec 16
  failed : Option Nat
  unacked : Nat
  ending : Option (Nat × BitVec 12 × BitVec 8)
  orphan : Bool
deriving DecidableEq, Repr

/-- The colour of a firing of a send stream that has not ended: one that ends the stream, or one whose last entry is not placed. -/
def SendStream.busy (y : SendStream) : Option (BitVec 8) :=
  match y.ending, y.placing with
  | some (_, _, k), _ => some k
  | none, some (_, _, k, _) => some k
  | none, none => none

/-- Whether a send stream has no credit for a packet [02 R47; 15 R385]. -/
def SendStream.full (y : SendStream) : Bool := !y.wait.isEmpty || 8 ≤ y.unacked

/-- A meld receive stream of an XE [15 R387]. -/
structure RecvStream where
  red  : BitVec 16
  pseq : BitVec 16
deriving DecidableEq, Repr

/-- What an exchange firing that waits does [15 R378 to R389; 13 R328]. -/
inductive XKind where
  | rld (xop : BitVec 4)
  | rst (xop : BitVec 4)
  | ratom (xop : BitVec 4) (sem : BitVec 2)
  | rfen
  | smrecv (red : BitVec 16) (vt : BitVec 1)
  | claunch (coll : BitVec 6)
  | crecv (coll : BitVec 6)
  | qpop
  | fencex (spath dpath scope : BitVec 3)
  | tbarv (buf : BitVec 2) (off : BitVec 19)
deriving DecidableEq, Repr

/-- An exchange operation that has begun and has not emitted [15 R371, R381, R382]: `num` is its place in firing
order, `op` the memory operation that carries it once it has issued. -/
structure XOp where
  num    : Nat
  kind   : XKind
  node   : Nat
  ctx    : BitVec 12
  colour : BitVec 8
  addr   : Word
  data   : List Byte
  tok    : Token
  op     : Option Nat
  orphan : Bool
deriving DecidableEq, Repr

/-- The exchange element's own state [15 R381 to R389]. -/
structure XeSt where
  sends : List SendStream
  recvs : List RecvStream
  ops   : List XOp
  num   : Nat
deriving DecidableEq, Repr

/-- A BARV operand held until the barrier's release; `counted` says that the barrier unit has counted its arrival [09 R222; 13 R327]. -/
structure BarHeld where
  node  : Nat
  bcore : Nat
  bar   : Nat
  phase : BitVec 4
  tok   : Token
  orphan : Bool
  counted : Bool := false
deriving DecidableEq, Repr

/-- An element of a core [06 R132 to R143]; `barOver` lists the barriers (64 times the core, plus the number) at which an arrival of it took the
BAROVER branch [09 R222]. -/
structure Elem where
  used    : Bool
  nrec    : Nat
  npool   : Nat
  nslot   : Nat
  nser    : Nat
  recs    : Table (BitVec 96)
  ecw     : Table W32
  k       : Table W32
  estat   : W32
  pendK   : List PendK
  markers : List Flight
  pool    : List Held
  vzeros  : List VZero
  merges  : List MergeExp
  loops   : List LoopAct
  skips   : List Skip
  cfgWait : List CfgWait
  phases  : Table (BitVec 4)
  barv    : List BarHeld
  barOver : List Nat := []
  lead    : BitVec 8
  arb     : Arb
  me      : MeSt
  smx     : Table SmxRow
  gen     : W32
  se      : Table W32
  shapes  : Memory
  ae      : AeSt
  xe      : XeSt
deriving DecidableEq, Repr

/-- Why a thread is in BLOCK [06 R151; 12 R314]. -/
inductive Wait where
  /-- Waits on a condition outside the thread, with the operands read at issue (of RA, RB and RD); the unit that it
  waits for looks at it again. -/
  | retry (a b d : Word)
  /-- The unit has acted; the answer reaches the thread. -/
  | answer
  /-- Until the given clk of the core. -/
  | till (clk : Nat)
  /-- A memory operation in progress. -/
  | op (id : Nat)
  /-- A CFGW that waits at its element. -/
  | cfgw
  /-- A push that waits in the queue unit. -/
  | queue
deriving DecidableEq, Repr

/-- Thread states [06 R151]; `wfe true` is the wait of region start [12 R311]. -/
inductive ThState where
  | run
  | wfe (start : Bool)
  | block (w : Wait)
  | halt
deriving DecidableEq, Repr

/-- A register write not yet readable [06 R153]. -/
structure RegPend where
  ready : Nat
  reg   : BitVec 5
  v     : Word
deriving DecidableEq, Repr

/-- A CSR write that does not yet govern [12 R313]. -/
structure CsrPend where
  ready : Nat
  num   : BitVec 12
  v     : Word
deriving DecidableEq, Repr

/-- A control-core thread [06 R151 to R155]. -/
structure Thread where
  pc      : Word
  regs    : Table Word
  pend    : List RegPend
  csrPend : List CsrPend
  st      : ThState
  event   : Bool
  next    : Nat
  ie      : Bool
  inh     : Bool
  tvec    : Word
  epc     : Word
  cause   : BitVec 8
  tval    : Word
  scratch : Word
  lcnt    : Word
  lbeg    : Word
  lend    : Word
deriving DecidableEq, Repr

/-- A BARV arrival on its way to a barrier unit [09 R222]. -/
structure Arrival where
  ecore  : Nat
  elem   : Nat
  node   : Nat
  bar    : Nat
  phase  : BitVec 4
  ctx    : BitVec 12
  colour : BitVec 8
deriving DecidableEq, Repr

/-- A release on its way to an element, with the barrier's SCOPE and the cores of the arrivals that it counted [09 R221, R222]. -/
structure BarRelease where
  ecore : Nat
  elem  : Nat
  bar   : Nat
  phase : BitVec 4
  scope : BitVec 2 := 2
  from_ : List Nat := []
deriving DecidableEq, Repr

/-- A barrier word [09 R221] with its phase and arrivals. -/
structure Barrier where
  exp   : BitVec 20
  scope : BitVec 2
  phase : BitVec 4
  arr   : BitVec 20
deriving DecidableEq, Repr

/-- A transfer record as the engine read it [08 R196]. -/
structure XferRec where
  addr : Word
  next : Word
  ctl  : Byte
  ssp  : Byte
  dsp  : Byte
  len  : Nat
  src  : Word
  dst  : Word
  e1   : Nat
  e2   : Nat
  ss1  : W32
  ss2  : W32
  ds1  : W32
  ds2  : W32
  tbar : Word
deriving DecidableEq, Repr

/-- A record owned by the engine with its progress [08 R195, R199]: the run and sector that come next, the sectors in
flight, the sectors whose bytes are read (destination and bytes), and the error that ended it. -/
structure OwnedRec where
  num     : Nat
  xr      : XferRec
  started : Bool
  run     : Nat
  sec     : Nat
  flying  : Nat
  ready   : List (Word × List Byte)
  err     : Nat
deriving DecidableEq, Repr

/-- States of a copy channel [08 R200]. -/
inductive ChState where
  | idle | walk | drain | err
deriving DecidableEq, Repr

/-- A copy channel [08 R195, R200]. -/
structure Chan where
  st    : ChState
  head  : Word
  done  : W32
  errc  : BitVec 4
  recs  : List OwnedRec
  num   : Nat
  reading : Bool
deriving DecidableEq, Repr

/-- A spilled token in the talon [07 R168]: its first granule and length in granules, and, on its way back, the places kept for it. -/
structure Spilled where
  tok     : Token
  granule : Nat
  len     : Nat
  back    : Place := .general
  land    : Landing := .none
deriving DecidableEq, Repr

/-- A pending MBCB [06 R148; 14 R349]: the issuing ME, slot, payload (none for a virtual zero), tag and node. -/
structure Mbcb where
  elem   : Nat
  slot   : BitVec 7
  pay    : Option (List Byte)
  node   : Nat
  ctx    : BitVec 12
  colour : BitVec 8
  orphan : Bool
deriving DecidableEq, Repr

/-- A core of a region [06; 07 R164]. -/
structure Core where
  die     : Nat
  pos     : Nat
  bufW    : Memory
  bufA    : Memory
  bufC    : Memory
  code    : Memory
  codeLen : Nat
  thr     : Table Thread
  cur     : Nat
  cnt     : Nat
  clk     : Nat
  ccfg    : BitVec 2
  evpend  : BitVec 4
  evval   : Table Word
  counts  : Table Int
  changed : List (BitVec 8)
  bars    : Table Barrier
  arrs    : List Arrival
  rels    : List BarRelease
  chans   : Table Chan
  talon   : List Spilled
  refetch : List Spilled
  mbcb    : List Mbcb
  elems   : Table Elem
deriving DecidableEq, Repr

/-- An admitted colour with its owning context [07 R163]. -/
structure Owner where
  colour : BitVec 8
  ctx    : BitVec 12
deriving DecidableEq, Repr

/-- A region: the image running in a slot [06; 07; 05 R108].  `done` are finished colours that have not retired, `purged`
the live colours that a PURGE has ended, `kHeld` the detection time that stands until the idle count next restarts, `tdm` the
time-division slots of the memory streams of a DET region by memory edge [05 R130], `halting` says that a FREEZE has stopped its arbiters and channels, while its
control cores run on [05 R118], `now` the clk of the present time since the entry into
RUN, `injq` the threads (core, number) whose injections wait for the admission of NEXT, in order of arrival [06 R154; 12 R299]. -/
structure Region where
  ten     : Nat
  ncore   : Nat
  l       : Nat
  det     : Bool
  tdm     : List (Nat × Nat × Nat) := []
  sfree   : Bool
  basek   : Word
  savek   : Word
  ctx     : W32
  img     : W32
  wcl     : Nat
  cores   : Table Core
  lead    : BitVec 8
  next    : BitVec 8
  owners  : List Owner
  done    : List (BitVec 8)
  purged  : List (BitVec 8)
  snap    : List (BitVec 8 × Int)
  flight  : List Flight
  idleAt  : Nat
  fired   : Bool
  kHeld   : Option Nat
  started : Nat
  now     : Nat := 0
  injq    : List (Nat × Nat) := []
  exit    : Option (Nat × Nat × BitVec 3)
  draining : Bool
  halting : Bool := false
  running : Bool
deriving DecidableEq, Repr

/-- Whether the firing arbiters and copy channels of a region act [03 R70; 05 R118]. -/
def Region.acts (r : Region) : Bool := r.running && !r.halting

end Sys2Proof.Machine
end

