-- ==== Sys2Proof/Machine/TypesMem.lean ====
section
/-! DEFINITION. The data of the state, part two: memories, requests and replies, translation, operations in progress. -/

namespace Sys2Proof.Machine

/-- A requester stream [01 R19; 08 R192]. -/
inductive Stream where
  | ae (slot core elem : Nat)
  | xe (slot core elem : Nat)
  | gather (edge : Nat)
  | copy (slot core ch : Nat)
  | cc (slot core : Nat)
  | talon (slot core : Nat)
  | operand (slot core elem : Nat)
  | config (edge : Nat)
  /-- The collective sequencer for a collective of a tenant. -/
  | coll (ten num : Nat)
  /-- A unit of h that reaches a peer: the host window of a function, or (100 and above) the walker of a tenant. -/
  | unit (n : Nat)
deriving DecidableEq, Repr

/-- The memory that a translated access reaches [04 R94]: an HBM stack (n0 to n7 are 0 to 7, f0 to f7 are 8 to 15),
an expander, host memory through a function, or a peer device. -/
inductive Loc where
  | hbm (stack off : Nat)
  | cxl (port off : Nat)
  | host (fn addr : Nat)
  | peer (dev : BitVec 8) (va : Word)
deriving DecidableEq, Repr

/-- Where a request goes [01 R19]: a base die (near stack and the far stack behind it), a CXL port, the host port, a peer. -/
inductive Target where
  | base (n : Nat)
  | cxl (port : Nat)
  | host (fn : Nat)
  | peer (dev : BitVec 8)
deriving DecidableEq, Repr

/-- A fault as a record tells it [04 R99, R100]; `mem` says that a memory or the way to it gave it, not translation. -/
structure FaultInfo where
  cls   : Nat
  va    : Word
  acc   : Nat
  info1 : Word
  info2 : Word
  mem   : Bool := false
deriving DecidableEq, Repr

/-- The read-modify-write of an atomic [12 R288; 15 R380]. -/
inductive AtomOp where
  | add | swap | cas (cmp : Word) | max | min | fadd | fmax | and | or
deriving DecidableEq, Repr

/-- What an operation does. -/
inductive OpKind where
  | read
  | write
  | atomic (o : AtomOp)
deriving DecidableEq, Repr

/-- How the data of an operation becomes tokens [15 R373 to R380]. -/
inductive ReplyKind where
  /-- One TILE. -/
  | tile
  /-- ROWS AROW tokens, or VROW tokens. -/
  | rows (vrow : Bool)
  /-- A SCALAR of the bytes read, zero-extended. -/
  | scalar
  /-- One AROW or VROW with its row index and LAST. -/
  | oneRow (vrow : Bool) (aux : BitVec 8)
  /-- A completion token with the byte count. -/
  | complete (n : Nat)
  /-- RLD: data to DST0, a completion token to DST1. -/
  | rld (xop : BitVec 4)
  /-- RATOM: old to DST0, a completion token to DST1. -/
  | ratom (n : Nat)
  /-- MSAVE: a SCALAR of the address. -/
  | msave
  /-- MREST: writes the slot, then a SCALAR of the address. -/
  | mrest (slot : BitVec 7)
deriving DecidableEq, Repr

/-- On whose behalf an operation runs, and what its end does. -/
inductive Who where
  | ccLoad (slot core thr : Nat) (rd : BitVec 5) (sx : Bool)
  | ccStore (slot core thr : Nat)
  | ccAtomic (slot core thr : Nat) (rd : BitVec 5)
  | fire (slot core elem node : Nat) (ctx : BitVec 12) (colour : BitVec 8) (k : ReplyKind) (num : Nat)
  | copyRec (slot core ch : Nat)
  | copySrc (slot core ch num : Nat) (dst : Word)
  | copyDst (slot core ch num : Nat)
  | copyCtl (slot core ch : Nat)
  | spill (slot core granule : Nat)
  | refetch (slot core granule : Nat)
  /-- Bytes that a load reads for a core: of `len` bytes of the image from `off`, those from `pos` on. -/
  | load (slot core off len pos : Nat)
  /-- The same, staged for a core at a place of a die. -/
  | stage (die place : Nat) (img : W32) (core off len pos : Nat)
  /-- A read of a tenant's walker. -/
  | walk (ten num : Nat)
  /-- An access through the host window of a function. -/
  | bar2 (vf : Nat)
  /-- An operand or a result of a command. -/
  | cmd (run : Nat)
deriving DecidableEq, Repr

/-- The progress of one part of an operation: a piece that crosses no page and no 2 KiB boundary [08 R185]. -/
inductive PartSt where
  | fresh
  | walking
  | ready (l : Loc) (ord : Bool)
  | sent (n : Nat) (ord : Bool)
  | done
  | bad (f : FaultInfo)
deriving DecidableEq, Repr

/-- One part: its place in the operation's bytes, its virtual address and length. -/
structure Part where
  off : Nat
  va  : Word
  n   : Nat
  st  : PartSt
deriving DecidableEq, Repr

/-- A memory operation in progress: its data, what it has read, its parts, the apertures that its engine can use (bit
`i` for APER `i`), whether it needs PA or is a read of an image, its piece size, the time it began and the time its first part issued. -/
structure Op where
  id     : Nat
  who    : Who
  stream : Stream
  ten    : Nat
  kind   : OpKind
  data   : List Byte
  got    : Memory
  parts  : List Part
  apers  : Nat
  pa     : Bool
  graph  : Bool := false
  psz    : Nat
  orphan : Bool
  late   : Bool
  flags  : BitVec 2
  began  : Nat
  entered : Nat := 0
deriving DecidableEq, Repr

/-- What a request serves: bytes `off` to `off + take - 1` of an operation, found from byte `skip` of its data. -/
structure Serve where
  op   : Nat
  off  : Nat
  skip : Nat
  take : Nat
deriving DecidableEq, Repr

/-- A release as a reader of its writes learns it: the releasing core, its scope, the numbered writes that happen before it [09 R212]. -/
structure Rel where
  slot  : Nat
  core  : Nat
  scope : Nat
  ids   : List Nat
deriving DecidableEq, Repr

/-- A byte held in the staging of a unit [09 R207]: of a requester stream and, for the control core, of a thread; `since` are the numbered
writes and fences since it was filled, `ids` and `rels` what its own writes carry [09 R212, R214, R215], and `bad` that the granule read UE
[18 R401]. -/
structure StageByte where
  unit  : Stream
  thr   : Nat
  space : Nat
  addr  : Nat
  val   : Byte
  since : List Nat
  ids   : List Nat
  rels  : List Rel
  bad   : Bool := false
deriving DecidableEq, Repr

/-- What the last writes of path CC to a byte carry: their numbers and the releases before them; `site` is the core of a buffer's byte
[09 R212, R218]. -/
structure Msg where
  site  : Option (Nat × Nat)
  space : Nat
  addr  : Nat
  ids   : List Nat
  rels  : List Rel
deriving DecidableEq, Repr

/-- What a control-core thread (slot, core, thread) knows: the writes that happen before its next release, the releases whose writes it
has read, its own release fences, the semantics and scope of its atomic in progress [09 R211 to R218]. -/
structure View where
  thr  : Nat × Nat × Nat
  seen : List Nat
  got  : List Rel
  rels : List Rel
  sem  : Option (BitVec 3 × Nat)
deriving DecidableEq, Repr

/-- A request in flight: the header of [01 R20] with the data of a write, the atomic it stands for
[12 R289], its tenant, the operations it serves, the edge it left and when; `off` and `got` are how far the 64-byte requests of a CXL
port have come, and what they have read [01 R28]. -/
structure Req where
  id     : Nat
  stream : Stream
  target : Target
  rsv    : Bool
  tag    : BitVec 3
  gen    : BitVec 4
  kind   : BitVec 4
  mask   : W32
  len    : BitVec 6
  far    : Bool
  addr   : Nat
  data   : List Byte
  atom   : Option (AtomOp × Nat × Nat × Word)
  ten    : Nat := 0
  serves : List Serve
  at_    : Nat
  edge   : Nat := 0
  off    : Nat := 0
  got    : List Byte := []
  due    : Option Nat := none
deriving DecidableEq, Repr

/-- A reply in flight [01 R21], with the request it answers. -/
structure Rep where
  req    : Req
  status : BitVec 4
  data   : List Byte
  flags  : BitVec 2
deriving DecidableEq, Repr

/-- One tag of a stream at a target [01 R19; 08 R193]: its generation, the request it holds, and the generations
under which it timed out with the times. -/
structure Tag where
  stream : Stream
  target : Target
  tag    : BitVec 3
  gen    : BitVec 4
  busy   : Option Req
  old    : List (BitVec 4 × Nat)
deriving DecidableEq, Repr

/-- A cached translation [04 R97]. -/
structure TlbEnt where
  ten   : Nat
  base  : Nat
  bits  : Nat
  entry : Word
  level : Nat
deriving DecidableEq, Repr

/-- A cached pointer entry [04 R97]. -/
structure WalkEnt where
  ten   : Nat
  level : Nat
  key   : Nat
  next  : Nat
deriving DecidableEq, Repr

/-- A walk in progress [04 R97]: its tenant, VA bits 47:16, the level it reads next and that table's address. -/
structure PageWalk where
  ten   : Nat
  page  : Nat
  level : Nat
  table : Nat
deriving DecidableEq, Repr

/-- A miss waiting in the queue of a translation unit [04 R97]. -/
structure Miss where
  ten  : Nat
  page : Nat
deriving DecidableEq, Repr

/-- One translation unit [04 R97]. -/
structure Xunit where
  tlb    : List TlbEnt
  cache  : List WalkEnt
  walks  : List PageWalk
  misses : List Miss
deriving DecidableEq, Repr

/-- A part of an element request of the gather unit [08 R190]: the AE that sent it, its sequence number, its operation with the
bytes of it, where it reaches, whether it stores, and the turn of its AE in which it may enter [05 R130]. -/
structure GathReq where
  slot  : Nat
  core  : Nat
  elem  : Nat
  seq   : BitVec 16
  op    : Nat
  off   : Nat
  n     : Nat
  loc   : Loc
  store : Bool
  due   : Nat := 0
deriving DecidableEq, Repr

/-- An open gather row [08 R190]: its requests in order of arrival, the requests that have entered the unit since it
opened, and the time it opened. -/
structure GathRow where
  row    : Loc
  reqs   : List GathReq
  seen   : Nat
  opened : Nat
deriving DecidableEq, Repr

/-- The gather unit of a memory edge [08 R190]. -/
structure Gather where
  inq  : List GathReq
  rows : List GathRow
deriving DecidableEq, Repr

/-- HSTAT of a stack [01 R26]. -/
structure Hstat where
  carep : BitVec 16
  cecnt : BitVec 16
  uecnt : BitVec 8
  retrn : BitVec 8
deriving DecidableEq, Repr

/-- A channel of a near stack [01 R25]: consecutive failed replays, retraining in progress. -/
structure DramChan where
  fails : Nat
  train : Bool
deriving DecidableEq, Repr

/-- The memory system; `scs` holds, by scope and instance, the writes before the last sc operation [09 R217]. -/
structure MemSys where
  hbm    : Table Memory
  cxl    : Table Memory
  host   : Memory
  ce     : List (Nat × Nat)
  ue     : List (Nat × Nat)
  hstat  : Table Hstat
  hoffl  : Table W32
  farBad : List Nat
  chans  : List (Nat × DramChan)
  late   : Table W32
  tmo    : Table W32
  tags   : List Tag
  queue  : List Req
  reqs   : List Req
  reps   : List Rep
  ops    : List Op
  units  : Table Xunit
  gather : Table Gather
  stage  : List StageByte
  msgs   : List Msg
  views  : List View
  scs    : List ((Nat × Nat) × List Nat)
  nextWrite : Nat
  winDue : Option Nat := none
  hostBad : List (Nat × Nat) := []
deriving DecidableEq, Repr

end Sys2Proof.Machine
end

