-- ==== Sys2Proof/Machine/TypesHost.lean ====
section
/-! DEFINITION. The data of the state, part three: management registers, host functions and queues, slots, walkers. -/

namespace Sys2Proof.Machine

/-- A device-wide reset in progress: none; the fuses of a life-cycle change are blown and its reset follows; a warm reset waits for the
Secure Erase of expanders, from a time on [03 R63, R66, R72]. -/
inductive ResetStage where
  | none
  | fused
  | warmErase (ports : List Nat) (began : Nat)
deriving DecidableEq, Repr

/-- A sealed window with the signature of its entry [03 R67]. -/
structure SealWin where
  base : Nat
  len  : Nat
  ten  : Nat
  dig  : List Byte
  sig  : List Byte
deriving DecidableEq, Repr

/-- The device management registers and the device's own state [01; 02; 03; 04 R80].  `bounds` are the modules missing at each degraded
die-to-die boundary (0 to 3 die to h, 4 to 7 the ring) and `repair` the repair map of the boundaries [01 R11]; `thrLog` holds the die, entry
or exit, and the cause of each throttle change: bit 0 temperature, bit 1 power [01 R13]; `nacks` counts sideband transactions that were
NACKed [03 R76]. -/
structure Mgmt where
  slot     : BitVec 8
  ten      : BitVec 4
  cause    : BitVec 3
  sealFail : Bool
  degr     : Bool
  lcs      : BitVec 3
  dlkK     : BitVec 5
  trimap   : W32
  dx       : BitVec 4
  dy       : BitVec 4
  x        : BitVec 4
  y        : BitVec 4
  tccfg    : W32
  vwK      : BitVec 5
  vwNext   : Option (BitVec 5 × Nat)
  vwLate   : W32
  sync     : Bool
  offs     : BitVec 16
  csel     : Table Word
  chold    : W32
  ctmo     : W32
  cstale   : W32
  kq       : Table (BitVec 15)
  ptroot   : Table Word
  twin     : Table Word
  plimit   : BitVec 16
  power    : BitVec 16
  temps    : Table Int
  bounds   : Table Nat
  repair   : Table Nat
  throttle : List Nat
  thrLog   : List (Nat × Bool × Nat)
  nacks    : Nat
  meas     : Table (List Byte)
  ilog     : Table (List Byte)
  wrcnt    : Word
  seals    : List SealWin
  wipe     : Bool
  slq      : List (Nat × Nat × Nat)
  slqOvf   : Bool
  slcmd    : BitVec 8
  powered  : Bool
  held     : Bool
  stage    : ResetStage
deriving DecidableEq, Repr

/-- A command that has started and not completed [04 R83, R84]: its entry, the head after it was read, whether its work waits on
something later, and, of a rack launch, whether it asks for a report and where its packet came from
[04 R88]. -/
structure Run where
  id     : Nat
  fn     : Nat
  q      : Nat
  ent    : List Byte
  sqhead : Nat
  stage  : Nat
  rack   : Option (Bool × RackSrc)
  input  : Option (List Byte) := none
  bad    : Option FaultInfo := none
  wrote  : Bool := false
deriving DecidableEq, Repr

/-- A completion that waits for room in its completion ring [04 R83, R86]: the entry of its command, status, submission head and result. -/
structure Cpl where
  ent    : List Byte
  status : Nat
  sqhead : Nat
  result : Word
deriving DecidableEq, Repr

/-- A command queue of a function [04 R81 to R83, R88]: `fetched` is an entry that has been read and waits to start, `posts` the completions
that wait for room. -/
structure Queue where
  base   : Word
  cqbase : Word
  en     : Bool
  qerr   : Bool
  src    : Bool
  ien    : Bool
  csz    : BitVec 4
  ssz    : BitVec 4
  head   : Nat
  tail   : Nat
  cqhead : Nat
  cqtail : Nat
  phase  : Bool
  lseq   : Option W32
  rack   : List (Bool × RackSrc)
  fetched : Option Run := none
  posts  : List Cpl := []
deriving DecidableEq, Repr

/-- A function: PF0 is 0, VFn is n [04 R78, R81].  `reset` says that its tenant's reset runs, `closing` that its regions are reset first
[03 R69]. -/
structure Fn where
  enabled : Bool
  reset   : Bool
  closing : Bool := false
  frbase  : Word
  fren    : Bool
  frsize  : BitVec 4
  frhead  : W32
  frtail  : W32
  frlost  : W32
  frfull  : Bool
  lost    : Bool
  seq     : W32
  rackck  : Word
  hwin    : Word
  queues  : Table Queue
deriving DecidableEq, Repr

/-- An element's descriptor of an image [05 R110, R112]. -/
structure ElemDesc where
  used  : Bool
  nrec  : Nat
  npool : Nat
  nslot : Nat
  nser  : Nat
  coff  : Nat
  roff  : Nat
deriving DecidableEq, Repr

/-- A section of an image [11 R258]. -/
structure Section where
  kind : Nat
  elem : Nat
  zero : Bool
  doff : Nat
  soff : Nat
  len  : Nat
deriving DecidableEq, Repr

/-- A core's part of a registered image [05 R113; 11 R258]. -/
structure ImgCore where
  elems   : Table ElemDesc
  secs    : List Section
  codeLen : Nat
  codeOff : Nat
deriving DecidableEq, Repr

/-- A registered image [05 R110, R111, R113]. -/
structure Image where
  ten    : Nat
  va     : Word
  len    : Nat
  ncore  : Nat
  flg    : Byte
  nent   : Nat
  ents   : List Nat
  wcl    : Nat
  lcap   : Nat
  gran   : Nat
  cores  : Table ImgCore
  digest : List Byte
deriving DecidableEq, Repr

/-- A frozen region, and which draw gave the bytes of its save area [05 R118] (log 12). -/
structure Saved where
  region : Region
  draw   : Nat
deriving DecidableEq, Repr

/-- What the last accepted load read of a bind record: a later write to the record does not change it [05 R105]. -/
structure BindRec where
  ten    : BitVec 8
  ncore  : BitVec 8
  l      : BitVec 8
  ctx    : BitVec 16
  img    : W32
  entry  : W32
  basek  : Word
  savek  : Word
  cmap   : Table Byte
deriving DecidableEq, Repr

/-- Bytes of an image that the configuration reader has read for a region core: of the range of `len` bytes from `off`, those from `pos`
on [05 R113, R115]. -/
structure Piece where
  core : Nat
  off  : Nat
  len  : Nat
  pos  : Nat
  b    : List Byte
deriving DecidableEq, Repr

/-- A load in progress: what has been read, and the first read that failed [05 R106, R115; 08 R193]. -/
structure Load where
  got : List Piece
  err : Option FaultInfo
deriving DecidableEq, Repr

/-- A region reset in progress: when it began, and whether it is part of a tenant reset [03 R69, R70]. -/
structure Clearing where
  began  : Nat
  tenant : Bool
deriving DecidableEq, Repr

/-- A slot: its bind record of 128 bytes as fields [05 R104], the region, its load or reset in progress, and
whether a freeze has sent its HOLDs [05 R118]. -/
structure Slot where
  st     : BitVec 8
  held   : Option BindRec
  ten    : BitVec 8
  ncore  : BitVec 8
  l      : BitVec 8
  prio   : BitVec 8
  phase  : BitVec 8
  ctx    : BitVec 16
  img    : W32
  entry  : W32
  basek  : Word
  savek  : Word
  flg    : BitVec 8
  acct   : Word
  lastst : BitVec 16
  tdrn   : BitVec 16
  tload  : BitVec 16
  cmap   : Table Byte
  raw    : Table Byte
  region : Option Region
  saved  : Option Saved
  load   : Option Load := none
  reset  : Option Clearing := none
  holdSent : Bool := false
  task   : Option (Nat × Nat)
  run    : Option Nat
deriving DecidableEq, Repr

/-- A task node that has become eligible: its index, its 64 bytes as the walker read them, the condition word of a COND or WHILE, and the
task and exit from which it was reached [05 R121, R123, R124]. -/
structure Elig where
  node : Nat
  ent  : List Byte
  w    : Word
  src  : Option (Nat × Nat)
deriving DecidableEq, Repr

/-- A task that a walker has dispatched: its node, the bytes of the node, its slot [05 R121, R122]. -/
structure TaskRun where
  node : Nat
  ent  : List Byte
  slot : Nat
deriving DecidableEq, Repr

/-- A walk of a task graph [05 R121, R122]: arrivals since each node last ran, body entries of each WHILE, the code and node of a failure and
whether it has its record, the command. -/
structure GraphWalk where
  active : Bool
  addr   : Word
  arrive : Table Nat
  iters  : Table Nat
  elig   : List Elig
  tasks  : List TaskRun
  failed : Option (Nat × Nat × Bool)
  cmd    : Nat
deriving DecidableEq, Repr

/-- An entry of a predictor: tenant, node, exit, the TASK that followed [05 R124]. -/
structure Predict where
  ten  : Nat
  node : Nat
  exit : Nat
  next : Nat
deriving DecidableEq, Repr

/-- An operation that waits in the queue unit [05 R126]. -/
structure QWait where
  push : Bool
  slot : Nat
  core : Nat
  unit : Nat
  num  : Nat
  va   : Word
  item : List Byte
deriving DecidableEq, Repr

/-- The configuration staging buffer of a core: the bytes of an image that lie in the top 2 MiB of its W buffer [05 R124; 06 R145]. -/
structure Staged where
  die    : Nat
  pos    : Nat
  img    : W32
  pieces : List Piece
deriving DecidableEq, Repr

/-- A read of a walker that reaches a peer's memory, by its number: for a node, or (with the bytes of the node) for its condition word; and its answer
[05 R121, R123; 08 R182]. -/
structure WalkRead where
  ten  : Nat
  num  : Nat
  node : Nat
  ent  : Option (List Byte)
  src  : Option (Nat × Nat)
  data : Option (List Byte)
  bad  : Option FaultInfo
deriving DecidableEq, Repr

/-- The walkers, the predictor, the staging buffers and the queue unit [05 R121 to R127]. -/
structure Walkers where
  walks   : Table GraphWalk
  predict : List Predict
  staged  : List Staged
  reads   : List WalkRead
  qwaits  : List QWait
deriving DecidableEq, Repr

/-- The host side: functions, running commands, images, what has been sent back to rack schedulers [04 R88]. -/
structure HostSide where
  fns    : Table Fn
  runs   : List Run
  nextRun : Nat
  images : List (Nat × Image)
  rackOut : List (RackSrc × List Byte)
deriving DecidableEq, Repr

end Sys2Proof.Machine
end

