-- ==== Sys2Proof/Machine/TypesFabric.lean ====
section
/-! DEFINITION. The data of the state, part four: fabric ports and connections, meld units, the collective sequencer. -/

namespace Sys2Proof.Machine

/-- A Triwin port [01 R29 to R32; 02 R35, R37]: its link, mode and error count, the lanes it has trained and whether firmware has
selected the slow lane speed, and the class and turn of its round robin. -/
structure TriPort where
  up    : Bool
  ualink : Bool
  errs  : Nat
  lanes : Nat := 4
  slow  : Bool := false
  cls   : Nat := 1
  turn  : Nat := 0
deriving DecidableEq, Repr

/-- A custody copy [02 R41]: the packet, its next hop, resends made and the time of the last sending. -/
structure Custody where
  pkt    : Packet
  port   : Nat
  resent : Nat
  at_    : Nat
deriving DecidableEq, Repr

/-- A packet queued at an output port, with the time at which it came there [02 R37; 08 R193]. -/
structure OutPkt where
  port : Nat
  pkt  : Packet
  at_  : Nat
deriving DecidableEq, Repr

/-- A packet held for a link that is down, or (port 32) because no path is usable, with the resends made of it [02 R38, R40, R41]. -/
structure HeldPkt where
  pkt  : Packet
  port : Nat
  at_  : Nat
  resent : Nat := 0
deriving DecidableEq, Repr

/-- A connection with a peer for a tenant [02 R42, R43]. -/
structure Conn where
  peer   : BitVec 8
  ten    : BitVec 4
  nextSq : BitVec 16
  unack  : List Packet
  fails  : Nat
  sentAt : Nat
  expect : BitVec 16
  owed   : Nat
  owedAt : Nat
  openC  : Bool
  here   : Bool
  used   : Nat
deriving DecidableEq, Repr

/-- A remote access sent to a peer and not yet answered: its packet identity and the request that it carries, with its tag. -/
structure Remote where
  opq    : BitVec 40
  dev    : BitVec 8
  tc     : BitVec 3
  req    : Req
  kind   : BitVec 4
  win    : Nat
deriving DecidableEq, Repr

/-- One input of a meld reduction [02 R47 to R49]: its last segment, index and offset, PSEQ, accepted entries, the accepted packets
that the reduction has not reached (segment, and the packet of another device), and its end status. -/
structure MeldIn where
  seg    : Option Nat
  idx    : Option Nat
  off    : Option Nat
  segEnd : Bool
  pseq   : BitVec 16
  ents   : List (W32 × W32)
  pend   : List (Nat × Option Packet)
  ended  : Option Nat
  src    : BitVec 8
  acked  : Bool
deriving DecidableEq, Repr

/-- A meld reduction at a unit [02 R47 to R54]: `next` is the lowest segment not yet emitted, `coll` the collective that set it
up, `last` the time of its last progress [02 R53, R59]. -/
structure Meld where
  ten   : BitVec 4
  red   : BitVec 16
  nin   : Nat
  vti   : Bool
  vto   : Bool
  dth   : Nat
  up    : Option (BitVec 8 × BitVec 4 × BitVec 5)
  mcg   : Nat
  ins   : Table MeldIn
  next  : Nat
  pseq  : BitVec 16
  movf  : Bool
  mnan  : Bool
  coll  : Nat
  last  : Nat
deriving DecidableEq, Repr

/-- The output packets of a reduction for one input of another reduction, or for one device's receiver [02 R47, R54; 15 R387]: those
that wait for credit, and the number sent whose credit has not come back. -/
structure OutStream where
  ten   : BitVec 4
  red   : BitVec 16
  dev   : BitVec 8
  up    : Option (BitVec 4 × BitVec 5)
  unacked : Nat
  queue : List (List Byte)
deriving DecidableEq, Repr

/-- An entry of a tenant's meld route table [15 before R385; 18 R405], with the collective that entered it, and whether
the end of the output has reached this device. -/
structure Route where
  ten  : BitVec 4
  red  : BitVec 16
  dev  : BitVec 8
  unit : BitVec 4
  vti  : Bool
  vto  : Bool
  mcg  : Nat
  coll : Nat
  isOver : Bool
deriving DecidableEq, Repr

/-- The receiver of a reduction's output on this device [15 R387], and output packets that wait in the kitty. -/
structure Receiver where
  ten  : BitVec 4
  red  : BitVec 16
  xe   : Option (Nat × Nat × Nat)
  pkts : List Packet
deriving DecidableEq, Repr

/-- A trick [02 R55]. -/
structure Trick where
  op   : BitVec 4
  buf  : BitVec 4
  peer : BitVec 8
  rop  : BitVec 4
  fmt  : BitVec 4
  depn : BitVec 12
  off  : BitVec 48
  len  : W32
  succ : List (BitVec 16)
deriving DecidableEq, Repr

/-- The progress of a trick in a running instance; a MELD that has started keeps its reduction. -/
inductive TrickSt where
  | waiting (cnt : Nat)
  | started (red : BitVec 16)
  | done
deriving DecidableEq, Repr

/-- A running instance of a collective [02 R56 to R62]; `sent` counts the chunks of each SEND that have left, `got` holds the offsets of the
chunks that each receive has taken. -/
structure Instance where
  num    : BitVec 4
  table  : List Word
  st     : Table TrickSt
  sent   : Table Nat := []
  done   : Nat
  last   : Nat
  region : Nat
  got    : Table (List Nat) := []
deriving DecidableEq, Repr

/-- A HOLD of a peer that stands [02 R61]: the held rank, the instance, and when it came. -/
structure HoldAt where
  dev  : BitVec 8
  inst : BitVec 4
  at_  : Nat
deriving DecidableEq, Repr

/-- A loaded collective of a tenant [02 R58, R61, R62], since when its CTMO timers are paused: `skewed` and `aborted` end its next launch at once, with INSTSKEW and
ABORTED. -/
structure Coll where
  ten     : Nat
  num     : Nat
  kind    : Nat
  group   : Nat
  tricks  : List Trick
  inst    : BitVec 4
  running : Option Instance
  waiting : List (Nat × Nat × Nat × Nat × Word)
  early   : List Packet
  here    : List Packet
  heldAt  : Option Nat
  holds   : List HoldAt
  skewed  : Bool
  aborted : Bool
  results : List (Nat × Word)
  pausedAt : Option Nat := none
deriving DecidableEq, Repr

/-- The path that a flow keeps [02 R39]: its port and VIA. -/
structure Flow where
  dst  : BitVec 8
  tc   : BitVec 3
  ten  : BitVec 4
  port : Nat
  via  : Option (BitVec 8)
deriving DecidableEq, Repr

/-- The fabric side.  `out` are the packets queued at output ports, `wire` those put on a link; `downs` are the links between other
devices that are down [02 R37, R38].  `eth` are the Ethernet connections with their delivery mode, `ethOut` the answers to peers that
asked for one [01 R33]. -/
structure Fabric where
  ports   : Table TriPort
  rotate  : Nat
  flows   : List Flow
  custody : List Custody
  held    : List HeldPkt
  awaits  : List Packet
  undeliv : List Packet
  conns   : List Conn
  remotes : List Remote
  nextOpq : Nat
  melds   : Table (List Meld)
  routes  : List Route
  recvs   : List Receiver
  groups  : List (Nat × Nat × List (BitVec 8))
  colls   : List Coll
  outs    : List OutStream
  eth     : List (Nat × Nat)
  ethOut  : List (Nat × Bool)
  syncAt  : Nat
  out     : List OutPkt
  wire    : List (Nat × Packet)
  downs   : List (BitVec 8 × BitVec 8)
deriving DecidableEq, Repr

end Sys2Proof.Machine
end

