-- ==== Sys2Proof/Machine/State.lean ====
section
/-! DEFINITION. State: everything the spec gives the machine, as plain data, and the state right after reset. -/

namespace Sys2Proof.Machine

/-- Why the machine stops. It comes from `step`, never from a meaning. -/
inductive Fault where
  /-- The package has no power [01 R15; 03 R72] and nothing is on the agenda; raised by `step`. Safe: nothing runs. -/
  | powerRemoved
deriving DecidableEq, Repr

/-- Why an instruction has no meaning. -/
inductive Refusal where
  /-- An instruction not modelled yet, by its mnemonic; raised by `exec` alone. Safe: the machine stops. -/
  | notModelled (mnemonic : String)
deriving DecidableEq, Repr

/-- What the current step acts for: a control-core thread, or a firing of a node's unit (tag and row) (log 1). -/
structure Focus where
  slot   : Nat
  core   : Nat
  thr    : Nat
  word   : W32
  issue  : Bool
  elem   : Nat
  node   : Nat
  ctx    : BitVec 12
  colour : BitVec 8
  row    : Option (BitVec 5)
deriving DecidableEq, Repr

/-- What the outside, firmware and the open timing do that the table of events has no row for (logs 1, 6). -/
inductive Outside where
  /-- An output port puts its next packet on its link [02 R37]. -/
  | transmit (port : Nat)
  /-- Firmware sets the protocol mode of a port [01 R32]. -/
  | portMode (port : Nat) (ualink : Bool)
  /-- Firmware selects the lane speed of a port [01 R29]. -/
  | laneSpeed (port : Nat) (slow : Bool)
  /-- A lane of a port fails [01 R29]. -/
  | laneFail (port : Nat)
  /-- A token in flight of a slot's region moves over its next link [06 R149; 07 R167]. -/
  | hop (slot idx : Nat)
  /-- A unit of a path (the thread, of a control core) fills its staging with a granule of a space, ahead of its reads [09 R207, R215]. -/
  | prefetch (u : Stream) (thr space addr : Nat)
  /-- The device learns that a link between two others has gone down or come up [02 R38]. -/
  | farLink (a b : BitVec 8) (up : Bool)
  /-- A register is read: by PF0 (0) or a VF (1 to 16) in its BAR0, by Dealer at its local map (17), by PF0 in its BAR2 (18) [04 R80]. -/
  | regRead (fn addr n : Nat)
  /-- The sideband reads a command code [03 R76]. -/
  | smbusRead (code : Nat)
  /-- The cores of a slot that freezes have stopped, and its save begins [05 R118]. -/
  | saveBegin (slot : Nat)
  /-- A walker takes the answer of a peer [05 R121; 08 R182]. -/
  | walkTake (ten : Nat)
  /-- The sideband writes a command code, with a Packet Error Code that is wrong or not [03 R76]. -/
  | smbusWrite (code v : Nat) (badPec : Bool)
deriving DecidableEq, Repr

/-- One thing that happens next: the open timing and the outside inputs, as plain data (log 1). -/
inductive Move where
  /-- One clk of a control core [06 R152]. -/
  | core (slot core : Nat)
  /-- The unit that a blocked thread waits for looks at it again, or answers [12 R314]. -/
  | poll (slot core thr : Nat)
  /-- The firing arbiter of an element chooses [07 R162]. -/
  | fire (slot core elem : Nat)
  /-- An event. -/
  | op (i : Instr)
  /-- Time passes, in ns. -/
  | tick (ns : Nat)
  /-- An act that is no event of the table. -/
  | outside (o : Outside)
deriving DecidableEq, Repr

/-- The machine's state. -/
structure State where
  mg        : Mgmt
  hs        : HostSide
  ms        : MemSys
  fb        : Fabric
  slots     : Table Slot
  wk        : Walkers
  focus     : Focus
  agenda    : List Move
  time      : Nat
  freeCount : Nat
  nextOp    : Nat
  hostData  : List Byte
  msis      : List (Nat × Nat)
deriving DecidableEq, Repr

/-- The management registers right after reset [01; 02; 03; 04 R80]; the values the spec does not state are those of logs
4 and 6. -/
def Mgmt.reset : Mgmt :=
  { slot := 0, ten := 0, cause := 0, sealFail := false, degr := false, lcs := 2, dlkK := 20, trimap := 0, dx := 0, dy := 0, x := 0, y := 0,
    tccfg := 0x0A9442C7, vwK := 11, vwNext := none, vwLate := 0, sync := false, offs := 0, csel := [], chold := 50000, ctmo := 100000,
    cstale := 0, kq := [], ptroot := [], twin := [], plimit := 3000, power := 0, temps := [(0, 640), (1, 640), (2, 640), (3, 640), (4, 640)],
    bounds := [], repair := [], throttle := [], thrLog := [], nacks := 0, meas := [], ilog := [], wrcnt := 0, seals := [], wipe := false, slq := [], slqOvf := false, slcmd := 0,
    powered := true, held := false, stage := .none }

/-- The memory system right after reset: every memory zero, every queue empty. -/
def MemSys.reset : MemSys :=
  { hbm := [], cxl := [], host := [], ce := [], ue := [], hstat := [], hoffl := [], farBad := [], chans := [], late := [], tmo := [],
    tags := [], queue := [], reqs := [], reps := [], ops := [], units := [], gather := [], stage := [],
    msgs := [], views := [], scs := [], nextWrite := 0 }

/-- The fabric side right after reset: the ports up in Triwin mode (log 6), nothing under way. -/
def Fabric.reset : Fabric :=
  { ports := (List.range 32).map (fun i => (i, { up := true, ualink := false, errs := 0 })), rotate := 0, flows := [], custody := [], held := [], awaits := [],
    undeliv := [], conns := [], remotes := [], nextOpq := 0, melds := [], routes := [], recvs := [], groups := [], colls := [], outs := [], eth := [],
    ethOut := [], syncAt := 0, out := [], wire := [], downs := [] }

/-- The machine right after reset: every slot FREE, nothing loaded [03 R63; 05 R104]. -/
def State.reset : State :=
  { mg := Mgmt.reset, hs := { fns := [], runs := [], nextRun := 0, images := [], rackOut := [] }, ms := MemSys.reset, fb := Fabric.reset,
    slots := [], wk := { walks := [], predict := [], staged := [], reads := [], qwaits := [] },
    focus := { slot := 0, core := 0, thr := 0, word := 0, issue := false, elem := 0, node := 0, ctx := 0, colour := 0, row := none },
    agenda := [], time := 0, freeCount := 0, nextOp := 0, hostData := [], msis := [] }

end Sys2Proof.Machine
end

