-- ==== Sys2Proof/Machine/Table.lean ====
section
/-! DEFINITION. Reading and writing tables and byte memories. -/

namespace Sys2Proof.Machine

/-- The entry of a table at a number, or the default. -/
def tget (t : Table α) (d : α) (i : Nat) : α :=
  match t with
  | [] => d
  | (k, v) :: r => if k = i then v else tget r d i

/-- A table with one entry set. -/
def tset (t : Table α) (i : Nat) (v : α) : Table α :=
  match t with
  | [] => [(i, v)]
  | (k, w) :: r => if k = i then (i, v) :: r else (k, w) :: tset r i v

/-- Whether a table lists a number. -/
def thas (t : Table α) (i : Nat) : Bool := t.any (fun p => p.1 == i)

/-- A table without an entry. -/
def tdel (t : Table α) (i : Nat) : Table α := t.filter (fun p => p.1 != i)

/-- The byte at an address; a byte that is not listed reads as 0 (log 5). -/
def mget (m : Memory) (a : Nat) : Byte :=
  match m with
  | [] => 0#8
  | (k, v) :: r => if k = a then v else mget r a

/-- A memory with a byte other than 0 listed in its place. -/
def mins (m : Memory) (a : Nat) (b : Byte) : Memory :=
  match m with
  | [] => [(a, b)]
  | (k, v) :: r => if a < k then (a, b) :: (k, v) :: r else if a = k then (a, b) :: r else (k, v) :: mins r a b

/-- A memory with one byte written; a 0 is not listed, so that canonical form stays canonical form. -/
def mput (m : Memory) (a : Nat) (b : Byte) : Memory := if b = 0#8 then m.filter (fun p => p.1 != a) else mins m a b

/-- `n` bytes from an address. -/
def mread (m : Memory) (a : Nat) : Nat → List Byte
  | 0 => []
  | n + 1 => mget m a :: mread m (a + 1) n

/-- Bytes written from an address upwards. -/
def mwrite (m : Memory) (a : Nat) : List Byte → Memory
  | [] => m
  | b :: bs => mwrite (mput m a b) (a + 1) bs

/-- The canonical form above a bound: addresses rising, no listed zero. -/
def mwfFrom (lo : Nat) : Memory → Bool
  | [] => true
  | (k, v) :: r => lo ≤ k && v != 0#8 && mwfFrom (k + 1) r

/-- The canonical form of a memory. -/
def Memory.wf (m : Memory) : Bool := mwfFrom 0 m

/-- A little-endian number from bytes [00 R4]. -/
def leNum : List Byte → Nat
  | [] => 0
  | b :: bs => b.toNat + 256 * leNum bs

/-- The low `n` bytes of a number, little-endian [00 R4]. -/
def leOf : Nat → Nat → List Byte
  | 0, _ => []
  | n + 1, v => BitVec.ofNat 8 v :: leOf n (v / 256)

/-- `n` bits of a number from bit `lo`. -/
def bitsAt (v lo n : Nat) : Nat := v / 2 ^ lo % 2 ^ n

/-- Sign extension of the low `n` bits of a number to 64 bits. -/
def sext64 (n v : Nat) : Word :=
  if v % 2 ^ n < 2 ^ (n - 1) then BitVec.ofNat 64 (v % 2 ^ n) else BitVec.ofNat 64 (2 ^ 64 - 2 ^ n + v % 2 ^ n)

/-- Pieces of `n` bytes of a list. -/
def chunks (n : Nat) : Nat → List Byte → List (List Byte)
  | 0, _ => []
  | k + 1, bs => bs.take n :: chunks n k (bs.drop n)

/-- `List.map` with the index. -/
def mapIdxFrom (f : Nat → α → β) (i : Nat) : List α → List β
  | [] => []
  | a :: r => f i a :: mapIdxFrom f (i + 1) r

/-- The element at an index replaced. -/
def lset (l : List α) (i : Nat) (v : α) : List α :=
  match l, i with
  | [], _ => []
  | _ :: r, 0 => v :: r
  | a :: r, i + 1 => a :: lset r i v

/-- The element at an index removed. -/
def ldel (l : List α) (i : Nat) : List α :=
  match l, i with
  | [], _ => []
  | _ :: r, 0 => r
  | a :: r, i + 1 => a :: ldel r i

/-- A list without its first element that satisfies a test. -/
def dropFirst (p : α → Bool) : List α → List α
  | [] => []
  | a :: r => if p a then r else a :: dropFirst p r

end Sys2Proof.Machine
end

