-- ==== Sys2Proof/Machine/Region.lean ====
section
/-! DEFINITION. Regions: defaults of the region's parts, reading and writing cores and elements, colours,
retirement counts, sending tokens with elision, and the operands of a unit [07]. -/

namespace Sys2Proof.Machine

/-- A thread at region start [06 R151, R154; 12 R311]: waiting, at code address 4 times its number. -/
def Thread.start (i : Nat) : Thread :=
  { pc := BitVec.ofNat 64 (4 * i), regs := [], pend := [], csrPend := [], st := .wfe true, event := false, next := 0,
    ie := false, inh := false, tvec := 0, epc := 0, cause := 0, tval := 0, scratch := 0, lcnt := 0, lbeg := 0, lend := 0 }

/-- An ME with nothing claimed [14 R345, R351]. -/
def MeSt.start : MeSt := { slots := [], selB := 0, selT := 0, acc := [] }

/-- An AE at the boundary of region start [08 R184, R186; 12 R304]. -/
def AeSt.start : AeSt :=
  { lay := ⟨0, 0, 0, 0, 0⟩, queue := [], pos := 0, sbc := 0, atBound := true, waiting := [], ready := [], waves := [], seq := 0 }

/-- An XE with nothing outstanding. -/
def XeSt.start : XeSt := { sends := [], recvs := [], ops := [], num := 0 }

/-- An element that the image does not use. -/
def Elem.empty : Elem :=
  { used := false, nrec := 0, npool := 0, nslot := 0, nser := 0, recs := [], ecw := [], k := [], estat := 0, pendK := [],
    markers := [], pool := [], vzeros := [], merges := [], loops := [], skips := [], cfgWait := [], phases := [], barv := [],
    lead := 0, arb := ⟨0, 0, false, none⟩, me := MeSt.start, smx := [], gen := 1, se := [], shapes := [], ae := AeSt.start,
    xe := XeSt.start }

/-- An idle copy channel [08 R200]. -/
def Chan.idle : Chan :=
  { st := .idle, head := 0, done := 0, errc := 0, recs := [], num := 0, reading := false }

/-- A core with nothing loaded. -/
def Core.empty : Core :=
  { die := 0, pos := 0, bufW := [], bufA := [], bufC := [], code := [], codeLen := 0, thr := [], cur := 0, cnt := 0, clk := 0,
    ccfg := 1, evpend := 0, evval := [], counts := [], changed := [], bars := [], arrs := [], rels := [], chans := [],
    talon := [], refetch := [], mbcb := [], elems := [] }

/-- A region at its start [05 R108; 07 R163], before its cores are loaded. -/
def Region.empty : Region :=
  { ten := 0, ncore := 1, l := 1, det := false, sfree := false, basek := 0, savek := 0, ctx := 0, img := 0, wcl := 0, cores := [],
    lead := 0, next := 0, owners := [], done := [], purged := [], snap := [], flight := [], idleAt := 0, fired := false, kHeld := none, started := 0,
    exit := none, draining := false, running := true }

/-- A free slot [05 R104]. -/
def Slot.free : Slot :=
  { st := 0, held := none, ten := 0, ncore := 0, l := 0, prio := 0, phase := 0, ctx := 0, img := 0, entry := 0, basek := 0, savek := 0, flg := 0,
    acct := 0, lastst := 0, tdrn := 0, tload := 0, cmap := [], raw := [], region := none, saved := none,
    task := none, run := none }

/-- The bind record of a slot as an acceptance reads it [05 R105]. -/
def Slot.record (x : Slot) : BindRec :=
  { ten := x.ten, ncore := x.ncore, l := x.l, ctx := x.ctx, img := x.img, entry := x.entry, basek := x.basek, savek := x.savek, cmap := x.cmap }

/-- A slot with its record as the last accepted load read it [05 R105]. -/
def Slot.asRead (x : Slot) : Slot :=
  match x.held with
  | none => x
  | some a => { x with ten := a.ten, ncore := a.ncore, l := a.l, ctx := a.ctx, img := a.img, entry := a.entry, basek := a.basek,
                       savek := a.savek, cmap := a.cmap }

/-- A slot of the table. -/
def State.slot (s : State) (i : Nat) : Slot := tget s.slots Slot.free i

/-- The state with a slot written. -/
def State.putSlot (s : State) (i : Nat) (x : Slot) : State := { s with slots := tset s.slots i x }

/-- The region in a slot. -/
def State.region (s : State) (i : Nat) : Option Region := (s.slot i).region

/-- The state with the region of a slot written. -/
def State.putRegion (s : State) (i : Nat) (r : Region) : State := s.putSlot i { s.slot i with region := some r }

/-- A core of a region. -/
def Region.core (r : Region) (c : Nat) : Core := tget r.cores Core.empty c

/-- A region with a core written. -/
def Region.putCore (r : Region) (c : Nat) (x : Core) : Region := { r with cores := tset r.cores c x }

/-- An element of a core. -/
def Core.elem (c : Core) (e : Nat) : Elem := tget c.elems Elem.empty e

/-- A core with an element written. -/
def Core.putElem (c : Core) (e : Nat) (x : Elem) : Core := { c with elems := tset c.elems e x }

/-- An element of a region. -/
def Region.elem (r : Region) (c e : Nat) : Elem := (r.core c).elem e

/-- A region with an element written. -/
def Region.putElem (r : Region) (c e : Nat) (x : Elem) : Region := r.putCore c ((r.core c).putElem e x)

/-- A thread of a core. -/
def Core.thread (c : Core) (t : Nat) : Thread := tget c.thr (Thread.start t) t

/-- A core with a thread written. -/
def Core.putThread (c : Core) (t : Nat) (x : Thread) : Core := { c with thr := tset c.thr t x }

/-- The bytes of a buffer: 0 W, 1 A, 2 C [06 R144]. -/
def Core.buf (c : Core) (i : Nat) : Memory := match i with | 0 => c.bufW | 1 => c.bufA | _ => c.bufC

/-- A core with a buffer written. -/
def Core.putBuf (c : Core) (i : Nat) (m : Memory) : Core :=
  match i with
  | 0 => { c with bufW := m }
  | 1 => { c with bufA := m }
  | _ => { c with bufC := m }

/-- The class of an element by its absolute index [06 R132]: 0 ME, 1 VE, 2 SE, 3 AE, 4 XE. -/
def elemClass (e : Nat) : Nat :=
  if e < 16 then 0 else if e < 32 then 1 else if e < 40 then 2 else if e < 56 then 3 else 4

/-- ECWn of an element. -/
def Elem.w (e : Elem) (n : Nat) : Nat := (tget e.ecw 0#32 n).toNat

/-- Constant register k of an element [06 R134]. -/
def Elem.const (e : Elem) (k : Nat) : W32 := tget e.k 0#32 k

/-- ROWS of an element's tile shape [06 R135]. -/
def Elem.rows (e : Elem) : Nat := bitsAt (e.w 0) 11 5 + 1

/-- COLS of an element's tile shape [06 R135]. -/
def Elem.cols (e : Elem) : Nat := (bitsAt (e.w 0) 8 3 + 1) * 8

/-- PCAP of an element [06 R138]. -/
def Elem.pcap (e : Elem) : Nat := bitsAt (e.w 4) 0 12

/-- The codebook of an element [06 R139]. -/
def Elem.codebook (e : Elem) : List (BitVec 16) :=
  (List.range 16).map (fun j => BitVec.ofNat 16 (bitsAt (e.w (8 + j / 2)) (16 * (j % 2)) 16))

/-- The status word with flags set [10 R230]. -/
def Elem.flag (e : Elem) (fl : W32) : Elem := { e with estat := e.estat ||| fl }

/-- The number of live colours, a hand-off colour included [07 R163]. -/
def Region.live (r : Region) : Nat := (r.next - r.lead).toNat

/-- The number of live colours that a residency report counts: a hand-off colour is not one of them [04 R89; 07 R163]. -/
def Region.liveOwn (r : Region) : Nat := if r.live ≤ r.l then r.live else r.l

/-- Whether a colour is live. -/
def Region.isLive (r : Region) (c : BitVec 8) : Bool := (c - r.lead).toNat < r.live

/-- The context that owns a colour [07 R163]. -/
def Region.owner (r : Region) (c : BitVec 8) : Option (BitVec 12) :=
  (r.owners.find? (fun o => o.colour == c)).map Owner.ctx

/-- The colours of a context from the lead colour on, in the order of admission [07 R163, R178]. -/
def Region.coloursOf (r : Region) (x : BitVec 12) : List (BitVec 8) :=
  ((List.range r.live).map (fun i => r.lead + BitVec.ofNat 8 i)).filter (fun c => r.owner c == some x)

/-- Whether a record is a MERGE. -/
def recMerge (r : BitVec 96) : Bool := r.toNat / 2 ^ 87 == 2

/-- The MERGE nodes of an element begin to expect a colour for a context that they hold no expectation for [07 R178]. -/
def Elem.expectFrom (e : Elem) (x : BitVec 12) (c : BitVec 8) : Elem :=
  let new := e.recs.filter (fun p => recMerge p.2 && !e.merges.any (fun m => m.node == p.1 && m.ctx == x))
  { e with merges := e.merges ++ new.map (fun p => ⟨p.1, x, c⟩) }

/-- Admission of colour NEXT for a context; with the first of a context its MERGE expectations begin [07 R163, R178]. -/
def Region.bringIn (r : Region) (x : BitVec 12) : Region :=
  { r with
    next := r.next + 1
    owners := r.owners.filter (fun o => o.colour != r.next) ++ [⟨r.next, x⟩]
    cores := r.cores.map (fun p => (p.1, { p.2 with elems := p.2.elems.map (fun q => (q.1, q.2.expectFrom x r.next)) })) }

/-- Whether a colour-advancing firing of colour `c` may admit NEXT, the hand-off included, at an element that takes `lead` for the lead
colour [07 R163, R165]. -/
def Region.mayAdvance (r : Region) (lead c : BitVec 8) : Bool := r.live < r.l || (c == lead && r.live == r.l)

/-- The idle count of a region starts at zero, and a new detection time applies [07 R173, R174]. -/
def Region.restart (r : Region) : Region := { r with idleAt := r.now, kHeld := none }

/-- A firing, a flit or a reply of a region: its idle count starts at zero, and its detector may fire again [07 R173]. -/
def Region.alive (r : Region) : Region := { r.restart with fired := false }

/-- A retirement count changed at a core, and the colour's change bit set [07 R164, R165]. -/
def Core.count (c : Core) (k : BitVec 8) (d : Int) : Core :=
  { c with counts := tset c.counts k.toNat (tget c.counts 0 k.toNat + d),
           changed := if c.changed.contains k then c.changed else k :: c.changed }

/-- A retirement count changed at a core of a region. -/
def Region.count (r : Region) (c : Nat) (k : BitVec 8) (d : Int) : Region := r.putCore c ((r.core c).count k d)

/-- The sum of a colour's counts over the region [07 R164]. -/
def Region.sum (r : Region) (k : BitVec 8) : Int :=
  (r.cores.map (fun p => tget p.2.counts 0 k.toNat)).foldl (· + ·) 0

/-- Whether a token is counted [07 R159, R164]: neither sticky nor a marker nor a ZERO that stands for elided tiles. -/
def Token.counted (t : Token) : Bool := t.act != 1#2 && t.kind != .marker && t.kind != .zero

/-- Whether a destination is none. -/
def noDest (d : Dest) : Bool := d.port == 3#2

/-- A token addressed to a destination. -/
def Token.to (t : Token) (d : Dest) : Token := { t with port := d.port, node := d.node, core := d.core, elem := d.elem }

/-- A token of a kind on a tag, without address. -/
def Token.mk0 (kind : TokKind) (x : BitVec 12) (c : BitVec 8) (aux : BitVec 8) (pay : Payload) : Token :=
  { kind := kind, act := 0, port := 0, node := 0, core := 0, elem := 0, ctx := x, colour := c, skip := 0, aux := aux, pay := pay }

/-- A SCALAR on a tag. -/
def Token.scalarOf (x : BitVec 12) (c : BitVec 8) (v : Word) : Token := Token.mk0 .scalar x c 0 (.word v)

/-- Whether an arc out of an element is elidable [06 R137]. -/
def Elem.elidable (e : Elem) (d : Dest) : Bool :=
  bitsAt (e.w 0) 28 1 == 0 && bitsAt (e.w (2 + d.elem.toNat / 32)) (d.elem.toNat % 32) 1 == 1

/-- The skip entry of an arc. -/
def Elem.skipOf (e : Elem) (node which : Nat) : Option Skip :=
  e.skips.find? (fun k => k.node == node && k.which == which)

/-- An element without the skip entry of an arc. -/
def Elem.dropSkip (e : Elem) (node which : Nat) : Elem :=
  { e with skips := e.skips.filter (fun k => !(k.node == node && k.which == which)) }

/-- A token put on an arc, counted as an emission of the core; its first flit moves [07 R164, R173]. -/
def Region.launch (r : Region) (f : Flight) : Region :=
  let r1 := if f.tok.counted then r.count f.sender f.tok.colour 1 else r
  ({ r1 with flight := r1.flight ++ [f] } : Region).alive

/-- A token sent by an element: it enters the first link of its path when that has room [07 R167]. -/
def Region.post (r : Region) (arc : ArcKey) (c : Nat) (t : Token) : Region := r.launch { arc := arc, sender := c, tok := t }

/-- The ZERO token that flushes a skip entry [07 R179]. -/
def Skip.flushTok (k : Skip) (d : Dest) : Token :=
  { Token.mk0 .zero k.ctx k.last 0 .none with skip := BitVec.ofNat 4 (k.cnt - 1) }.to d

/-- A skip entry flushed: its ZERO token sent and the entry freed [07 R179]. -/
def Region.flushSkip (r : Region) (c e : Nat) (k : Skip) (d : Dest) : Region :=
  let r1 := r.putElem c e ((r.elem c e).dropSkip k.node k.which)
  r1.post (.node c e k.node k.which) c (k.flushTok d)

/-- A token sent on an arc of a node: a zero TILE is elided where [07 R179] allows, and any other token settles the
arc's skip entry first. -/
def Region.send (r : Region) (c e node which : Nat) (d : Dest) (t : Token) (zero : Bool) : Region :=
  if noDest d then r
  else
    let el := r.elem c e
    let arc := ArcKey.node c e node which
    let ent := el.skipOf node which
    let follows := match ent with
      | some k => k.ctx == t.ctx && k.last == t.colour - 1
      | none => false
    let canElide := zero && t.kind == .tile && t.act == 0#2 && el.elidable d && elemClass e ≤ 2
    match ent with
    | none =>
      if canElide && el.skips.length < 16 then
        (r.putElem c e { el with skips := el.skips ++ [⟨node, which, t.ctx, t.colour, 1⟩] }).count c t.colour 1
      else r.post arc c (t.to d)
    | some k =>
      if canElide && follows && k.cnt < 15 then
        (r.putElem c e { el.dropSkip node which with
          skips := (el.dropSkip node which).skips ++ [⟨node, which, t.ctx, t.colour, k.cnt + 1⟩] }).count c t.colour 1
      else if follows then
        (r.putElem c e (el.dropSkip node which)).post arc c { t.to d with skip := BitVec.ofNat 4 k.cnt }
      else (r.flushSkip c e k d).post arc c (t.to d)

/-- A token sent to both destinations of a node. -/
def Region.send2 (r : Region) (c e node : Nat) (h : NodeHd) (t : Token) (zero : Bool) : Region :=
  (r.send c e node 0 h.d0 t zero).send c e node 1 h.d1 t zero

/-- The header of a node record, whatever its opcode [11 R260]. -/
def recHd (r : BitVec 96) : NodeHd :=
  let d (lo : Nat) : Dest :=
    { port := BitVec.ofNat 2 (r.toNat / 2 ^ (lo + 24)), node := BitVec.ofNat 12 (r.toNat / 2 ^ (lo + 12)),
      core := BitVec.ofNat 6 (r.toNat / 2 ^ (lo + 6)), elem := BitVec.ofNat 6 (r.toNat / 2 ^ lo) }
  { mm := BitVec.ofNat 2 (r.toNat / 2 ^ 85), yld := BitVec.ofNat 1 (r.toNat / 2 ^ 84), d0 := d 58, d1 := d 32 }

/-- The record of a node. -/
def Elem.rec_ (e : Elem) (node : Nat) : BitVec 96 := tget e.recs 0#96 node

/-- The row index of a token's unit: that of an AROW or VROW, 0 of another (log 16). -/
def Token.row (t : Token) : BitVec 5 :=
  match t.kind with
  | .arow | .vrow => t.aux.setWidth 5
  | _ => 0

/-- The bytes of a payload. -/
def Token.bytes (t : Token) : List Byte :=
  match t.pay with
  | .none => []
  | .word w => leOf 8 w.toNat
  | .bytes b => b

/-- The value of a SCALAR. -/
def Token.value (t : Token) : Word :=
  match t.pay with
  | .word w => w
  | _ => 0

/-- Whether a held token is at a port of a node. -/
def Held.at_ (x : Held) (node : Nat) (port : BitVec 2) : Bool := x.tok.node.toNat == node && x.tok.port == port

/-- The general entries that the expectations of a MERGE node take: one for each context, while the port has one [07 R166, R178] (log 50). -/
def Elem.expecting (e : Elem) (node : Nat) : Nat :=
  let m := (e.merges.filter (fun m => m.node == node)).length
  let free := e.pcap - 1 - (e.pool.filter (fun x => x.at_ node 0 && x.place == .general)).length - (e.loops.filter (fun a => a.node == node)).length
  if m < free then m else free

/-- The general entries that a port's tokens, MERGE expectations and LOOPN activations hold [07 R166, R178; 13 R324]. -/
def Elem.generalUsed (e : Elem) (node : Nat) (p : BitVec 2) : Nat :=
  (e.pool.filter (fun x => x.at_ node p && x.place == .general)).length +
    (if p == 0#2 then e.expecting node + (e.loops.filter (fun a => a.node == node)).length else 0)

/-- The pool entries that an element holds [07 R166, R175; 12 R293]. -/
def Elem.entries (e : Elem) : Nat :=
  e.pool.length + e.loops.length + ((e.merges.map MergeExp.node).eraseDups.map e.expecting).foldl (· + ·) 0

/-- The token that a unit finds at a port: its own consume or purge-partner token or virtual zero, else a sticky token of its
context [07 R158, R159, R180]. -/
def Elem.operand (e : Elem) (node : Nat) (port : BitVec 2) (x : BitVec 12) (c : BitVec 8) (row : BitVec 5) :
    Option Token :=
  match e.pool.find? (fun y => y.at_ node port && y.tok.act != 1#2 && y.tok.ctx == x && y.tok.colour == c && y.tok.row == row) with
  | some y => some y.tok
  | none =>
    match e.vzeros.find? (fun z => z.node == node && z.port == port && z.ctx == x && z.colour == c && row == 0#5) with
    | some z => some { Token.mk0 .zero z.ctx z.colour 0 .none with port := port, node := BitVec.ofNat 12 node }
    | none => (e.pool.find? (fun y => y.at_ node port && y.tok.act == 1#2 && y.tok.ctx == x)).map (fun y => y.tok)

/-- The ports that a match mode needs [07 R160]. -/
def mmPorts (mm : BitVec 2) : List (BitVec 2) :=
  match mm.toNat with
  | 0 => [0#2]
  | 1 => [0#2, 1#2]
  | _ => [0#2, 1#2, 2#2]

/-- An element without an operand that a firing consumed: a consume or purge-partner token or virtual zero goes; a
sticky token stays, but for the sticky token that fired a monadic node [07 R159]. -/
def Elem.consume (e : Elem) (node : Nat) (mono : Bool) (port : BitVec 2) (t : Token) : Elem :=
  if t.kind == .zero then
    { e with vzeros := dropFirst (fun z => z.node == node && z.port == port && z.ctx == t.ctx && z.colour == t.colour) e.vzeros }
  else if t.act == 1#2 && !mono then e
  else { e with pool := dropFirst (fun y => y.at_ node port && y.tok == t) e.pool }

/-- An element after a purge-partner operand of a node fired: the sticky tokens of its context at the node's other
ports are removed [07 R159]. -/
def Elem.purgeSticky (e : Elem) (node : Nat) (port : BitVec 2) (x : BitVec 12) : Elem :=
  { e with pool := e.pool.filter (fun y => !(y.tok.node.toNat == node && y.tok.port != port && y.tok.act == 1#2 && y.tok.ctx == x)) }

/-- Whether consuming an operand subtracts a count: a virtual zero or a counted token [07 R164, R179]. -/
def Token.spent (t : Token) : Bool := t.kind == .zero || t.act != 1#2

end Sys2Proof.Machine
end

