-- ==== Sys2Proof/Machine/Sha3.lean ====
section
/-! DEFINITION. SHA3-512, which the spec names for its digests and does not write out [03 R67, R73, R74; 05 R110]; the function of
FIPS 202 (log 10).  Lanes are numbers below 2^64, lane x + 5y at place x + 5y, each map spelled out lane by lane so that it evaluates fast. -/

namespace Sys2Proof.Machine

/-- The round constants of Keccak-f[1600]. -/
def keccakRc : List Nat :=
  [0x0000000000000001, 0x0000000000008082, 0x800000000000808A, 0x8000000080008000, 0x000000000000808B, 0x0000000080000001,
   0x8000000080008081, 0x8000000000008009, 0x000000000000008A, 0x0000000000000088, 0x0000000080008009, 0x000000008000000A] ++
  [0x000000008000808B, 0x800000000000008B, 0x8000000000008089, 0x8000000000008003, 0x8000000000008002, 0x8000000000000080,
   0x000000000000800A, 0x800000008000000A, 0x8000000080008081, 0x8000000000008080, 0x0000000080000001, 0x8000000080008008]

/-- A lane rotated to the left. -/
def rotl (x r : Nat) : Nat := (x <<< r) % 0x10000000000000000 ||| (x >>> (64 - r))

/-- A lane with every bit turned. -/
def flipLane (x : Nat) : Nat := 0xFFFFFFFFFFFFFFFF ^^^ x

/-- Theta. -/
def keccakTheta : List Nat → List Nat
  | [a0, a1, a2, a3, a4, a5, a6, a7, a8, a9, a10, a11, a12, a13, a14, a15, a16, a17, a18, a19, a20, a21, a22, a23, a24] =>
    let c0 := a0 ^^^ a5 ^^^ a10 ^^^ a15 ^^^ a20
    let c1 := a1 ^^^ a6 ^^^ a11 ^^^ a16 ^^^ a21
    let c2 := a2 ^^^ a7 ^^^ a12 ^^^ a17 ^^^ a22
    let c3 := a3 ^^^ a8 ^^^ a13 ^^^ a18 ^^^ a23
    let c4 := a4 ^^^ a9 ^^^ a14 ^^^ a19 ^^^ a24
    let d0 := c4 ^^^ rotl c1 1
    let d1 := c0 ^^^ rotl c2 1
    let d2 := c1 ^^^ rotl c3 1
    let d3 := c2 ^^^ rotl c4 1
    let d4 := c3 ^^^ rotl c0 1
    [a0 ^^^ d0, a1 ^^^ d1, a2 ^^^ d2, a3 ^^^ d3, a4 ^^^ d4,
     a5 ^^^ d0, a6 ^^^ d1, a7 ^^^ d2, a8 ^^^ d3, a9 ^^^ d4,
     a10 ^^^ d0, a11 ^^^ d1, a12 ^^^ d2, a13 ^^^ d3, a14 ^^^ d4,
     a15 ^^^ d0, a16 ^^^ d1, a17 ^^^ d2, a18 ^^^ d3, a19 ^^^ d4,
     a20 ^^^ d0, a21 ^^^ d1, a22 ^^^ d2, a23 ^^^ d3, a24 ^^^ d4]
  | _ => []

/-- Rho and pi. -/
def keccakRhoPi : List Nat → List Nat
  | [a0, a1, a2, a3, a4, a5, a6, a7, a8, a9, a10, a11, a12, a13, a14, a15, a16, a17, a18, a19, a20, a21, a22, a23, a24] =>
    [a0, rotl a6 44, rotl a12 43, rotl a18 21, rotl a24 14,
     rotl a3 28, rotl a9 20, rotl a10 3, rotl a16 45, rotl a22 61,
     rotl a1 1, rotl a7 6, rotl a13 25, rotl a19 8, rotl a20 18,
     rotl a4 27, rotl a5 36, rotl a11 10, rotl a17 15, rotl a23 56,
     rotl a2 62, rotl a8 55, rotl a14 39, rotl a15 41, rotl a21 2]
  | _ => []

/-- Chi. -/
def keccakChi : List Nat → List Nat
  | [a0, a1, a2, a3, a4, a5, a6, a7, a8, a9, a10, a11, a12, a13, a14, a15, a16, a17, a18, a19, a20, a21, a22, a23, a24] =>
    [a0 ^^^ (flipLane a1 &&& a2), a1 ^^^ (flipLane a2 &&& a3), a2 ^^^ (flipLane a3 &&& a4), a3 ^^^ (flipLane a4 &&& a0), a4 ^^^ (flipLane a0 &&& a1),
     a5 ^^^ (flipLane a6 &&& a7), a6 ^^^ (flipLane a7 &&& a8), a7 ^^^ (flipLane a8 &&& a9), a8 ^^^ (flipLane a9 &&& a5), a9 ^^^ (flipLane a5 &&& a6),
     a10 ^^^ (flipLane a11 &&& a12), a11 ^^^ (flipLane a12 &&& a13), a12 ^^^ (flipLane a13 &&& a14), a13 ^^^ (flipLane a14 &&& a10), a14 ^^^ (flipLane a10 &&& a11),
     a15 ^^^ (flipLane a16 &&& a17), a16 ^^^ (flipLane a17 &&& a18), a17 ^^^ (flipLane a18 &&& a19), a18 ^^^ (flipLane a19 &&& a15), a19 ^^^ (flipLane a15 &&& a16),
     a20 ^^^ (flipLane a21 &&& a22), a21 ^^^ (flipLane a22 &&& a23), a22 ^^^ (flipLane a23 &&& a24), a23 ^^^ (flipLane a24 &&& a20), a24 ^^^ (flipLane a20 &&& a21)]
  | _ => []

/-- One round. -/
def keccakRound (a : List Nat) (rc : Nat) : List Nat :=
  match keccakChi (keccakRhoPi (keccakTheta a)) with
  | [] => []
  | x :: r => (x ^^^ rc) :: r

/-- Keccak-f[1600]. -/
def keccakF (a : List Nat) : List Nat := keccakRc.foldl keccakRound a

/-- A block of 72 bytes taken in. -/
def keccakAbsorb (a : List Nat) (b : List Byte) : List Nat :=
  keccakF (mapIdxFrom (fun i x => if i < 9 then x ^^^ leNum ((b.drop (8 * i)).take 8) else x) 0 a)

/-- The padding of SHA3 to whole blocks of 72 bytes. -/
def sha3Pad (b : List Byte) : List Byte :=
  let n := 72 - b.length % 72
  b ++ (if n == 1 then [0x86#8] else 0x06#8 :: (List.replicate (n - 2) 0#8 ++ [0x80#8]))

/-- SHA3-512 of some bytes: 64 bytes. -/
def digestOf (b : List Byte) : List Byte :=
  let p := sha3Pad b
  (((chunks 72 (p.length / 72) p).foldl keccakAbsorb (List.replicate 25 0)).take 8).flatMap (fun w => leOf 8 w)

end Sys2Proof.Machine
end

