-- ==== Sys2Proof/Machine/Ops.lean ====
section
/-! DEFINITION. Shared operations: free values, fault records, asynchronous and synchronous traps, return from a trap. -/

namespace Sys2Proof.Machine

/-- A draw of a free value (log 2). -/
def State.draw (s : State) : Word × State := (Config.freeValue s.freeCount, { s with freeCount := s.freeCount + 1 })

/-- A status that the table does not give for a case: one of the loader and dispatch codes, which one is open [05 R109] (log 20). -/
def State.openStatus (s : State) : Nat × State := let (v, s1) := s.draw; (0x10 + v.toNat % 21, s1)

/-- The first `n` bytes of a list, filled up with zeros. -/
def fit (n : Nat) (b : List Byte) : List Byte := (b ++ List.replicate n 0#8).take n

/-- `n` bytes that the spec leaves open (log 12). -/
def freeBytes (k n : Nat) : List Byte := fit n (Config.freeBytes k n)

/-- A queue of a function that nothing has set up [04 R82]; PHASE of the first pass is 1 [04 R86]. -/
def Queue.off : Queue :=
  { base := 0, cqbase := 0, en := false, qerr := false, src := false, ien := false, csz := 0, ssz := 0, head := 0, tail := 0,
    cqhead := 0, cqtail := 0, phase := true, lseq := none, rack := [], fetched := none, posts := [] }

/-- A function at reset [04 R81]. -/
def Fn.reset0 : Fn :=
  { enabled := false, reset := false, frbase := 0, fren := false, frsize := 0, frhead := 0, frtail := 0, frlost := 0,
    frfull := false, lost := false, seq := 0, rackck := 0, hwin := 0, queues := [] }

/-- A function: PF0 is 0, VFn is n. -/
def State.fn (s : State) (n : Nat) : Fn := tget s.hs.fns Fn.reset0 n

/-- The state with a function written. -/
def State.putFn (s : State) (n : Nat) (f : Fn) : State := { s with hs := { s.hs with fns := tset s.hs.fns n f } }

/-- An MSI-X vector raised by a function [04 R87]. -/
def State.msi (s : State) (fn vec : Nat) : State := { s with msis := s.msis ++ [(fn, vec)] }

/-- Bytes written to host memory. -/
def State.hostWrite (s : State) (a : Nat) (b : List Byte) : State :=
  { s with ms := { s.ms with host := mwrite s.ms.host a b } }

/-- 32-bit saturating increment. -/
def satInc32 (v : W32) : W32 := if v == 0xFFFFFFFF#32 then v else v + 1

/-- The bytes of a fault record [04 R100]. -/
def faultBytes (fl : Nat) (ten : Nat) (seq : W32) (time slot elem ctx colour : Nat) (fi : FaultInfo) : List Byte :=
  leOf 2 fi.cls ++ leOf 1 ten ++ leOf 1 fl ++ leOf 4 seq.toNat ++ leOf 8 time ++ leOf 8 fi.va.toNat ++ leOf 2 slot ++
  leOf 2 elem ++ leOf 2 ctx ++ leOf 1 colour ++ leOf 1 fi.acc ++ leOf 8 fi.info1.toNat ++ leOf 8 fi.info2.toNat ++ leOf 16 0

/-- A fault record written to the tenant's fault ring, or dropped and counted [04 R101]. -/
def State.record (s : State) (ten slot elem ctx colour : Nat) (fi : FaultInfo) : State :=
  let f := s.fn (ten + 1)
  let f1 := { f with seq := f.seq + 1 }
  let size := 2 ^ f.frsize.toNat
  if !f.fren then s.putFn (ten + 1) f1
  else if (f.frtail.toNat + 1) % size == f.frhead.toNat % size then
    s.putFn (ten + 1) { f1 with frlost := satInc32 f.frlost, frfull := true, lost := true }
  else
    let b := faultBytes (2 + (if f.lost then 1 else 0)) ten f.seq s.time slot elem ctx colour fi
    let s1 := s.putFn (ten + 1) { f1 with frtail := BitVec.ofNat 32 ((f.frtail.toNat + 1) % size), lost := false }
    (s1.hostWrite (f.frbase.toNat / 64 * 64 + 64 * f.frtail.toNat) b).msi (ten + 1) 64

/-- A fault whose only content is its class and INFO1. -/
def FaultInfo.of (cls info1 : Nat) : FaultInfo :=
  { cls := cls, va := 0, acc := 6, info1 := BitVec.ofNat 64 info1, info2 := 0 }

/-- The ELEM field of a fault record: die, core and element [04 R100]. -/
def elemField (c : Core) (e : Nat) : Nat := c.die % 4 * 2 ^ 14 + c.pos % 64 * 2 ^ 8 + e % 64

/-- A record whose INFO1 the spec does not state: a free value (log 17). -/
def State.recordOpen (s : State) (ten slot elem ctx colour : Nat) (fi : FaultInfo) : State :=
  let (v, s1) := s.draw
  s1.record ten slot elem ctx colour { fi with info1 := v }

/-- An asynchronous trap raised in a core: its EVPEND bit, with the trap value latched when the bit is set [06 R155]. -/
def Core.raise (c : Core) (bit : Nat) (tv : Word) : Core :=
  if c.evpend.getLsbD bit then c
  else { c with evpend := c.evpend ||| (1#4 <<< bit), evval := tset c.evval bit tv }

/-- An asynchronous trap raised in a core of a region. -/
def Region.raise (r : Region) (c bit : Nat) (tv : Word) : Region := r.putCore c ((r.core c).raise bit tv)

/-- The trap value of OPFAULT: context in [19:8], colour in [7:0] [06 R155]. -/
def opTval (x : BitVec 12) (k : BitVec 8) : Word := (x.setWidth 64 <<< 8) ||| k.setWidth 64

/-- A region of the state changed. -/
def State.onRegion (s : State) (slot : Nat) (f : Region → Region) : State :=
  match s.region slot with
  | none => s
  | some r => s.putRegion slot (f r)

/-- The fault record and OPFAULT trap of an operator fault at an element [07 R161]. -/
def State.opFault (s : State) (slot core elem : Nat) (x : BitVec 12) (k : BitVec 8) (fi : FaultInfo) : State :=
  match s.region slot with
  | none => s
  | some r =>
    (s.putRegion slot (r.raise core 3 (opTval x k))).record r.ten slot (elemField (r.core core) elem) x.toNat k.toNat fi

/-- A thread that traps [06 R155]: EPC, CAUSE and TVAL are set, INH becomes 1 and the pc goes to TVEC. -/
def Thread.trap (t : Thread) (code : Nat) (tv epc : Word) : Thread :=
  { t with epc := epc, cause := BitVec.ofNat 8 code, tval := tv, inh := true, pc := t.tvec &&& ~~~3#64, st := .run }

/-- Whether a thread can enter its trap handler [06 R155]. -/
def Thread.canTrap (t : Thread) : Bool := !t.inh && t.tvec &&& ~~~3#64 != 0#64

/-- A thread of a region. -/
def State.thread (s : State) (slot core thr : Nat) : Thread :=
  match s.region slot with
  | none => Thread.start thr
  | some r => (r.core core).thread thr

/-- The state with a thread written. -/
def State.putThread (s : State) (slot core thr : Nat) (t : Thread) : State :=
  s.onRegion slot (fun r => r.putCore core ((r.core core).putThread thr t))

/-- A synchronous trap of a thread: into its handler, or to HALT with a fault record of class OPFAULT and INFO1
0x100 + code [06 R155]. -/
def State.trapAt (s : State) (slot core thr : Nat) (code : Nat) (tv epc : Word) : State :=
  match s.region slot with
  | none => s
  | some r =>
    let t := (r.core core).thread thr
    if t.canTrap then s.putThread slot core thr (t.trap code tv epc)
    else
      (s.putThread slot core thr { t with st := .halt }).record r.ten slot 0xFFFF 0 0 (FaultInfo.of 9 (0x100 + code))

/-- The trap codes [06 R155]. -/
def trILLEGAL : Nat := 0
/-- MISALIGN. -/
def trMISALIGN : Nat := 1
/-- LACCESS. -/
def trLACCESS : Nat := 2
/-- XLFAULT. -/
def trXLFAULT : Nat := 3
/-- MEMERR. -/
def trMEMERR : Nat := 4
/-- TRAPI. -/
def trTRAPI : Nat := 5
/-- CSRBAD. -/
def trCSRBAD : Nat := 6

/-- The return from a trap: PC := EPC and INH := 0 [06 R155; 12 R312]. -/
def Thread.eret (t : Thread) : Thread := { t with pc := t.epc, inh := false }

/-- An asynchronous trap taken by a thread: EPC holds the next instruction, the handler is entered [06 R155]. -/
def Thread.asyncTrap (t : Thread) (bit : Nat) (tv next : Word) : Thread := t.trap (0x10 + bit) tv next

end Sys2Proof.Machine
end

