-- ==== Sys2Proof/Machine/Layout.lean ====
section
/-! DEFINITION. The layout of an address generator: layout words, stream boundaries, pieces [08 R184 to R186]. -/

namespace Sys2Proof.Machine

/-- Whether the layout accepts a word under a number [08 R184, R186]. -/
def layoutOk (num : Nat) (v : Word) : Bool :=
  num < 4 || (num == 4 && v.toNat / 16 == 0 && v.toNat < 12)

/-- A layout with a word written. -/
def Layout.put (l : Layout) (num : Nat) (v : Word) : Layout :=
  match num with
  | 0 => { l with lw0 := v }
  | 1 => { l with lw1 := v }
  | 2 => { l with lw2 := v }
  | 3 => { l with lw3 := v }
  | _ => { l with lw4 := v }

/-- The piece size of a layout. -/
def Layout.piece (l : Layout) : Nat := 2 ^ bitsAt l.lw4.toNat 0 4

/-- The extent of a level. -/
def Layout.extent (l : Layout) (j : Nat) : Nat := bitsAt l.lw1.toNat (16 * j) 16 + 1

/-- The stride of a level, sign-extended. -/
def Layout.stride (l : Layout) (j : Nat) : Word :=
  let w := if j < 2 then l.lw2 else l.lw3
  sext64 32 (w.toNat / 2 ^ (32 * (j % 2)))

/-- The number of pieces of a stream. -/
def Layout.count (l : Layout) : Nat := l.extent 0 * l.extent 1 * l.extent 2 * l.extent 3

/-- The address of piece `n` of a stream, which starts again after its last piece [08 R185]. -/
def Layout.addr (l : Layout) (n : Nat) : Word :=
  let i := n % l.count
  let i0 := i % l.extent 0
  let i1 := i / l.extent 0 % l.extent 1
  let i2 := i / (l.extent 0 * l.extent 1) % l.extent 2
  let i3 := i / (l.extent 0 * l.extent 1 * l.extent 2)
  l.lw0 + BitVec.ofNat 64 i0 * l.stride 0 + BitVec.ofNat 64 i1 * l.stride 1 +
    BitVec.ofNat 64 i2 * l.stride 2 + BitVec.ofNat 64 i3 * l.stride 3

/-- INFO1 BADCFG [15 R370]. -/
def iBADCFG : Nat := 0x42

/-- A queued layout word applied; a word that a CFG token carried and that the layout refuses is discarded with an
operator fault, and with FAULT tokens while its colour is live [08 R186]. -/
def State.applyWord (s : State) (slot core elem : Nat) (w : LayoutWord) : State :=
  match s.region slot with
  | none => s
  | some r =>
    let e := r.elem core elem
    if layoutOk w.num.toNat w.v then
      s.putRegion slot (r.putElem core elem { e with ae := { e.ae with lay := e.ae.lay.put w.num.toNat w.v } })
    else
      match w.tag with
      | none => s
      | some (x, c) =>
        let r1 := if r.isLive c then
            r.send2 core elem w.node (recHd (e.rec_ w.node)) (Token.mk0 .fault x c 9 .none) false
          else r
        (s.putRegion slot r1).opFault slot core elem x c (FaultInfo.of 9 iBADCFG)

/-- Queued layout words applied in queue order. -/
def State.applyWords (s : State) (slot core elem : Nat) : List LayoutWord → State
  | [] => s
  | w :: ws => (s.applyWord slot core elem w).applyWords slot core elem ws

/-- A stream boundary takes effect: it is counted, the queued words are applied, the counters start again
[08 R186; 12 R304]. -/
def State.boundaryNow (s : State) (slot core elem : Nat) : State :=
  match s.region slot with
  | none => s
  | some r =>
    let e := r.elem core elem
    let q := e.ae.queue
    let s1 := s.putRegion slot (r.putElem core elem
      { e with ae := { e.ae with queue := [], pos := 0, sbc := e.ae.sbc + 1, atBound := true } })
    s1.applyWords slot core elem q

/-- Whether a firing of an AE has pieces to take, or is a boundary [15 R372]. -/
def Access.real (a : Access) : Bool := a.kind != .noop

/-- A layout word enters the layout queue, or is applied at once while the AE sits at a boundary [08 R186]. -/
def State.enqueueWord (s : State) (slot core elem : Nat) (w : LayoutWord) : State :=
  match s.region slot with
  | none => s
  | some r =>
    let e := r.elem core elem
    if e.ae.atBound && !e.ae.waiting.any Access.real then s.applyWord slot core elem w
    else s.putRegion slot (r.putElem core elem { e with ae := { e.ae with queue := e.ae.queue ++ [w] } })

/-- A stream boundary made by a firing: at once when no access that started before has its pieces to take, else after
those [15 R372]. -/
def State.boundary (s : State) (slot core elem node : Nat) (x : BitVec 12) (c : BitVec 8) : State :=
  match s.region slot with
  | none => s
  | some r =>
    let e := r.elem core elem
    if !e.ae.waiting.any Access.real then s.boundaryNow slot core elem
    else s.putRegion slot (r.putElem core elem { e with ae := { e.ae with waiting := e.ae.waiting ++
      [{ kind := .boundary 0, node := node, ctx := x, colour := c, a := 0, data := [], own := 1023, pred := 1023, succ := 1023,
         num := 0, waited := false }] } })

end Sys2Proof.Machine
end

