-- ==== Sys2Proof/Machine/Num.lean ====
section
/-! DEFINITION. Number formats and rounding [10 R224 to R235, R243 to R246; 13 R334]: exact rationals, one rounding. -/

namespace Sys2Proof.Machine

/-- A decoded number: a NaN, an infinity, or a sign with an exact magnitude (the sign of zero is kept). -/
inductive FVal where
  | nan
  | inf (neg : Bool)
  | fin (neg : Bool) (q : Rat)
deriving DecidableEq, Repr

/-- 2 to a possibly negative power. -/
def pow2 (k : Int) : Rat :=
  if 0 ≤ k then ((2 ^ k.toNat : Nat) : Rat) else mkRat 1 (2 ^ (-k).toNat)

/-- floor(log2 q) of a positive rational. -/
def floorLog2 (q : Rat) : Int :=
  let k : Int := (Nat.log2 q.num.toNat : Int) - (Nat.log2 q.den : Int)
  if q < pow2 k then k - 1 else if pow2 (k + 1) ≤ q then k + 1 else k

/-- The exact signed value of a finite number; 0 otherwise. -/
def FVal.val : FVal → Rat
  | .fin true q => -q
  | .fin false q => q
  | _ => 0

/-- A finite number from an exact signed value; zero takes the given sign. -/
def FVal.ofRat (zeroNeg : Bool) (r : Rat) : FVal :=
  if r = 0 then .fin zeroNeg 0 else if r < 0 then .fin true (-r) else .fin false r

/-- Whether a number is a NaN. -/
def FVal.isNan : FVal → Bool
  | .nan => true
  | _ => false

/-- Whether a number is an infinity. -/
def FVal.isInf : FVal → Bool
  | .inf _ => true
  | _ => false

/-- Whether a number is +0 or -0. -/
def FVal.isZero : FVal → Bool
  | .fin _ q => q == 0
  | _ => false

/-- The sign bit of a number; false for a NaN. -/
def FVal.neg : FVal → Bool
  | .nan => false
  | .inf s => s
  | .fin s _ => s

/-- A floating-point format [10 R225]: exponent and fraction bits, bias, and its special encodings. -/
structure FltFmt where
  e    : Nat
  m    : Nat
  bias : Nat
  kind : Nat
deriving DecidableEq, Repr

/-- The floating formats by code [06 R136; 10 R225]; kind 0 has infinities and NaNs, 1 is E4M3, 2 has neither. -/
def fltFmt (code : Nat) : FltFmt :=
  match code with
  | 0 => ⟨8, 23, 127, 0⟩
  | 1 => ⟨8, 10, 127, 0⟩
  | 2 => ⟨8, 7, 127, 0⟩
  | 3 => ⟨5, 10, 15, 0⟩
  | 4 => ⟨4, 3, 7, 1⟩
  | 5 => ⟨5, 2, 15, 0⟩
  | 6 => ⟨3, 2, 3, 2⟩
  | 7 => ⟨2, 3, 1, 2⟩
  | _ => ⟨2, 1, 1, 2⟩

/-- The value of the bits of a format [10 R225]. -/
def FltFmt.decode (f : FltFmt) (b : Nat) : FVal :=
  let s := b / 2 ^ (f.e + f.m) % 2 == 1
  let e := b / 2 ^ f.m % 2 ^ f.e
  let m := b % 2 ^ f.m
  if f.kind == 0 && e == 2 ^ f.e - 1 then (if m == 0 then .inf s else .nan)
  else if f.kind == 1 && e == 15 && m == 7 then .nan
  else if e == 0 then .fin s ((m : Rat) * pow2 (1 - f.bias - f.m))
  else .fin s (((2 ^ f.m + m : Nat) : Rat) * pow2 ((e : Int) - f.bias - f.m))

/-- The canonical NaN of a format that has one [10 R226]. -/
def FltFmt.nanBits (f : FltFmt) : Nat :=
  if f.kind == 1 then 0x7F else (2 ^ f.e - 1) * 2 ^ f.m + 2 ^ (f.m - 1)

/-- The bits of an infinity. -/
def FltFmt.infBits (f : FltFmt) (s : Bool) : Nat :=
  (if s then 2 ^ (f.e + f.m) else 0) + (2 ^ f.e - 1) * 2 ^ f.m

/-- The bits of the largest finite magnitude [10 R225]. -/
def FltFmt.maxBits (f : FltFmt) (s : Bool) : Nat :=
  (if s then 2 ^ (f.e + f.m) else 0) +
    (if f.kind == 0 then (2 ^ f.e - 1) * 2 ^ f.m - 1
     else if f.kind == 1 then 0x7E else 2 ^ (f.e + f.m) - 1)

/-- The largest finite value [10 R225]. -/
def FltFmt.maxVal (f : FltFmt) : Rat := (f.decode (f.maxBits false)).val

/-- ESTAT bits [10 R230]. -/
def flFOVF : W32 := 1#32
/-- FNAN. -/
def flFNAN : W32 := 2#32
/-- FUFL. -/
def flFUFL : W32 := 4#32
/-- CSAT. -/
def flCSAT : W32 := 8#32
/-- CNAN. -/
def flCNAN : W32 := 16#32
/-- IOVF. -/
def flIOVF : W32 := 32#32
/-- I4RSV. -/
def flI4RSV : W32 := 64#32
/-- T2RSV. -/
def flT2RSV : W32 := 128#32
/-- SPSAT. -/
def flSPSAT : W32 := 256#32
/-- SPUFL. -/
def flSPUFL : W32 := 512#32
/-- EMPTY. -/
def flEMPTY : W32 := 1024#32
/-- ZSKIP_INF. -/
def flZSKIP : W32 := 2048#32
/-- BSNAN. -/
def flBSNAN : W32 := 4096#32

/-- Rounding modes by code [10 R231]: 0 nearest even, 1 toward zero, 2 up, 3 down, 4 stochastic with the draw `u`. -/
structure Mode where
  code : Nat
  u    : W32
deriving DecidableEq, Repr

/-- round_rne. -/
def rne : Mode := ⟨0, 0#32⟩

/-- The number of quanta of size 2^`qe` that the magnitude `q` rounds to [10 R231, R235]. -/
def roundQuanta (md : Mode) (s : Bool) (q : Rat) (qe : Int) : Nat :=
  let x := q * pow2 (-qe)
  let c := x.floor.toNat
  let d := x - (c : Rat)
  if d = 0 then c
  else match md.code with
    | 0 => if d < mkRat 1 2 then c else if mkRat 1 2 < d then c + 1 else if c % 2 == 0 then c else c + 1
    | 1 => c
    | 2 => if s then c else c + 1
    | 3 => if s then c + 1 else c
    | _ => if ((md.u.toNat : Nat) : Rat) < d * ((2 ^ 32 : Nat) : Rat) then c + 1 else c

/-- The bits of a sign and `c` quanta of size 2^`qe`, which the format can hold. -/
def FltFmt.pack (f : FltFmt) (s : Bool) (c : Nat) (qe : Int) : Nat :=
  let sg := if s then 2 ^ (f.e + f.m) else 0
  if c == 0 then sg
  else
    let l := Nat.log2 c
    let ex : Int := (l : Int) + qe
    if ex < 1 - (f.bias : Int) then sg + c
    else
      let sig := if l ≤ f.m then c * 2 ^ (f.m - l) else c / 2 ^ (l - f.m)
      sg + (ex + f.bias).toNat * 2 ^ f.m + (sig - 2 ^ f.m)

/-- The overflow result of a rounding [10 R232]. -/
def FltFmt.overflow (f : FltFmt) (md : Mode) (s : Bool) (upper : Bool) : Nat × W32 :=
  if f.kind != 0 then (f.maxBits s, flCSAT)
  else match md.code with
    | 0 => (f.infBits s, flFOVF)
    | 1 => (f.maxBits s, 0#32)
    | 2 => if s then (f.maxBits s, 0#32) else (f.infBits s, flFOVF)
    | 3 => if s then (f.infBits s, flFOVF) else (f.maxBits s, 0#32)
    | _ => if upper then (f.infBits s, flFOVF) else (f.maxBits s, 0#32)

/-- A finite nonzero magnitude rounded to a format, with its flags [10 R230 to R232]. -/
def FltFmt.roundMag (f : FltFmt) (md : Mode) (s : Bool) (q : Rat) : Nat × W32 :=
  let lg := floorLog2 q
  let qmin : Int := 1 - (f.bias : Int) - f.m
  let qu : Int := lg - f.m
  let qe := if qu < qmin then qmin else qu
  let c := roundQuanta md s q qe
  let v := (c : Rat) * pow2 qe
  if f.maxVal < v then
    f.overflow md s (q < v)
  else
    let cu := roundQuanta md s q qu
    let tiny := (cu : Rat) * pow2 qu < pow2 (1 - (f.bias : Int))
    (f.pack s c qe, if tiny && v != q then flFUFL else 0#32)

/-- A number to a floating format, with its flags [10 R232]. -/
def FltFmt.conv (f : FltFmt) (md : Mode) (x : FVal) : Nat × W32 :=
  match x with
  | .nan => if f.kind == 2 then (0, flCNAN) else (f.nanBits, 0#32)
  | .inf s => if f.kind == 0 then (f.infBits s, 0#32) else (f.maxBits s, flCSAT)
  | .fin s q => if q = 0 then (f.pack s 0 0, 0#32) else f.roundMag md s q

/-- A number to an integer between `lo` and `hi`, with its flags [10 R233]. -/
def convInt (md : Mode) (lo hi : Int) (x : FVal) : Int × W32 :=
  match x with
  | .nan => (0, flCNAN)
  | .inf s => (if s then lo else hi, flCSAT)
  | .fin s q =>
    let c : Int := (roundQuanta md s q 0 : Nat)
    let v := if s then -c else c
    if v < lo then (lo, flCSAT) else if hi < v then (hi, flCSAT) else (v, 0#32)

/-- The value of a BF16 pattern. -/
def bf16 (b : Nat) : FVal := (fltFmt 2).decode b

/-- The value of FP32 bits. -/
def f32 (b : W32) : FVal := (fltFmt 0).decode b.toNat

/-- An exact number rounded to FP32 by a mode, with flags. -/
def toF32 (md : Mode) (x : FVal) : W32 × W32 :=
  let (b, fl) := (fltFmt 0).conv md x
  (BitVec.ofNat 32 b, fl)

/-- The canonical NaN of FP32 [10 R226]. -/
def nan32 : W32 := 0x7FC00000#32

/-- The index of the CB4 code for a number over the 16 BF16 entries [10 R234]. -/
def cbCode (cb : List (BitVec 16)) (x : FVal) : Nat × W32 :=
  let es : List (Nat × FVal) := cb.zipIdx.map (fun p => (p.2, bf16 p.1.toNat))
  let fins := es.filter (fun p => match p.2 with | .fin _ _ => true | _ => false)
  let best (better : Rat → Rat → Bool) (score : FVal → Rat) : Nat :=
    (fins.foldl (fun (acc : Option (Nat × Rat)) p =>
      match acc with
      | none => some (p.1, score p.2)
      | some (i, d) => if better (score p.2) d then some (p.1, score p.2) else some (i, d)) none).elim 0 (fun r => r.1)
  match x with
  | .nan => (0, flCNAN)
  | .inf s =>
    match es.find? (fun p => p.2 == .inf s) with
    | some p => (p.1, 0#32)
    | none => (if s then best (fun a b => decide (a < b)) FVal.val else best (fun a b => decide (b < a)) FVal.val, 0#32)
  | .fin s q =>
    let v := (FVal.fin s q).val
    match fins.find? (fun p => p.2.val == v) with
    | some p => (p.1, 0#32)
    | none => (best (fun a b => decide (a < b)) (fun y => let d := v - y.val; if d < 0 then -d else d), 0#32)

/-- A two's complement value of `n` bits. -/
def sInt (n b : Nat) : Int := if b % 2 ^ n < 2 ^ (n - 1) then (b % 2 ^ n : Nat) else (b % 2 ^ n : Nat) - (2 ^ n : Nat)

/-- The number that an integer stands for; zero is +0. -/
def FVal.ofInt (i : Int) : FVal := FVal.ofRat false (i : Rat)

/-- Bits per element of a matrix operand format [10 R224]. -/
def fmtBits (code : Nat) : Nat :=
  match code with
  | 0 | 1 => 32
  | 2 | 3 | 9 => 16
  | 4 | 5 | 6 | 7 | 10 | 11 => 8
  | _ => 4

/-- Elements of `bits` bits from packed bytes [10 R224]. -/
def unpackElems (bits : Nat) : Nat → List Byte → List Nat
  | 0, _ => []
  | n + 1, bs =>
    if bits == 4 then
      match n with
      | 0 => [leNum (bs.take 1) % 16]
      | m + 1 => (leNum (bs.take 1) % 16) :: (leNum (bs.take 1) / 16) :: unpackElems bits m (bs.drop 1)
    else leNum (bs.take (bits / 8)) :: unpackElems bits n (bs.drop (bits / 8))

/-- Whether a format is of float kind [06 R136]. -/
def fmtFloat (code : Nat) : Bool := code ≤ 8 || code == 14

/-- The value in a container of a format, with I4RSV or T2RSV [10 R224 to R229]. -/
def decodeFmt (cb : List (BitVec 16)) (code b : Nat) : FVal × W32 :=
  match code with
  | 1 => ((fltFmt 1).decode (b / 2 ^ 13), 0#32)
  | 6 | 7 => ((fltFmt code).decode (b % 2 ^ 6), 0#32)
  | 9 => (FVal.ofInt (sInt 16 b), 0#32)
  | 10 => (FVal.ofInt (sInt 8 b), 0#32)
  | 11 => (FVal.ofInt (b % 256 : Nat), 0#32)
  | 12 => if b % 16 == 8 then (FVal.ofInt 0, flI4RSV) else (FVal.ofInt (sInt 4 b), 0#32)
  | 13 => (FVal.ofInt (b % 16 : Nat), 0#32)
  | 14 => (bf16 (cb.getD (b % 16) 0#16).toNat, 0#32)
  | 15 => match b % 4 with
    | 0 => (FVal.ofInt 0, 0#32)
    | 1 => (FVal.ofInt 1, 0#32)
    | 2 => (FVal.ofInt (-1), 0#32)
    | _ => (FVal.ofInt 0, flT2RSV)
  | _ => ((fltFmt code).decode b, 0#32)

/-- A number into the container of a format, with flags [10 R232 to R234]. -/
def convFmt (cb : List (BitVec 16)) (code : Nat) (md : Mode) (x : FVal) : Nat × W32 :=
  let int (n : Nat) (lo hi : Int) : Nat × W32 :=
    let (v, fl) := convInt md lo hi x
    ((v % (2 ^ n : Nat)).toNat, fl)
  match code with
  | 1 => let (b, fl) := (fltFmt 1).conv md x; (b * 2 ^ 13, fl)
  | 9 => int 16 (-32768) 32767
  | 10 => int 8 (-128) 127
  | 11 => int 8 0 255
  | 12 => int 4 (-7) 7
  | 13 => int 4 0 15
  | 14 => cbCode cb x
  | 15 => let (v, fl) := convInt md (-1) 1 x; (if v < 0 then 2 else v.toNat, fl)
  | _ => (fltFmt code).conv md x

/-- The sign of an exact zero sum [10 R231]: the addends' common sign when all are zeros of one sign, else -0 only
when rounding down. -/
def zeroSumNeg (md : Mode) (xs : List FVal) : Bool :=
  if xs.all (fun x => x.isZero && x.neg) then true
  else if xs.all (fun x => x.isZero && !x.neg) then false
  else md.code == 3

/-- An exact sum; the Bool says that a NaN arose from operands none of which was NaN [10 R231, R236]. -/
def sumF (md : Mode) (xs : List FVal) : FVal × Bool :=
  if xs.any FVal.isNan then (.nan, false)
  else if xs.any (fun x => x == .inf false) then
    (if xs.any (fun x => x == .inf true) then (.nan, true) else (.inf false, false))
  else if xs.any (fun x => x == .inf true) then (.inf true, false)
  else (FVal.ofRat (zeroSumNeg md xs) ((xs.map FVal.val).foldl (· + ·) 0), false)

/-- An exact product; the Bool as in `sumF` [10 R231]. -/
def mulF (a b : FVal) : FVal × Bool :=
  let s := xor a.neg b.neg
  match a, b with
  | .nan, _ => (.nan, false)
  | _, .nan => (.nan, false)
  | .inf _, y => if y.isZero then (.nan, true) else (.inf s, false)
  | x, .inf _ => if x.isZero then (.nan, true) else (.inf s, false)
  | .fin _ p, .fin _ q => (.fin s (p * q), false)

/-- The negation of a number. -/
def negF : FVal → FVal
  | .nan => .nan
  | .inf s => .inf (!s)
  | .fin s q => .fin (!s) q

/-- The flag word of a NaN that arose. -/
def nanFlag (b : Bool) : W32 := if b then flFNAN else 0#32

/-- An exact result rounded to FP32 with the NaN flag added. -/
def rnd32 (md : Mode) (r : FVal × Bool) : W32 × W32 :=
  let (b, fl) := toF32 md r.1
  (b, fl ||| nanFlag r.2)

/-- FP32 addition, rounded once. -/
def add32 (a b : W32) : W32 × W32 := rnd32 rne (sumF rne [f32 a, f32 b])

/-- FP32 multiplication, rounded once. -/
def mul32 (a b : W32) : W32 × W32 := rnd32 rne (mulF (f32 a) (f32 b))

/-- FP32 subtraction, rounded once. -/
def sub32 (a b : W32) : W32 × W32 := rnd32 rne (sumF rne [f32 a, negF (f32 b)])

/-- FP32 division, rounded once; 0 / 0 and inf / inf are invalid [10 R231]. -/
def divF (a b : FVal) : FVal × Bool :=
  let s := xor a.neg b.neg
  match a, b with
  | .nan, _ => (.nan, false)
  | _, .nan => (.nan, false)
  | .inf _, .inf _ => (.nan, true)
  | .inf _, _ => (.inf s, false)
  | .fin _ _, .inf _ => (.fin s 0, false)
  | .fin _ p, .fin _ q => if q = 0 then (if p = 0 then (.nan, true) else (.inf s, false)) else (.fin s (p / q), false)

/-- Order of numbers with -0 below +0; NaNs excluded [13 R333]. -/
def ltF (a b : FVal) : Bool :=
  match a, b with
  | .inf true, .inf true => false
  | .inf true, _ => true
  | _, .inf true => false
  | .inf false, _ => false
  | _, .inf false => true
  | x, y => x.val < y.val || (x.isZero && y.isZero && x.neg && !y.neg)

/-- The larger of two numbers by the order of VMAX [13 R333]. -/
def maxF (a b : FVal) : FVal :=
  if a.isNan || b.isNan then .nan else if ltF a b then b else a

/-- The smaller of two numbers by the order of VMIN [13 R333]. -/
def minF (a b : FVal) : FVal :=
  if a.isNan || b.isNan then .nan else if ltF b a then b else a

/-- One step of the stochastic-rounding generator, which is also the draw [10 R235]. -/
def srDraw (g : W32) : W32 :=
  let g1 := g ^^^ (g <<< 13)
  let g2 := g1 ^^^ (g1 >>> 17)
  g2 ^^^ (g2 <<< 5)

/-- The value of an E8M0 scale [10 R227]. -/
def e8m0 (b : Nat) : FVal := if b % 256 == 255 then .nan else .fin false (pow2 ((b % 256 : Nat) - 127))

/-- The value of a block scale of type BST or STY: 0 E8M0, 1 FP8 E5M2 [10 R227]. -/
def decodeScale (e5m2 : Bool) (b : Nat) : FVal := if e5m2 then (fltFmt 5).decode (b % 256) else e8m0 b

/-- The value of an SPF32 word [10 R243]. -/
def spfVal (w : W32) : Rat :=
  let s : Nat := w.toNat % 2 ^ 16
  if s == 0 then 0 else ((s : Nat) : Rat) * pow2 (sInt 16 (w.toNat / 2 ^ 16) - 15)

/-- spf(v) with its flags [10 R244]. -/
def spf (v : Rat) : W32 × W32 :=
  if v ≤ 0 then (0#32, 0#32)
  else
    let e0 := floorLog2 v
    let s0 := roundQuanta rne false v (e0 - 15)
    let s := if s0 == 2 ^ 16 then 2 ^ 15 else s0
    let e := if s0 == 2 ^ 16 then e0 + 1 else e0
    if 32767 < e then (0x7FFFFFFF#32, flSPSAT)
    else if e < -32768 then (0#32, flSPUFL)
    else (BitVec.ofNat 32 ((e % (2 ^ 16 : Nat)).toNat * 2 ^ 16 + s), 0#32)

/-- SPF32 from FP32 [10 R245]. -/
def spfOfF32 (w : W32) : W32 × W32 :=
  match f32 w with
  | .fin s q => if q = 0 then (0#32, 0#32) else if s then (0#32, flCNAN) else spf q
  | .inf false => (0x7FFFFFFF#32, flSPSAT)
  | _ => (0#32, flCNAN)

/-- FP32 from SPF32 [10 R245]. -/
def f32OfSpf (w : W32) : W32 × W32 := toF32 rne (.fin false (spfVal w))

/-- A rational sum of `n` terms of a series whose term `i` is `t`, next term by `nx i t`. -/
def series (nx : Nat → Rat → Rat) : Nat → Nat → Rat → Rat → Rat
  | 0, _, _, acc => acc
  | n + 1, i, t, acc => series nx n (i + 1) (nx i t) (acc + t)

/-- A lower bound of ln 2, within 2^-66: 2 times the series of artanh(1/3). -/
def ln2Lo : Rat := 2 * series (fun i t => t * mkRat (2 * i + 1) ((2 * i + 3) * 9)) 21 0 (mkRat 1 3) 0

/-- An upper bound of ln 2. -/
def ln2Hi : Rat := ln2Lo + pow2 (-64)

/-- Bounds of 2^f for 0 ≤ f < 1, within 2^-60, by the exponential series. -/
def exp2Bounds (f : Rat) : Rat × Rat :=
  let e (x : Rat) : Rat := series (fun i t => t * x / ((i + 1 : Nat) : Rat)) 22 0 1 0
  (e (f * ln2Lo), e (f * ln2Hi) + pow2 (-62))

/-- Whether `y` lies within relative distance 2^-22 of every number between the bounds. -/
def within22 (y lo hi : Rat) : Bool :=
  (1 - pow2 (-22)) * hi ≤ y && y ≤ (1 + pow2 (-22)) * lo

/-- VEXP2 of one lane with its flags [10 R246]. -/
def vexp2 (x : W32) : W32 × W32 :=
  match f32 x with
  | .nan => (nan32, 0#32)
  | .inf s => (if s then 0#32 else 0x7F800000#32, 0#32)
  | .fin s q =>
    let v := (FVal.fin s q).val
    if 128 ≤ v then (0x7F800000#32, flFOVF)
    else if v < -150 then (0#32, flFUFL)
    else
      let n := v.floor
      let f := v - (n : Rat)
      let (lo, hi) := exp2Bounds f
      let p := pow2 n
      let c := Config.exp2Result x
      let cv := (f32 c).val
      let good := match f32 c with | .fin _ _ => true | _ => false
      if -126 ≤ v then
        if f = 0 then toF32 rne (.fin false p)
        else if good && within22 cv (lo * p) (hi * p) then (c, 0#32)
        else ((toF32 rne (.fin false (lo * p))).1, 0#32)
      else
        let t := pow2 (-149)
        let y := if good && 0 ≤ cv && cv - t ≤ lo * p && hi * p ≤ cv + t then c
          else (toF32 rne (.fin false (lo * p))).1
        (y, if f = 0 && (f32 y).val = p then 0#32 else flFUFL)

/-- Bounds of log2 m for 1 ≤ m < 2, within 2^-60, by the series of artanh. -/
def log2Bounds (m : Rat) : Rat × Rat :=
  let z := (m - 1) / (m + 1)
  let l := 2 * series (fun i t => t * z * z * mkRat (2 * i + 1) (2 * i + 3)) 21 0 z 0
  (l / ln2Hi, (l + pow2 (-63)) / ln2Lo)

/-- VLOG2 of one lane with its flags [13 R334]. -/
def vlog2 (x : W32) : W32 × W32 :=
  match f32 x with
  | .nan => (nan32, 0#32)
  | .inf s => if s then (nan32, flFNAN) else (0x7F800000#32, 0#32)
  | .fin s q =>
    if q = 0 then (0xFF800000#32, 0#32)
    else if s then (nan32, flFNAN)
    else
      let n := floorLog2 q
      let m := q / pow2 n
      if m = 1 then toF32 rne (FVal.ofRat false (n : Rat))
      else
        let (lo, hi) := log2Bounds m
        let a := (n : Rat) + lo
        let b := (n : Rat) + hi
        let c := Config.log2Result x
        let cv := (f32 c).val
        let fin := match f32 c with | .fin _ _ => true | _ => false
        let tol : Rat := if mkRat 1 2 ≤ q && q < 2 then pow2 (-22)
          else pow2 (-22) * (if a < 0 then -b else a)
        if fin && b - tol ≤ cv && cv ≤ a + tol then (c, 0#32)
        else ((toF32 rne (FVal.ofRat false a)).1, 0#32)

/-- VRCP of one lane with its flags [13 R334]. -/
def vrcp (x : W32) : W32 × W32 :=
  match f32 x with
  | .nan => (nan32, 0#32)
  | .inf s => (if s then 0x80000000#32 else 0#32, 0#32)
  | .fin s q => if q = 0 then (if s then 0xFF800000#32 else 0x7F800000#32, 0#32) else toF32 rne (.fin s (1 / q))

/-- The integer square root by binary digits, the highest tried first. -/
def isqrt : Nat → Nat → Nat → Nat
  | 0, _, r => r
  | k + 1, n, r => isqrt k n (if (r + 2 ^ k) * (r + 2 ^ k) ≤ n then r + 2 ^ k else r)

/-- A lower approximation of x^(-1/2) within 2^-30 relative. -/
def rsqApprox (q : Rat) : Rat :=
  let h := (floorLog2 q) / 2
  let y := 1 / (q * pow2 (-2 * h))
  ((isqrt 40 ((y * pow2 (64 : Int)).floor.toNat) 0 : Nat) : Rat) * pow2 (-32 - h)

/-- VRSQ of one lane with its flags [13 R334]. -/
def vrsq (x : W32) : W32 × W32 :=
  match f32 x with
  | .nan => (nan32, 0#32)
  | .inf s => if s then (nan32, flFNAN) else (0#32, 0#32)
  | .fin s q =>
    if q = 0 then (if s then 0xFF800000#32 else 0x7F800000#32, 0#32)
    else if s then (nan32, flFNAN)
    else
      let n := floorLog2 q
      if q = pow2 n && n % 2 = 0 then toF32 rne (.fin false (pow2 (-n / 2)))
      else
        let c := Config.rsqResult x
        let cv := (f32 c).val
        let e := pow2 (-22)
        if 0 < cv && (1 - e) * (1 - e) ≤ cv * cv * q && cv * cv * q ≤ (1 + e) * (1 + e) then (c, 0#32)
        else ((toF32 rne (.fin false (rsqApprox q))).1, 0#32)

end Sys2Proof.Machine
end

