-- ==== Sys2Proof/Machine/Fire.lean ====
section
/-! DEFINITION. Firings: finding a unit's operands, NIL, FAULT and EOS, consuming, emitting, operator faults
[07 R158 to R162; 13 R315 to R317]. -/

namespace Sys2Proof.Machine

/-- A firing that starts: where, on which tag and row, the record's header, the region and element after the operands
are consumed, and the operands. -/
structure Fire where
  slot   : Nat
  core   : Nat
  elem   : Nat
  node   : Nat
  ctx    : BitVec 12
  colour : BitVec 8
  h      : NodeHd
  r      : Region
  e      : Elem
  a      : Token
  b      : Token
  p      : Token
  vz     : Bool
deriving DecidableEq, Repr

/-- How a firing goes [07 R161; 13 R316]. -/
inductive FireCls where
  | normal
  | nil
  | eos
  | fault (aux : BitVec 8)
deriving DecidableEq, Repr

/-- An absent operand. -/
def Token.absent : Token := Token.mk0 .nil 0 0 0 .none

/-- Whether a tile that a node passes on is a zero tile: every element +0 or -0 in a format of its container [07 R179] (log 50). -/
def Elem.zeroTile (e : Elem) (t : Token) : Bool :=
  t.kind == .tile &&
    (let n := e.rows * e.cols
     match [32, 16, 8, 4].find? (fun w => w * n == 8 * t.bytes.length) with
     | none => false
     | some w =>
       let fs := (List.range 16).filter (fun c => fmtBits c == w)
       let c := fs.getD (Config.passFormat w % fs.length) 0
       (unpackElems w n t.bytes).all (fun v => (decodeFmt e.codebook c v).1.isZero))

/-- A virtual zero as a tile of +0 of the element's shape [07 R180]. -/
def Elem.zeroTok (e : Elem) (t : Token) : Token :=
  if t.kind == .zero then { t with kind := .tile, pay := .bytes (List.replicate (4 * e.rows * e.cols) 0#8) } else t

/-- The operands of a unit at the ports of a match mode; none while one is missing. -/
def Elem.operands (e : Elem) (node : Nat) (x : BitVec 12) (c : BitVec 8) (row : BitVec 5) :
    List (BitVec 2) → Option (List (BitVec 2 × Token))
  | [] => some []
  | p :: ps =>
    match e.operand node p x c row, e.operands node x c row ps with
    | some t, some r => some ((p, t) :: r)
    | _, _ => none

/-- The FAULT token at the lowest port of a unit that fires at once and alone, whatever its port holds before it: at a dyadic or triadic
node one that is not sticky, since a firing needs an operand that is not sticky [07 R159, R161] (log 46). -/
def Elem.faultOperand (e : Elem) (node : Nat) (mono : Bool) (x : BitVec 12) (c : BitVec 8) (row : BitVec 5) :
    List (BitVec 2) → Option (BitVec 2 × Token)
  | [] => none
  | p :: ps =>
    match e.pool.find? (fun y => y.at_ node p && y.tok.kind == .fault && y.tok.ctx == x && y.tok.row == row &&
        (if y.tok.act == 1#2 then mono else y.tok.colour == c)) with
    | some y => some (p, y.tok)
    | none => e.faultOperand node mono x c row ps

/-- How a complete unit of a match mode fires: a FAULT operand first (the lowest port's AUX), then NIL, then EOS, then a
suppressed firing [07 R160, R161; 13 R316]. -/
def unitClass (mm : BitVec 2) (l : List (BitVec 2 × Token)) : FireCls :=
  match l.find? (fun x => x.2.kind == .fault) with
  | some x => .fault x.2.aux
  | none =>
    if l.any (fun x => x.2.kind == .nil) then .nil
    else if l.any (fun x => x.2.kind == .eos) then .eos
    else if mm == 2#2 && l.any (fun x => x.1 == 2#2 && x.2.kind == .scalar && !x.2.value.getLsbD 0) then .nil
    else .normal

/-- The region and element after operands are consumed, with the counts subtracted [07 R159, R164]. -/
def Region.consume (r : Region) (c el node : Nat) (mono : Bool) : List (BitVec 2 × Token) → Region
  | [] => r
  | (p, t) :: rest =>
    let e := (r.elem c el).consume node mono p t
    let e1 := if t.act == 2#2 then e.purgeSticky node p t.ctx else e
    let r1 := r.putElem c el e1
    let r2 := if t.spent && !(mono && t.act == 1#2) then r1.count c t.colour (-1) else r1
    r2.consume c el node mono rest

/-- The operand found at a port, or an absent one. -/
def opAt (l : List (BitVec 2 × Token)) (p : BitVec 2) : Token :=
  match l.find? (fun x => x.1 == p) with
  | some x => x.2
  | none => Token.absent

/-- The arbiter's state after a firing of a node, and the idle count restarted [07 R162, R173]. -/
def Region.fired_ (r : Region) (c el node : Nat) (yld : Bool) : Region :=
  let e := r.elem c el
  let a := e.arb
  let r1 := r.putElem c el { e with arb := { cur := node, run := if a.cur == node then a.run + 1 else 1, yld := yld, at_ := some r.now } }
  r1.alive

/-- Whether the arbiter of an element may start a firing in this clk: no marker waits, none has started in the clk, and on a throttled die
the clk is even [01 R13; 07 R162]. -/
def State.mayFire (s : State) (r : Region) (core elem : Nat) : Bool :=
  let e := r.elem core elem
  e.markers.isEmpty && e.arb.at_ != some r.now && !(s.mg.throttle.contains (r.core core).die && r.now % 2 == 1)

/-- The firing of the focus, if its operands are there: its class, the firing, and the region with the operands
consumed.  A FAULT operand that is not sticky fires at once and alone [07 R161]. -/
def State.startFiring (s : State) (h : NodeHd) : Option (FireCls × Fire) :=
  let fo := s.focus
  match s.region fo.slot with
  | none => none
  | some r =>
    let e := r.elem fo.core fo.elem
    let row := fo.row.getD 0
    let ports := mmPorts h.mm
    let mono := h.mm == 0#2
    let mk (l : List (BitVec 2 × Token)) : Fire :=
      let r1 := (r.consume fo.core fo.elem fo.node mono l).fired_ fo.core fo.elem fo.node (h.yld == 1#1)
      { slot := fo.slot, core := fo.core, elem := fo.elem, node := fo.node, ctx := fo.ctx, colour := fo.colour, h := h, r := r1,
        e := r1.elem fo.core fo.elem, a := opAt l 0, b := opAt l 1, p := opAt l 2,
        vz := l.any (fun x => x.2.kind == .zero) }
    if !r.acts || !e.used then none
    else match e.faultOperand fo.node mono fo.ctx fo.colour row ports with
      | some (p, t) => some (.fault t.aux, mk [(p, t)])
      | none =>
        match e.operands fo.node fo.ctx fo.colour row ports with
        | none => none
        | some l =>
          if !mono && l.all (fun x => x.2.act == 1#2) then none
          else some (unitClass h.mm l, mk l)

/-- The firing with the region changed. -/
def Fire.withR (f : Fire) (r : Region) : Fire := { f with r := r, e := r.elem f.core f.elem }

/-- The firing with its element changed. -/
def Fire.withE (f : Fire) (e : Elem) : Fire := f.withR (f.r.putElem f.core f.elem e)

/-- The state after a firing whose region is complete. -/
def Fire.finish (f : Fire) (s : State) : State := s.putRegion f.slot f.r

/-- A token on the firing's tag. -/
def Fire.tok (f : Fire) (k : TokKind) (aux : BitVec 8) (p : Payload) : Token := Token.mk0 k f.ctx f.colour aux p

/-- A token sent to both destinations. -/
def Fire.emit (f : Fire) (t : Token) (zero : Bool) : Fire := f.withR (f.r.send2 f.core f.elem f.node f.h t zero)

/-- A token sent to one destination. -/
def Fire.emitTo (f : Fire) (which : Nat) (t : Token) (zero : Bool) : Fire :=
  f.withR (f.r.send f.core f.elem f.node which (if which == 0 then f.h.d0 else f.h.d1) t zero)

/-- A SCALAR sent to both destinations. -/
def Fire.emitScalar (f : Fire) (v : Word) : Fire := f.emit (f.tok .scalar 0 (.word v)) false

/-- An operator fault of a firing: FAULT tokens, the record and the OPFAULT trap [07 R161]. -/
def Fire.fault (f : Fire) (s : State) (fi : FaultInfo) : State :=
  let f1 := f.emit (f.tok .fault (BitVec.ofNat 8 fi.cls) .none) false
  (f1.finish s).opFault f.slot f.core f.elem f.ctx f.colour fi

/-- INFO1 PAYLOAD [14 R345; 15 R370]. -/
def iPAYLOAD : Nat := 0x24

/-- An operator fault of class OPFAULT with INFO1. -/
def Fire.opf (f : Fire) (s : State) (info1 : Nat) : State := f.fault s (FaultInfo.of 9 info1)

/-- The stream boundary that an EOS operand makes at an AE [08 R186]. -/
def Fire.bound (f : Fire) (s : State) : State :=
  if elemClass f.elem == 3 && (f.a.kind == .eos || f.b.kind == .eos || f.p.kind == .eos) then
    s.boundary f.slot f.core f.elem f.node f.ctx f.colour
  else s

/-- An operator fault of class OPFAULT whose INFO1 the spec does not state: a free value [13 R317] (log 17). -/
def Fire.opfOpen (f : Fire) (s : State) : State :=
  let (v, s1) := s.draw
  f.fault s1 { FaultInfo.of 9 0 with info1 := v }

/-- Whether an operand of a firing is a CFG token: no node accepts one, since at an AE it goes to the layout queue [15 R376]. -/
def Fire.hasCfg (f : Fire) : Bool := f.a.kind == .cfg || f.b.kind == .cfg || f.p.kind == .cfg

/-- A firing that takes an operand of a kind it does not accept; INFO1 is PAYLOAD at an ME, AE and XE, open elsewhere
[13 R317; 14 R345; 15 R370]. -/
def Fire.badKind (f : Fire) (s : State) : State :=
  if elemClass f.elem == 1 || elemClass f.elem == 2 then f.opfOpen s else f.opf s iPAYLOAD

/-- A firing of a node that emits NIL, EOS and FAULT by [07 R161; 13 R316], refuses a CFG token, and otherwise acts by `g`. -/
def State.fire (s : State) (h : NodeHd) (g : Fire → State) : State :=
  match s.startFiring h with
  | none => s
  | some (.fault aux, f) => f.bound ((f.emit (f.tok .fault aux .none) false).finish s)
  | some (.nil, f) => f.bound ((f.emit (f.tok .nil 0 .none) false).finish s)
  | some (.eos, f) => f.bound ((f.emit (f.tok .eos 0 .none) false).finish s)
  | some (.normal, f) => if f.hasCfg then f.badKind s else g f

/-- The AUX of an operand that is re-emitted: a VROW takes that of the L operand where that is a VROW; a row beat, FAULT or CFG token keeps its
own, and the other kinds have 0 [07 R157; 13 R315]. -/
def Fire.auxOf (f : Fire) (t : Token) : BitVec 8 :=
  match t.kind with
  | .vrow => if f.a.kind == .vrow then f.a.aux else t.aux
  | .arow | .fault | .cfg => t.aux
  | _ => 0

/-- An operand re-emitted: its kind and payload on the firing's tag, as a consume token [13 R315]. -/
def Fire.copy (f : Fire) (t : Token) : Token := f.tok t.kind (f.auxOf t) t.pay

/-- The outcome of a meaning. -/
abbrev Out := Host.Outcome State Fault Refusal

end Sys2Proof.Machine
end

