-- ==== Sys2Proof/Machine/FabricSend.lean ====
section
/-! DEFINITION. Sending fabric packets: routes, connections, custody [02 R35 to R44; 01 R30, R31]. -/

namespace Sys2Proof.Machine

/-- This device's coordinates as a SRC field [02 R411]. -/
def State.self (s : State) : BitVec 8 := s.mg.x ++ s.mg.y

/-- x of a device. -/
def devX (d : BitVec 8) : Nat := d.toNat / 16
/-- y of a device. -/
def devY (d : BitVec 8) : Nat := d.toNat % 16
/-- A device from its coordinates. -/
def devOf (x y : Nat) : BitVec 8 := BitVec.ofNat 8 (16 * (x % 16) + y % 16)

/-- Whether a device lies inside the domain [02 R411]. -/
def State.inDomain (s : State) (d : BitVec 8) : Bool := devX d ≤ s.mg.dx.toNat && devY d ≤ s.mg.dy.toNat

/-- A Triwin port at reset. -/
def TriPort.off : TriPort := { up := false, ualink := false, errs := 0 }

/-- A Triwin port. -/
def State.port (s : State) (n : Nat) : TriPort := tget s.fb.ports TriPort.off n

/-- The physical port that stands for a port: a spare that TRIMAP puts in its place, or itself [01 R30, R31]. -/
def State.physPort (s : State) (n : Nat) : Nat :=
  let w := s.mg.trimap.toNat
  if bitsAt w 5 1 == 1 && bitsAt w 0 5 == n then 30
  else if bitsAt w 13 1 == 1 && bitsAt w 8 5 == n then 31
  else n

/-- The port toward a row or column peer [01 R30]; none for another device. -/
def State.portTo (s : State) (d : BitVec 8) : Option Nat :=
  let x := s.mg.x.toNat
  let y := s.mg.y.toNat
  if devY d == y && devX d != x then some (if devX d < x then devX d else devX d - 1)
  else if devX d == x && devY d != y then some (15 + (if devY d < y then devY d else devY d - 1))
  else none

/-- The physical port toward a peer whose link is up, in Triwin mode [01 R31, R32; 02 R38]. -/
def State.livePort (s : State) (d : BitVec 8) : Option Nat :=
  match s.portTo d with
  | none => none
  | some n =>
    let q := s.physPort n
    if (s.port q).up && !(s.port q).ualink then some q else none

/-- The next device of the row-first path from a device to another [02 R38]. -/
def rowFirstFrom (a d : BitVec 8) : BitVec 8 := if devX d != devX a then devOf (devX d) (devY a) else d

/-- The next hop of the row-first path from this device [02 R38]. -/
def State.rowFirst (s : State) (d : BitVec 8) : BitVec 8 := if devX d != s.mg.x.toNat then devOf (devX d) s.mg.y.toNat else d

/-- Whether a link between two other devices is up, as far as this device has been told (log 6). -/
def State.farUp (s : State) (a b : BitVec 8) : Bool := a == b || !s.fb.downs.any (fun l => l == (a, b) || l == (b, a))

/-- Whether the link between two devices is up: one of this device's own by its port, another as this device has been told [02 R38] (log 6). -/
def State.linkUp (s : State) (a b : BitVec 8) : Bool :=
  if a == b then true
  else if a == s.self then (s.livePort b).isSome
  else if b == s.self then (s.livePort a).isSome
  else s.farUp a b

/-- Whether every link of the row-first path from a device to another is up [02 R38]. -/
def State.restUp (s : State) (a d : BitVec 8) : Bool := s.linkUp a (rowFirstFrom a d) && s.linkUp (rowFirstFrom a d) d

/-- The detour devices of this device's row and column, other than itself and the destination [02 R38], in the order that the rotation runs
over: the row by ascending x, then the column by ascending y (log 6). -/
def State.detours (s : State) (d : BitVec 8) : List (BitVec 8) :=
  let x := s.mg.x.toNat
  let y := s.mg.y.toNat
  (((List.range (s.mg.dx.toNat + 1)).map (fun i => devOf i y)) ++ ((List.range (s.mg.dy.toNat + 1)).map (fun j => devOf x j))).filter
    (fun i => i != s.self && i != d)

/-- A route: the physical port of the first link, and the VIA device of a detour. -/
structure Path where
  port   : Nat
  via    : Option (BitVec 8)
  detour : Bool

/-- The bytes of a packet on a link: its header and its payload [02 R35]. -/
def pktBytes (p : Packet) : Nat := 16 + p.data.length

/-- The bytes of a class queued at an output port [02 R38]. -/
def State.queued (s : State) (port : Nat) (tc : BitVec 3) : Nat :=
  (s.fb.out.filter (fun q => q.port == port && q.pkt.tc == tc)).foldl (fun n q => n + pktBytes q.pkt) 0

/-- DETQ [02 R38]. -/
def detq : Nat := 65536

/-- The port of a first link that is up and, where asked, holds less than DETQ bytes queued in the class [02 R38]. -/
def State.firstLink (s : State) (tc : BitVec 3) (room : Bool) (h : BitVec 8) : Option Nat :=
  match s.livePort h with
  | some q => if room && detq ≤ s.queued q tc then none else some q
  | none => none

/-- The first usable path of a class toward a device [02 R38]: row first; column first, whose next hop continues row first; a detour.
`room` asks for room in the first link's queue. -/
def State.path (s : State) (d : BitVec 8) (tc : BitVec 3) (room : Bool) : Option Path :=
  let row := s.rowFirst d
  let col := devOf s.mg.x.toNat (devY d)
  let ds := s.detours d
  let rot := ds.drop (s.fb.rotate % ds.length) ++ ds.take (s.fb.rotate % ds.length)
  match (if s.linkUp row d then s.firstLink tc room row else none) with
  | some q => some ⟨q, none, false⟩
  | none =>
    match (if devX d != s.mg.x.toNat && devY d != s.mg.y.toNat && s.linkUp col d then s.firstLink tc room col else none) with
    | some q => some ⟨q, none, false⟩
    | none => rot.findSome? (fun i => if s.restUp i d then (s.firstLink tc room i).map (fun q => ⟨q, some i, true⟩) else none)

/-- Whether a traffic class is ordered [02 R36]. -/
def tcOrdered (tc : BitVec 3) : Bool := tc != 2#3 && tc != 4#3

/-- Whether a traffic class uses connections [02 R37]. -/
def State.tcConn (s : State) (tc : BitVec 3) : Bool := bitsAt s.mg.tccfg.toNat (4 * tc.toNat + 3) 1 == 1

/-- The K in effect: a written one from its due time on [02 R46]. -/
def State.vwNow (s : State) : BitVec 5 :=
  match s.mg.vwNext with
  | some (k, due) => if due ≤ s.time then k else s.mg.vwK
  | none => s.mg.vwK

/-- The visibility window number now [02 R44]. -/
def State.window (s : State) : Nat := s.time / 2 ^ s.vwNow.toNat

/-- A packet from this device with its length fields and pad [02 R35]. -/
def State.packet (s : State) (dst : BitVec 8) (tc : BitVec 3) (ten : Nat) (kind : BitVec 4) (opq : BitVec 40) (data : List Byte) :
    Packet :=
  let n := data.length
  let units := (n + 31) / 32
  { dst := dst, src := s.self, via := 0, vv := 0, tc := tc, ten := BitVec.ofNat 4 ten, rsv := 0, seq := 0, kind := kind,
    len := BitVec.ofNat 6 (units - 1), np := if n == 0 then 1 else 0, pad := BitVec.ofNat 5 (32 * units - n),
    win := BitVec.ofNat 8 s.window, opq := opq, data := data ++ List.replicate (32 * units - n) 0#8, hop := 0 }

/-- The content of a packet: what its header says of its payload, without the pad [02 R35]. -/
def pktContent (p : Packet) : List Byte :=
  if p.np == 1#1 then [] else (p.data ++ List.replicate 2048 0#8).take (32 * (p.len.toNat + 1) - p.pad.toNat)

/-- The two header words of a packet [02 R35]. -/
def pktHead (p : Packet) : List Byte :=
  leOf 8 (p.dst.toNat * 2 ^ 56 + p.src.toNat * 2 ^ 48 + p.via.toNat * 2 ^ 40 + p.vv.toNat * 2 ^ 39 + p.tc.toNat * 2 ^ 36 +
    p.ten.toNat * 2 ^ 32 + p.rsv.toNat * 2 ^ 16 + p.seq.toNat) ++
  leOf 8 (p.kind.toNat * 2 ^ 60 + p.len.toNat * 2 ^ 54 + p.np.toNat * 2 ^ 53 + p.pad.toNat * 2 ^ 48 + p.win.toNat * 2 ^ 40 + p.opq.toNat)

/-- A packet from its header words and payload [02 R35]. -/
def pktOf (b : List Byte) : Packet :=
  let w := leNum (b.take 8)
  let v := leNum ((b.drop 8).take 8)
  { dst := BitVec.ofNat 8 (bitsAt w 56 8), src := BitVec.ofNat 8 (bitsAt w 48 8), via := BitVec.ofNat 8 (bitsAt w 40 8),
    vv := BitVec.ofNat 1 (bitsAt w 39 1), tc := BitVec.ofNat 3 (bitsAt w 36 3), ten := BitVec.ofNat 4 (bitsAt w 32 4),
    rsv := BitVec.ofNat 16 (bitsAt w 16 16), seq := BitVec.ofNat 16 (bitsAt w 0 16), kind := BitVec.ofNat 4 (bitsAt v 60 4),
    len := BitVec.ofNat 6 (bitsAt v 54 6), np := BitVec.ofNat 1 (bitsAt v 53 1), pad := BitVec.ofNat 5 (bitsAt v 48 5),
    win := BitVec.ofNat 8 (bitsAt v 40 8), opq := BitVec.ofNat 40 (bitsAt v 0 40), data := b.drop 16, hop := 0 }

/-- A fault notice and other control message kinds in OPQ[7:0] (log 13): 0 custody ack, 1 delivery ack, 2 connection ack,
3 error notice, 4 HOLD, 5 RESUME, 6 ABORT, 7 ARMED, 8 end ack. -/
def opqKind (p : Packet) : Nat := p.opq.toNat % 256

/-- Whether a packet is itself an acknowledgement, which nothing acknowledges (log 13). -/
def isAck (p : Packet) : Bool := p.kind == 7#4 && opqKind p ≤ 2

/-- The state with its fabric side changed. -/
def State.withFb (s : State) (f : Fabric → Fabric) : State := { s with fb := f s.fb }

/-- A packet queued at an output port, with a custody copy in a custody class [02 R37, R41]. -/
def State.putOut (s : State) (p : Packet) (port resent : Nat) : State :=
  s.withFb (fun f => { f with
    out := f.out ++ [⟨port, p, s.time⟩], custody := if s.tcConn p.tc || isAck p then f.custody else f.custody ++ [⟨p, port, resent, s.time⟩] })

/-- A packet held for a link, or (port 32) for want of a usable path [02 R38, R40]. -/
def State.hold (s : State) (p : Packet) (port resent : Nat) : State :=
  s.withFb (fun f => { f with held := f.held ++ [⟨p, port, s.time, resent⟩] })

/-- A packet sent along its path, or held while its first link is down or no path is usable [02 R39 to R41]; a detour is marked in the
header and moves the starting point of the next [02 R35, R38].  With no usable path it is held at port 32, to be routed again when a link, a
queue or a route changes (log 6). -/
def State.launchPkt (s : State) (p : Packet) (path : Option Path) : State :=
  match path with
  | none => s.hold p 32 0
  | some pa =>
    let q := { p with via := pa.via.getD 0, vv := if pa.via.isSome then 1 else 0 }
    let s1 := if pa.detour then s.withFb (fun f => { f with rotate := f.rotate + 1 }) else s
    let t := s.port pa.port
    if t.up && !t.ualink then s1.putOut q pa.port 0 else s1.hold q pa.port 0

/-- The path kept by a flow of an ordered class with an outstanding packet [02 R39]. -/
def State.flowPath (s : State) (p : Packet) : Option Path :=
  (s.fb.flows.find? (fun f => f.dst == p.dst && f.tc == p.tc && f.ten == p.ten)).map (fun f => ⟨f.port, f.via, false⟩)

/-- Whether a flow of this device has a packet that waits for its end-to-end confirmation [02 R39]. -/
def State.flowBusy (s : State) (p : Packet) : Bool :=
  s.fb.conns.any (fun c => c.peer == p.dst && c.ten == p.ten && c.unack.any (fun u => u.tc == p.tc)) ||
    s.fb.undeliv.any (fun u => u.dst == p.dst && u.tc == p.tc && u.ten == p.ten)

/-- The flow of a packet without its kept path. -/
def State.dropFlow (s : State) (p : Packet) : State :=
  s.withFb (fun f => { f with flows := f.flows.filter (fun g => !(g.dst == p.dst && g.tc == p.tc && g.ten == p.ten)) })

/-- Whether an earlier packet of a flow waits for a usable path. -/
def State.flowWaits (s : State) (p : Packet) : Bool :=
  s.fb.held.any (fun h => h.port == 32 && h.pkt.src == p.src && h.pkt.dst == p.dst && h.pkt.tc == p.tc && h.pkt.ten == p.ten)

/-- The path of a packet that this device sends; an ordered flow keeps its path while a packet of it is outstanding, and its packets wait
in order for a path [02 R38, R39]. -/
def State.sendPkt (s : State) (p : Packet) : State :=
  if !tcOrdered p.tc then s.launchPkt p (s.path p.dst p.tc true)
  else
    let s1 := if s.flowBusy p then s else s.dropFlow p
    match s1.flowPath p with
    | some pa => s1.launchPkt p (some pa)
    | none =>
      match (if s1.flowWaits p then none else s1.path p.dst p.tc true) with
      | none => s1.launchPkt p none
      | some a => (s1.withFb (fun f => { f with flows := f.flows ++ [⟨p.dst, p.tc, p.ten, a.port, a.via⟩] })).launchPkt p (some a)

/-- The connection with a peer for a tenant [02 R42]. -/
def State.conn (s : State) (peer : BitVec 8) (ten : BitVec 4) : Option Conn :=
  s.fb.conns.find? (fun c => c.peer == peer && c.ten == ten)

/-- A connection that has not been used. -/
def Conn.fresh (peer : BitVec 8) (ten : BitVec 4) (now : Nat) : Conn :=
  { peer := peer, ten := ten, nextSq := 0, unack := [], fails := 0, sentAt := now, expect := 0, owed := 0, owedAt := now, openC := true,
    here := true, used := now }

/-- The connections in port SRAM: at most 1,024; the least recently used one is written out for another [02 R43]. -/
def makeRoom (cs : List Conn) : List Conn :=
  let res := cs.filter (fun c => c.here)
  if res.length < 1024 then cs
  else
    let least := res.foldl (fun m c => if c.used < m then c.used else m) (res.headD (Conn.fresh 0 0 0)).used
    let pick := res.find? (fun c => c.used == least)
    cs.map (fun c => if some c == pick then { c with here := false } else c)

/-- The connection of a peer and tenant written, made when there is none. -/
def State.putConn (s : State) (c : Conn) : State :=
  s.withFb (fun f =>
    if f.conns.any (fun d => d.peer == c.peer && d.ten == c.ten) then
      { f with conns := f.conns.map (fun d => if d.peer == c.peer && d.ten == c.ten then c else d) }
    else { f with conns := makeRoom f.conns ++ [c] })

/-- A packet of a connection class: it takes the next SEQ, or waits while 256 packets are unacknowledged, its connection lies in memory,
or an earlier packet of its connection waits [02 R36, R42, R43]. -/
def State.sendConn (s : State) (p : Packet) : State :=
  let c := (s.conn p.dst p.ten).getD (Conn.fresh p.dst p.ten s.time)
  if !c.here || 256 ≤ c.unack.length || s.fb.awaits.any (fun w => w.dst == p.dst && w.ten == p.ten) then
    (s.putConn c).withFb (fun f => { f with awaits := f.awaits ++ [p] })
  else
    let q := { p with seq := c.nextSq }
    let c1 := { c with openC := true, nextSq := c.nextSq + 1, unack := c.unack ++ [q], used := s.time,
                       sentAt := if c.unack.isEmpty then s.time else c.sentAt }
    (s.sendPkt q).putConn c1

/-- Whether a packet is a request that a fabric port has held for 1.5 ms [08 R193]: one of this device since it left its memory edge, one of
another device since it came to the port at a time. -/
def State.expired (s : State) (p : Packet) (since : Nat) : Bool :=
  (p.kind == 0#4 || p.kind == 1#4 || p.kind == 3#4) && p.tc != 5#3 &&
    (let t := if p.src == s.self then ((s.fb.remotes.find? (fun m => m.opq == p.opq)).map (fun m => m.req.at_)).getD since else since
     decide (1500000 ≤ s.time - t))

/-- The fabric ports without the requests that they have held for 1.5 ms: queued, waiting for a connection or a link, and their copies for
custody [08 R193]. -/
def State.dropExpired (s : State) : State :=
  let gone := (s.fb.out.filter (fun q => s.expired q.pkt q.at_)).map (fun q => (q.port, q.pkt))
  s.withFb (fun f => { f with
    out := f.out.filter (fun q => !s.expired q.pkt q.at_)
    awaits := f.awaits.filter (fun p => !s.expired p s.time)
    held := f.held.filter (fun h => !s.expired h.pkt h.at_)
    custody := f.custody.filter (fun c => !(s.expired c.pkt s.time || gone.contains (c.port, c.pkt)))
    undeliv := f.undeliv.filter (fun p => !s.expired p s.time) })

/-- Packets that wait for their connection tried again, in order [02 R42, R43]. -/
def State.flushAwaits (s : State) : State :=
  let s1 := s.dropExpired
  s1.fb.awaits.foldl (fun s p => s.sendConn p) (s1.withFb (fun f => { f with awaits := [] }))

/-- A packet sent by this device. -/
def State.send (s : State) (p : Packet) : State :=
  if s.tcConn p.tc then s.sendConn p
  else
    let owes := !isAck p && (tcOrdered p.tc || p.kind == 0#4)
    (s.sendPkt p).withFb (fun f => { f with undeliv := if owes then f.undeliv ++ [p] else f.undeliv })

/-- A control packet of TC0 [02 R36] to a device. -/
def State.sendCtl (s : State) (dst : BitVec 8) (ten : Nat) (opq : BitVec 40) (data : List Byte) : State :=
  s.send (s.packet dst 0 ten 7 opq data)

/-- An error notice for a packet, sent to its source with a status: 0 UNREACH, 1 REFUSED, 2 REROUTE, 3 BADPKT, 4 ORDER,
5 FORMAT [02 R35, R40, R41, R49]; the packet goes with it, its content cut at 2,016 bytes (log 13). -/
def State.notice (s : State) (p : Packet) (status : Nat) : State :=
  s.sendCtl p.src p.ten.toNat 3 (leOf 16 status ++ pktHead p ++ (pktContent p).take 2016)

/-- What names a packet in its acknowledgements: SRC, DST, TC, TEN, KIND and OPQ (log 13). -/
def pktId (p : Packet) : List Byte :=
  leOf 1 p.src.toNat ++ leOf 1 p.dst.toNat ++ leOf 1 p.tc.toNat ++ leOf 1 p.ten.toNat ++ leOf 1 p.kind.toNat ++ leOf 5 p.opq.toNat

/-- What a reply says: the fault class or 0, LATE, the flags of an atomic, INFO1 of a target-side fault, and whether a memory gave it
(log 13). -/
structure ReplyHead where
  cls   : Nat
  late  : Bool
  flags : BitVec 2
  info1 : Word
  mem   : Bool := false
deriving DecidableEq, Repr

/-- The 16 bytes of a reply's head. -/
def ReplyHead.bytes (h : ReplyHead) : List Byte :=
  leOf 2 h.cls ++ leOf 1 h.late.toNat ++ leOf 1 h.flags.toNat ++ leOf 4 h.mem.toNat ++ leOf 8 h.info1.toNat

/-- A reply's head from its bytes. -/
def ReplyHead.ofBytes (b : List Byte) : ReplyHead :=
  { cls := leNum (b.take 2), late := leNum ((b.drop 2).take 1) != 0, flags := BitVec.ofNat 2 (leNum ((b.drop 3).take 1)),
    info1 := BitVec.ofNat 64 (leNum ((b.drop 8).take 8)), mem := leNum ((b.drop 4).take 4) != 0 }

/-- A delivery ack to the source, with what a write's commit has to tell [02 R41, R45]. -/
def State.deliveryAck (s : State) (p : Packet) (h : ReplyHead) : State :=
  s.sendCtl p.src p.ten.toNat 1 (pktId p ++ leOf 6 0 ++ h.bytes)

/-- Packets held for want of a usable path routed again, in order [02 R38]. -/
def State.retryHeld (s : State) : State :=
  let s1 := s.dropExpired
  (s1.fb.held.filter (fun h => h.port == 32)).foldl (fun s h => s.sendPkt h.pkt)
    (s1.withFb (fun f => { f with held := f.held.filter (fun h => h.port != 32) }))

/-- The class that a port serves next, with the class and turn of its round robin after it: TC0 before all; a class of weight w has
w + 1 turns a round [02 R37].  A round goes through the classes 1 to 6 in ascending order, all turns of a class in succession, and the first
one starts at class 1 (log 6). -/
def State.nextClass (s : State) (port : Nat) : Nat → Nat → Nat → Option (Nat × Nat × Nat)
  | 0, _, _ => none
  | f + 1, cls, turn =>
    let has (c : Nat) : Bool := s.fb.out.any (fun q => q.port == port && q.pkt.tc.toNat == c)
    if has 0 then some (0, cls, turn)
    else if has cls && turn ≤ bitsAt s.mg.tccfg.toNat (4 * cls) 3 then some (cls, cls, turn + 1)
    else s.nextClass port f (if 6 ≤ cls then 1 else cls + 1) 0

/-- An output port whose link is up puts its next packet on the link [02 R37]; a packet of this device bears the window in which it is
sent, and its custody runs from then on [02 R41, R44]; a request held for 1.5 ms is discarded [08 R193]. -/
def State.transmit (s0 : State) (port : Nat) : State :=
  let s := s0.dropExpired
  let t := s.port port
  if !t.up || t.ualink then s
  else match s.nextClass port 8 t.cls t.turn with
    | none => s
    | some (c, cls, turn) =>
      let mine (q : OutPkt) : Bool := q.port == port && q.pkt.tc.toNat == c
      match s.fb.out.find? mine with
      | none => s
      | some o =>
        let p := o.pkt
        let q := if p.src == s.self then { p with win := BitVec.ofNat 8 s.window } else p
        (s.withFb (fun f => { f with
          ports := tset f.ports port { t with cls := cls, turn := turn }
          out := dropFirst mine f.out, wire := f.wire ++ [(port, q)]
          custody := f.custody.map (fun k => if k.pkt == p && k.port == port then { k with at_ := s.time } else k) })).retryHeld

/-- How many windows lie between a packet's window, taken nearest, and the window now: negative for an earlier window
[02 R45]. -/
def State.windowsAgo (s : State) (p : Packet) : Int :=
  let d := (p.win - BitVec.ofNat 8 s.window).toNat
  if d < 128 then (d : Int) else (d : Int) - 256

/-- A write, atomic or chunk that commits now: late at or after the second window boundary, counted in VWSTAT.LATE and recorded
as VISLATE; without SYNC its completion is marked late in any case; one on time orders window acquires from the start of window N + 2 on
[02 R45; 09 R220]. -/
def State.lateCheck (s : State) (p : Packet) : State × Bool :=
  if s.windowsAgo p ≤ -2 then
    (({ s with mg := { s.mg with vwLate := satInc32 s.mg.vwLate } }).recordOpen p.ten.toNat 0xFFFF 0xFFFF 0 0 { FaultInfo.of 0xD 0 with acc := 1 }, true)
  else
    let due := ((s.window : Int) + s.windowsAgo p + 2).toNat * 2 ^ s.vwNow.toNat
    (if s.mg.sync then { s with ms := { s.ms with winDue := some (match s.ms.winDue with | some t => if t ≤ due then t else due | none => due) } } else s,
     !s.mg.sync)

end Sys2Proof.Machine
end

