-- ==== Sys2Proof/Machine/Translate.lean ====
section
/-! DEFINITION. Memories of the device and address translation [01 R17, R23, R26; 03 R67; 04 R90 to R97]. -/

namespace Sys2Proof.Machine

/-- Fault classes [04 R99]. -/
def fcXLATE : Nat := 1
/-- PERMIT. -/
def fcPERMIT : Nat := 2
/-- APERTURE. -/
def fcAPERTURE : Nat := 3
/-- PTBAD. -/
def fcPTBAD : Nat := 4
/-- WINDOW. -/
def fcWINDOW : Nat := 5
/-- RANGE. -/
def fcRANGE : Nat := 6
/-- MEMUE. -/
def fcMEMUE : Nat := 7
/-- TIMEOUT. -/
def fcTIMEOUT : Nat := 8
/-- OPFAULT. -/
def fcOPFAULT : Nat := 9
/-- UNREACH. -/
def fcUNREACH : Nat := 0x11

/-- Reply statuses [01 R21]. -/
def stOK : Nat := 0
/-- CE. -/
def stCE : Nat := 1
/-- UE. -/
def stUE : Nat := 2
/-- RANGE. -/
def stRANGE : Nat := 3
/-- BADREQ. -/
def stBADREQ : Nat := 4
/-- CHOFF. -/
def stCHOFF : Nat := 5

/-- The first offset of a stack that translated accesses do not reach [01 R17]. -/
def stackLimit : Nat := 0xEE6B20000

/-- The memory of a stack: 0 to 7 near, 8 to 15 far [01 R16]. -/
def State.stack (s : State) (i : Nat) : Memory := tget s.ms.hbm [] i

/-- The state with its memory system changed. -/
def State.withMs (s : State) (f : MemSys → MemSys) : State := { s with ms := f s.ms }

/-- HSTAT at reset. -/
def Hstat.zero : Hstat := ⟨0, 0, 0, 0⟩

/-- The granule addresses that bytes `a` to `a + n - 1` touch. -/
def granules (a n : Nat) : List Nat := (List.range ((a + n + 31) / 32 - a / 32)).map (fun i => 32 * (a / 32 + i))

/-- Whether a channel that serves an offset of a stack is offline, or the far chain has failed [01 R25, R26]. -/
def State.offline (s : State) (stack a : Nat) : Bool :=
  if 8 ≤ stack then s.ms.farBad.contains stack
  else (tget s.ms.hoffl 0#32 stack).getLsbD (bitsAt a 8 5)

/-- The status of an access to bytes of a stack, by its granules [01 R17, R21, R25]; no step makes a granule bad: which are is part of the state
from the start (log 47). -/
def State.hbmStatus (s : State) (stack a n : Nat) : Nat :=
  if stackLimit < a + n then stRANGE
  else if (granules a n).any (fun g => s.offline stack g) then stCHOFF
  else if (granules a n).any (fun g => s.ms.ue.contains (stack, g)) then stUE
  else if (granules a n).any (fun g => s.ms.ce.contains (stack, g)) then stCE
  else stOK

/-- An ECC event counted in HSTAT [01 R26]. -/
def State.countEcc (s : State) (stack status : Nat) : State :=
  let h := tget s.ms.hstat Hstat.zero stack
  let h1 := if status == stCE then { h with cecnt := if h.cecnt == 0xFFFF#16 then h.cecnt else h.cecnt + 1 }
    else if status == stUE then { h with uecnt := if h.uecnt == 0xFF#8 then h.uecnt else h.uecnt + 1 } else h
  s.withMs (fun m => { m with hstat := tset m.hstat stack h1 })

/-- Bytes written to a stack; a whole granule written with new ECC carries no error any more, and one that is read, merged and written back
none that was corrected [01 R23, R24]. -/
def State.hbmWrite (s : State) (stack a : Nat) (b : List Byte) : State :=
  let whole (g : Nat) : Bool := a ≤ g && g + 32 ≤ a + b.length
  let part (g : Nat) : Bool := g < a + b.length && a < g + 32
  s.withMs (fun m => { m with
    hbm := tset m.hbm stack (mwrite (tget m.hbm [] stack) a b),
    ce := m.ce.filter (fun p => !(p.1 == stack && part p.2)), ue := m.ue.filter (fun p => !(p.1 == stack && whole p.2)) })

/-- Bytes of a place in memory. -/
def State.locRead (s : State) (l : Loc) (n : Nat) : List Byte :=
  match l with
  | .hbm st off => mread (s.stack st) off n
  | .cxl p off => mread (tget s.ms.cxl [] p) off n
  | .host _ a => mread s.ms.host a n
  | .peer _ _ => []

/-- Bytes written to a place in memory. -/
def State.locWrite (s : State) (l : Loc) (b : List Byte) : State :=
  match l with
  | .hbm st off => s.hbmWrite st off b
  | .cxl p off => s.withMs (fun m => { m with cxl := tset m.cxl p (mwrite (tget m.cxl [] p) off b) })
  | .host _ a => s.hostWrite a b
  | .peer _ _ => s

/-- The status of an access to a place in memory; a page that the host answers with a completer abort or as an unsupported request gives BADREQ
[12 R289] (log 47). -/
def State.locStatus (s : State) (l : Loc) (n : Nat) : Nat :=
  match l with
  | .hbm st off => s.hbmStatus st off n
  | .host f a => if s.ms.hostBad.any (fun p => p.1 == f && a / 4096 ≤ p.2 && p.2 * 4096 < a + n) then stBADREQ else stOK
  | _ => stOK

/-- The status of a write to a place: whole granules need no read; a granule that is written in part is read first [01 R21, R23, R24]. -/
def State.putStatus (s : State) (l : Loc) (n : Nat) : Nat :=
  let st := s.locStatus l n
  match l with
  | .hbm k off =>
    if stRANGE ≤ st then st
    else
      let part := (granules off n).filter (fun g => !(off ≤ g && g + 32 ≤ off + n))
      if part.any (fun g => s.ms.ue.contains (k, g)) then stUE else if part.any (fun g => s.ms.ce.contains (k, g)) then stCE else stOK
  | _ => st

/-- A place further on in memory. -/
def Loc.plus (l : Loc) (k : Nat) : Loc :=
  match l with
  | .hbm st off => .hbm st (off + k)
  | .cxl p off => .cxl p (off + k)
  | .host f a => .host f (a + k)
  | .peer d va => .peer d (va + BitVec.ofNat 64 k)

/-- Whether an enabled window of a tenant with an aperture holds a range [04 R90]. -/
def State.inWindow (s : State) (ten aper lo n : Nat) : Bool :=
  (List.range 16).any (fun w =>
    let v := (tget s.mg.twin 0#64 (16 * ten + w)).toNat
    let base := bitsAt v 24 24 * 2 ^ 21
    bitsAt v 63 1 == 1 && bitsAt v 61 2 == aper && base ≤ lo && lo + n ≤ base + bitsAt v 0 24 * 2 ^ 21)

/-- Whether a range of the physical map meets a sealed window [03 R67]. -/
def State.sealedRange (s : State) (pa n : Nat) : Bool :=
  s.mg.seals.any (fun w => pa < w.base + w.len && w.base < pa + n)

/-- What an access needs [04 R95]. -/
structure Need where
  r : Bool
  w : Bool
  a : Bool
  g : Bool
deriving DecidableEq, Repr

/-- A read. -/
def needR : Need := ⟨true, false, false, false⟩
/-- A write. -/
def needW : Need := ⟨false, true, false, false⟩
/-- A read and a write. -/
def needRW : Need := ⟨true, true, false, false⟩
/-- A remote atomic. -/
def needRWA : Need := ⟨true, true, true, false⟩
/-- A graph image. -/
def needG : Need := ⟨false, false, false, true⟩

/-- ACC of a fault record by need [04 R100]. -/
def Need.acc (n : Need) : Nat := if n.g then 3 else if n.r && n.w then 2 else if n.w then 1 else 0

/-- The page bits of a leaf at a level [04 R91]. -/
def pageBits (level : Nat) : Nat :=
  match level with
  | 0 => 31
  | 1 => 26
  | 2 => 21
  | _ => 16

/-- The index of an address at a level [04 R91]. -/
def vaIndex (level : Nat) (va : Word) : Nat := if level = 0 then bitsAt va.toNat 31 17 else bitsAt va.toNat (pageBits level) 5

/-- A translation fault: the class and the level at which the walk ended [04 R100]; a table read that returned UE or CHOFF is the memory's
[08 R197; 12 R277]. -/
def xlFault (cls : Nat) (va : Word) (acc level : Nat) : FaultInfo :=
  { cls := cls, va := va, acc := acc, info1 := BitVec.ofNat 64 level, info2 := 0, mem := cls == fcMEMUE }

/-- What one read of a walk gives [04 R92, R93]. -/
inductive WalkRes where
  | next (table : Nat)
  | leaf (entry : Word)
  | bad (cls : Nat) (info1 : Nat)
deriving DecidableEq, Repr

/-- The class of a table entry at a level: none when it is well formed [04 R93]. -/
def entryBad (level : Nat) (e : Nat) : Option Nat :=
  if bitsAt e 0 1 == 0 then some fcXLATE
  else if bitsAt e 1 1 == 0 then
    (if level == 3 || bitsAt e 40 24 != 0 || bitsAt e 2 6 != 0 then some fcPTBAD else none)
  else
    let aper := bitsAt e 2 3
    if bitsAt e 61 3 != 0 || bitsAt e 5 1 != 0 || 2 ≤ bitsAt e 10 2 || (aper != 4 && bitsAt e 12 8 != 0) ||
        bitsAt e 20 (pageBits level - 16) != 0 then some fcPTBAD
    else if 5 ≤ aper then some fcAPERTURE
    else none

/-- The stack that a device physical address lies in [01 R17]. -/
def paStack (pa : Nat) : Nat := 8 * bitsAt pa 39 1 + bitsAt pa 36 3

/-- One read of a walk: the table's place is checked, RANGE before WINDOW (log 51), the entry is read and judged [04 R91 to R93, R97]. -/
def State.walkStep (s : State) (ten level table : Nat) (va : Word) : WalkRes :=
  let size := if level = 0 then 2 ^ 20 else 256
  let far := bitsAt table 39 1
  if stackLimit < bitsAt table 0 36 + size then .bad fcRANGE level
  else if !s.inWindow ten far table size then .bad fcWINDOW level
  else
    let a := table + 8 * vaIndex level va
    let st := s.hbmStatus (paStack a) (bitsAt a 0 36) 8
    if stUE ≤ st then .bad fcMEMUE st
    else
      let e := leNum (mread (s.stack (paStack a)) (bitsAt a 0 36) 8)
      match entryBad level e with
      | some c => .bad c level
      | none => if bitsAt e 1 1 == 0 then .next (bitsAt e 8 32 * 2 ^ 8) else .leaf (BitVec.ofNat 64 e)

/-- The checks on a leaf in their order: the engine's apertures, those of [04 R94], then the permits [04 R95]; the place
reached and ORD.  That the engine's apertures come first is log 51. -/
def State.leafUse (s : State) (ten : Nat) (va : Word) (entry : Word) (level : Nat) (need : Need) (apers : Nat) (paToo : Bool) :
    Except FaultInfo (Loc × Bool) :=
  let e := entry.toNat
  let aper := bitsAt e 2 3
  let p := pageBits level
  let frame := bitsAt e 20 41 * 2 ^ 16
  let pa := frame + va.toNat % 2 ^ p
  let flt (c : Nat) : Except FaultInfo (Loc × Bool) := .error (xlFault c va need.acc level)
  let lack := (need.r && bitsAt e 6 1 == 0) || (need.w && bitsAt e 7 1 == 0) || (need.g && bitsAt e 8 1 == 0) ||
    ((need.a || (paToo && aper == 4)) && bitsAt e 9 1 == 0)
  let ok (l : Loc) (isSealed : Bool) : Except FaultInfo (Loc × Bool) :=
    if lack || (need.w && isSealed) then flt fcPERMIT else .ok (l, bitsAt e 10 2 == 1)
  if bitsAt apers aper 1 == 0 then flt fcAPERTURE
  else match aper with
    | 0 | 1 =>
      if bitsAt pa 39 1 != aper then flt fcAPERTURE
      else if pa / 2 ^ 40 != 0 || stackLimit ≤ bitsAt pa 0 36 then flt fcRANGE
      else if !s.inWindow ten aper frame (2 ^ p) then flt fcWINDOW
      else ok (.hbm (paStack pa) (bitsAt pa 0 36)) (s.sealedRange pa 1)
    | 2 =>
      if pa / 2 ^ 45 != 0 || Config.cxlCapacity (bitsAt pa 44 1) ≤ bitsAt pa 0 44 then flt fcRANGE
      else if !s.inWindow ten 2 frame (2 ^ p) then flt fcWINDOW
      else ok (.cxl (bitsAt pa 44 1) (bitsAt pa 0 44)) false
    | 3 => ok (.host (ten + 1) pa) false
    | _ =>
      let dev := BitVec.ofNat 8 (bitsAt e 12 8)
      if pa / 2 ^ 48 != 0 then flt fcPTBAD
      else if !s.inDomain dev || dev == s.self then flt fcAPERTURE
      else ok (.peer dev (BitVec.ofNat 64 pa)) false

/-- The root table of a tenant; none when translation is disabled [04 R91]. -/
def State.rootTable (s : State) (ten : Nat) : Option Nat :=
  let v := (tget s.mg.ptroot 0#64 ten).toNat
  if bitsAt v 0 1 == 0 then none else some (bitsAt v 20 20 * 2 ^ 20)

/-- A walk from a level down to a leaf. -/
def State.walkFrom (s : State) (ten : Nat) (va : Word) (acc : Nat) : Nat → Nat → Nat → Except FaultInfo (Word × Nat)
  | 0, level, _ => .error (xlFault fcPTBAD va acc level)
  | n + 1, level, table =>
    match s.walkStep ten level table va with
    | .bad c i => .error (xlFault c va acc i)
    | .leaf e => .ok (e, level)
    | .next t => s.walkFrom ten va acc n (level + 1) t

/-- Translation in one step, for the units of h [04 R91 to R95]. -/
def State.translate (s : State) (ten : Nat) (va : Word) (need : Need) (apers : Nat) : Except FaultInfo Loc :=
  if va.toNat / 2 ^ 48 != 0 then .error (xlFault fcXLATE va need.acc 0)
  else match s.rootTable ten with
    | none => .error (xlFault fcXLATE va need.acc 0)
    | some t =>
      match s.walkFrom ten va need.acc 4 0 t with
      | .error f => .error f
      | .ok (e, level) =>
        match s.leafUse ten va e level need apers need.a with
        | .error f => .error f
        | .ok (l, _) => .ok l

/-- The ECC event that a walk's read of a table entry meets, counted [01 R26; 04 R97]. -/
def State.stepEcc (s : State) (level table : Nat) (va : Word) : State :=
  let a := table + 8 * vaIndex level va
  s.countEcc (paStack a) (s.hbmStatus (paStack a) (bitsAt a 0 36) 8)

/-- The ECC events of a walk from a level down. -/
def State.walkEcc (s : State) (ten : Nat) (va : Word) : Nat → Nat → Nat → State
  | 0, _, _ => s
  | n + 1, level, table =>
    match s.walkStep ten level table va with
    | .next t => (s.stepEcc level table va).walkEcc ten va n (level + 1) t
    | .leaf _ => s.stepEcc level table va
    | .bad c _ => if c == fcMEMUE then s.stepEcc level table va else s

/-- The ECC events of the translation of an address by a unit of h. -/
def State.translateEcc (s : State) (ten : Nat) (va : Word) : State :=
  match s.rootTable ten with
  | none => s
  | some t => if va.toNat / 2 ^ 48 != 0 then s else s.walkEcc ten va 4 0 t

/-- An ECC event of an access to a place, counted [01 R26]. -/
def State.eccEvent (s : State) (l : Loc) (status : Nat) : State :=
  match l with
  | .hbm st _ => s.countEcc st status
  | _ => s

/-- All apertures. -/
def apAll : Nat := 31
/-- All but peer. -/
def apLocal : Nat := 15

/-- The length of a range up to the next 64 KiB page end. -/
def pageRoom (va : Word) : Nat := 65536 - va.toNat % 65536

/-- Bytes of tenant memory read by a unit of h, page by page; a memory error gives MEMUE with the status
[04 R95, R99]. -/
def State.vread (s : State) (ten : Nat) (need : Need) (apers : Nat) : Nat → Word → Nat → Except FaultInfo (List Byte)
  | 0, _, _ => .ok []
  | f + 1, va, n =>
    if n = 0 then .ok []
    else
      let k := if n < pageRoom va then n else pageRoom va
      match s.translate ten va need apers with
      | .error e => .error e
      | .ok l =>
        let st := s.locStatus l k
        if stUE ≤ st then
          .error { cls := if st == stRANGE then fcRANGE else fcMEMUE, va := va, acc := need.acc, info1 := BitVec.ofNat 64 st, info2 := 0, mem := true }
        else match s.vread ten need apers f (va + BitVec.ofNat 64 k) (n - k) with
          | .error e => .error e
          | .ok r => .ok (s.locRead l k ++ r)

/-- The pieces of a write to memory: up to the first granule, whole granules, the rest [01 R24]. -/
def putPieces (a n : Nat) : List (Nat × Nat) :=
  let head := if a % 32 = 0 then 0 else (if n < 32 - a % 32 then n else 32 - a % 32)
  let whole := (n - head) / 32 * 32
  [(0, head), (head, whole), (head + whole, n - head - whole)].filter (fun p => p.2 != 0)

/-- Bytes written to a place by a unit of h, piece by piece: one that fails changes nothing, and the status is that of the first that does
[01 R21, R23, R24, R26]. -/
def State.placeWrite (s : State) (l : Loc) (b : List Byte) : State × Nat :=
  (putPieces (match l with | .hbm _ a | .cxl _ a | .host _ a => a | .peer _ _ => 0) b.length).foldl (fun r p =>
    let st := r.1.putStatus (l.plus p.1) p.2
    let t := r.1.eccEvent (l.plus p.1) st
    (if stUE ≤ st then t else t.locWrite (l.plus p.1) ((b.drop p.1).take p.2), if stUE ≤ r.2 then r.2 else st)) (s, stOK)

/-- Bytes of tenant memory written by a unit of h, page by page; pages before a failing one stay written. -/
def State.vwrite (s : State) (ten : Nat) (apers : Nat) : Nat → Word → List Byte → State × Option FaultInfo
  | 0, _, _ => (s, none)
  | f + 1, va, b =>
    if b.isEmpty then (s, none)
    else
      let k := if b.length < pageRoom va then b.length else pageRoom va
      match s.translate ten va needW apers with
      | .error e => (s.translateEcc ten va, some e)
      | .ok l =>
        let (s1, st) := (s.translateEcc ten va).placeWrite l (b.take k)
        if stUE ≤ st then
          (s1, some { cls := if st == stRANGE then fcRANGE else fcMEMUE, va := va, acc := 1, info1 := BitVec.ofNat 64 st, info2 := 0, mem := true })
        else s1.vwrite ten apers f (va + BitVec.ofNat 64 k) (b.drop k)

/-- The ECC events of a read by a unit of h, page by page [01 R26]. -/
def State.readEcc (s : State) (ten : Nat) (need : Need) (apers : Nat) : Nat → Word → Nat → State
  | 0, _, _ => s
  | f + 1, va, n =>
    if n = 0 then s
    else
      let k := if n < pageRoom va then n else pageRoom va
      let s1 := s.translateEcc ten va
      match s.translate ten va need apers with
      | .error _ => s1
      | .ok l =>
        let st := s.locStatus l k
        let s2 := s1.eccEvent l st
        if stUE ≤ st then s2 else s2.readEcc ten need apers f (va + BitVec.ofNat 64 k) (n - k)

/-- Bytes read at an address by a unit of h. -/
def State.vget (s : State) (ten : Nat) (need : Need) (apers : Nat) (va : Word) (n : Nat) : Except FaultInfo (List Byte) :=
  s.vread ten need apers (n / 65536 + 2) va n

/-- Bytes read at an address by a unit of h, with what the read counts. -/
def State.uget (s : State) (ten : Nat) (need : Need) (apers : Nat) (va : Word) (n : Nat) : State × Except FaultInfo (List Byte) :=
  (s.readEcc ten need apers (n / 65536 + 2) va n, s.vget ten need apers va n)

/-- What a read by a unit of h counts. -/
def State.counted (s : State) (ten : Nat) (need : Need) (va : Word) (n : Nat) : State := s.readEcc ten need apLocal (n / 65536 + 2) va n

/-- The places of a range of tenant memory, page by page: where the piece lies, its offset and length, up to the first page that faults. -/
def State.places (s : State) (ten : Nat) (need : Need) : Nat → Nat → Word → Nat → List (Loc × Nat × Nat)
  | 0, _, _, _ => []
  | f + 1, off, va, n =>
    if n = 0 then []
    else
      let k := if n < pageRoom va then n else pageRoom va
      match s.translate ten va need apAll with
      | .error _ => []
      | .ok l => (l, off, k) :: s.places ten need f (off + k) (va + BitVec.ofNat 64 k) (n - k)

/-- Whether a range of tenant memory meets a peer leaf [04 R94]. -/
def State.meetsPeer (s : State) (ten : Nat) (need : Need) (va : Word) (n : Nat) : Bool :=
  (s.places ten need (n / 65536 + 2) 0 va n).any (fun p => match p.1 with | .peer _ _ => true | _ => false)

/-- Bytes written at an address by a unit of h. -/
def State.vput (s : State) (ten : Nat) (apers : Nat) (va : Word) (b : List Byte) : State × Option FaultInfo :=
  s.vwrite ten apers (b.length / 65536 + 2) va b

end Sys2Proof.Machine
end

