-- ==== Sys2Proof/Machine/MemOps.lean ====
section
/-! DEFINITION. Memory operations: translation units, issue in order, splitting, tags, the gather unit's intake
[01 R19 to R24; 04 R96, R97; 08 R183, R185, R190, R193]. -/

namespace Sys2Proof.Machine

/-- A translation unit with nothing cached. -/
def Xunit.empty : Xunit := ⟨[], [], [], []⟩

/-- The memory edge of a core: 4 times its die plus (c mod 4) [08 R183]. -/
def Core.edge (c : Core) : Nat := 4 * c.die + c.pos % 4

/-- The memory edge of a core of a slot. -/
def State.edgeOf (s : State) (slot core : Nat) : Nat :=
  match s.region slot with
  | some r => (r.core core).edge
  | none => 0

/-- The memory edge that a stream enters [08 R183]. -/
def State.streamEdge (s : State) (st : Stream) : Nat :=
  match st with
  | .ae sl c _ | .xe sl c _ | .copy sl c _ | .cc sl c | .talon sl c | .operand sl c _ => s.edgeOf sl c
  | .gather e => e
  | .config e => e
  | .coll _ _ | .unit _ => 0

/-- A translation unit. -/
def State.xunit (s : State) (u : Nat) : Xunit := tget s.ms.units Xunit.empty u

/-- The state with a translation unit written. -/
def State.putUnit (s : State) (u : Nat) (x : Xunit) : State := s.withMs (fun m => { m with units := tset m.units u x })

/-- The TLB entry of an address [04 R97]. -/
def Xunit.hit (x : Xunit) (ten : Nat) (va : Word) : Option TlbEnt :=
  x.tlb.find? (fun t => t.ten == ten && va.toNat / 2 ^ t.bits == t.base)

/-- A list of bounded length to which an entry is added: the oldest leaves (log 11). -/
def addOldest (cap : Nat) (l : List α) (a : α) : List α := (if cap ≤ l.length then l.drop 1 else l) ++ [a]

/-- Where a walk of an address starts: below the deepest level that hits in the walk cache [04 R97]. -/
def Xunit.startOf (x : Xunit) (ten root : Nat) (va : Word) : Nat × Nat :=
  let at_ (l : Nat) : Option WalkEnt := x.cache.find? (fun w => w.ten == ten && w.level == l && w.key == va.toNat / 2 ^ pageBits l)
  match at_ 2, at_ 1, at_ 0 with
  | some w, _, _ => (3, w.next)
  | none, some w, _ => (2, w.next)
  | none, none, some w => (1, w.next)
  | none, none, none => (0, root)

/-- The access of an operation by its kind [04 R95]. -/
def Op.need (o : Op) : Need :=
  match o.kind with
  | .read => if o.graph then needG else needR
  | .write => needW
  | .atomic _ => ⟨true, true, o.pa, false⟩

/-- A miss of an address taken by a unit: merged with a walk in progress, walked, queued, or left at its stream [04 R97]. -/
def State.miss (s : State) (u ten root : Nat) (va : Word) : State × PartSt :=
  let x := s.xunit u
  let page := va.toNat / 65536
  if x.walks.any (fun w => w.ten == ten && w.page == page) then (s, .walking)
  else if x.walks.length < 64 then
    let (l, t) := x.startOf ten root va
    (s.putUnit u { x with walks := x.walks ++ [⟨ten, page, l, t⟩] }, .walking)
  else if x.misses.length < 256 then (s.putUnit u { x with misses := x.misses ++ [⟨ten, page⟩] }, .walking)
  else (s, .fresh)

/-- Translation of a part that has not been translated [04 R91 to R97]. -/
def State.xlatePart (s : State) (o : Op) (p : Part) : State × PartSt :=
  let acc := o.need.acc
  if p.va.toNat / 2 ^ 48 != 0 then (s, .bad (xlFault fcXLATE p.va acc 0))
  else match s.rootTable o.ten with
    | none => (s, .bad (xlFault fcXLATE p.va acc 0))
    | some root =>
      let u := s.streamEdge o.stream
      match (s.xunit u).hit o.ten p.va with
      | some t =>
        match s.leafUse o.ten p.va t.entry t.level o.need o.apers (match o.kind with | .atomic _ => true | _ => false) with
        | .error f => (s, .bad f)
        | .ok (l, ord) => (s, .ready l ord)
      | none => s.miss u o.ten root p.va

/-- The parts of an operation translated in order. -/
def State.xlateParts (s : State) (o : Op) : List Part → State × List Part
  | [] => (s, [])
  | p :: r =>
    let (s1, st) := if p.st == .fresh then s.xlatePart o p else (s, p.st)
    let (s2, r2) := s1.xlateParts o r
    (s2, { p with st := st } :: r2)

/-- The operation with a number. -/
def State.op (s : State) (id : Nat) : Option Op := s.ms.ops.find? (fun o => o.id == id)

/-- The state with an operation replaced. -/
def State.putOp (s : State) (o : Op) : State :=
  s.withMs (fun m => { m with ops := m.ops.map (fun p => if p.id == o.id then o else p) })

/-- The state without an operation. -/
def State.dropOp (s : State) (id : Nat) : State := s.withMs (fun m => { m with ops := m.ops.filter (fun p => p.id != id) })

/-- Whether a part has still to issue. -/
def PartSt.pending : PartSt → Bool
  | .fresh | .walking | .ready _ _ => true
  | _ => false

/-- Whether a part has ended. -/
def PartSt.ended : PartSt → Bool
  | .done | .bad _ => true
  | _ => false

/-- Whether a part is an ISSUE access in flight [04 R96]. -/
def PartSt.issueOut : PartSt → Bool
  | .sent _ true => true
  | _ => false

/-- Whether a part is an ISSUE access that waits for an earlier one of its stream [04 R96]. -/
def PartSt.issueHeld : PartSt → Bool
  | .ready _ true => true
  | _ => false

/-- The target and the address there of a place in memory. -/
def Loc.target (l : Loc) : Target × Bool × Nat :=
  match l with
  | .hbm st off => (.base (st % 8), decide (8 ≤ st), off)
  | .cxl p off => (.cxl p, false, off)
  | .host f a => (.host f, false, a)
  | .peer dev va => (.peer dev, false, va.toNat)

/-- A request that waits for its tag [01 R20]. -/
def mkReq (o : Op) (l : Loc) (kind : BitVec 4) (addr : Nat) (gran : Nat) (mask : W32) (data : List Byte) (sv : List Serve) : Req :=
  let (t, far, _) := l.target
  { id := 0, stream := o.stream, target := t, rsv := false, tag := 0, gen := 0, kind := kind, mask := mask,
    len := BitVec.ofNat 6 (gran - 1), far := far, addr := addr, data := data, atom := none, ten := o.ten, serves := sv, at_ := 0 }

/-- The mask of bytes `lo` to `lo + n - 1` of a granule. -/
def byteMask (lo n : Nat) : W32 := BitVec.ofNat 32 ((2 ^ n - 1) * 2 ^ lo)

/-- A masked write of part of one granule [01 R24]. -/
def maskedReq (o : Op) (l : Loc) (a : Nat) (d : List Byte) (off : Nat) : Req :=
  mkReq o l 3 (a / 32 * 32) 1 (byteMask (a % 32) d.length)
    (List.replicate (a % 32) 0#8 ++ d ++ List.replicate (32 - a % 32 - d.length) 0#8) [⟨o.id, off, 0, d.length⟩]

/-- The requests of a store that crosses no 2 KiB boundary [01 R24]. -/
def storeReqs (o : Op) (l : Loc) (a : Nat) (d : List Byte) (off : Nat) : List Req :=
  let n := d.length
  let head := if a % 32 = 0 then 0 else (if n < 32 - a % 32 then n else 32 - a % 32)
  let whole := (n - head) / 32 * 32
  let tail := n - head - whole
  (if head = 0 then [] else [maskedReq o l a (d.take head) off]) ++
  (if whole = 0 then [] else [mkReq o l 2 (a + head) (whole / 32) 0 ((d.drop head).take whole) [⟨o.id, off + head, 0, whole⟩]]) ++
  (if tail = 0 then [] else [maskedReq o l (a + head + whole) (d.drop (head + whole)) (off + head + whole)])

/-- The requests of a part [01 R20, R24; 12 R289]. -/
def partReqs (o : Op) (p : Part) (l : Loc) : List Req :=
  let (_, _, a) := l.target
  match o.kind with
  | .read => [mkReq o l 1 (a / 32 * 32) ((a + p.n + 31) / 32 - a / 32) 0 [] [⟨o.id, p.off, a % 32, p.n⟩]]
  | .write => storeReqs o l a ((o.data.drop p.off).take p.n) p.off
  | .atomic k =>
    [{ mkReq o l 1 (a / 32 * 32) 1 0 [] [⟨o.id, p.off, 0, p.n⟩] with
        atom := some (k, a % 32, p.n, BitVec.ofNat 64 (leNum o.data)) }]

/-- The traffic class of a stream's accesses through a peer leaf [02 R36]. -/
def Stream.tc : Stream → BitVec 3
  | .copy _ _ _ => 2
  | .ae _ _ _ | .gather _ => 6
  | _ => 1

/-- The payload head of a remote request: address and length (log 13). -/
def remoteHead (va : Word) (n : Nat) : List Byte := leOf 8 va.toNat ++ leOf 8 n

/-- The code of an atomic in a fabric packet (log 13). -/
def AtomOp.code : AtomOp → Nat
  | .add => 0
  | .swap => 1
  | .cas _ => 2
  | .max => 3
  | .min => 4
  | .fadd => 5
  | .fmax => 6
  | .and => 7
  | .or => 8

/-- The compare value of an atomic. -/
def AtomOp.cmp : AtomOp → Word
  | .cas c => c
  | _ => 0

/-- Pieces of at most 1,024 bytes: offset and length (log 13). -/
def remotePieces : Nat → Nat → Nat → List (Nat × Nat)
  | 0, _, _ => []
  | f + 1, off, n => if n = 0 then [] else if n ≤ 1024 then [(off, n)] else (off, 1024) :: remotePieces f (off + 1024) (n - 1024)

/-- The requests of a part that go to a peer, pieces of at most 1,024 bytes, in order (log 13). -/
def peerReqs (o : Op) (p : Part) (l : Loc) (va : Word) : List Req :=
  (remotePieces (p.n / 1024 + 1) p.off p.n).map (fun q =>
    let a := (va + BitVec.ofNat 64 (q.1 - p.off)).toNat
    let sv : List Serve := [⟨o.id, q.1, 0, q.2⟩]
    match o.kind with
    | .read => mkReq o l 1 a 1 0 [] sv
    | .write => mkReq o l 2 a 1 0 ((o.data.drop q.1).take q.2) sv
    | .atomic k => { mkReq o l 1 a 1 0 [] sv with atom := some (k, 0, q.2, BitVec.ofNat 64 (leNum o.data)) })

/-- The kind and payload of the fabric packet that carries a request (log 13). -/
def Req.remote (q : Req) : BitVec 4 × List Byte :=
  match q.atom with
  | some (k, _, _, v) => (3, leOf 8 v.toNat ++ leOf 8 k.cmp.toNat ++ leOf 1 k.code ++ leOf 7 0)
  | none => if q.kind == 2#4 then (0, q.data) else (1, [])

/-- A request to a peer sent as a packet under its tag, and its reply awaited [01 R19; 02 R36; 08 R192; 15 R379]. -/
def State.sendRemote (s : State) (q : Req) (dev : BitVec 8) : State :=
  let id := BitVec.ofNat 40 s.fb.nextOpq
  let n := (q.serves.head?.map (fun v => v.take)).getD 0
  let (kind, body) := q.remote
  let pkt := s.packet dev q.stream.tc q.ten kind id (remoteHead (BitVec.ofNat 64 q.addr) n ++ body)
  (s.withFb (fun f => { f with
    nextOpq := f.nextOpq + 1, remotes := f.remotes ++ [{ opq := id, dev := dev, tc := q.stream.tc, req := q, kind := kind, win := s.window }] })).send pkt

/-- Whether a host completer takes an atomic: FetchAdd, Swap and CAS only [12 R289]. -/
def AtomOp.hostOk : AtomOp → Bool
  | .add | .swap | .cas _ => true
  | _ => false

/-- The gather unit of an edge with nothing open. -/
def Gather.empty : Gather := ⟨[], []⟩

/-- The next sequence number of an AE's element requests, which it assigns in issue order [08 R190]. -/
def State.nextSeq (s : State) (slot core elem : Nat) : BitVec 16 × State :=
  match s.region slot with
  | none => (0, s)
  | some r =>
    let e := r.elem core elem
    (e.ae.seq, s.putRegion slot (r.putElem core elem { e with ae := { e.ae with seq := e.ae.seq + 1 } }))

/-- The slot of a writer of a DET region among those toward its memory edge, and their number [05 R130]. -/
def Region.slotOf (r : Region) (edge core unit : Nat) : Option (Nat × Nat) :=
  let ws := r.tdm.filter (fun x => x.1 == edge)
  if r.det then (ws.findIdx? (fun x => x == (edge, core, unit))).map (fun k => (k, ws.length)) else none

/-- The first ns from `t` on that belongs to slot `k` of `n`; slots of one clk go round from the entry into RUN [05 R130] (log 39). -/
def slotAt (start k n t : Nat) : Nat := t + (k + n - (t - start) % n) % n

/-- The next turn, from `t` on, of a writer of a DET region toward a memory edge [05 R130]. -/
def State.nextTurn (s : State) (slot edge core unit t : Nat) : Option Nat :=
  (s.region slot).bind (fun r => (r.slotOf edge core unit).map (fun p => slotAt r.started p.1 p.2 t))

/-- The next turn of an AE for an element request: after that of its last one that waits [05 R130]. -/
def State.elemTurn (s : State) (g : Gather) (edge slot core elem : Nat) : Nat :=
  let last := (g.inq.filter (fun p => p.slot == slot && p.core == core && p.elem == elem)).foldl (fun m p => max m (p.due + 1)) s.time
  (s.nextTurn slot edge core elem last).getD s.time

/-- A part issued: into the gather unit, onto the fabric, or as requests that wait for tags [01 R19; 08 R190]. -/
def State.issuePart (s : State) (o : Op) (p : Part) (l : Loc) (ord : Bool) : State × PartSt :=
  match l with
  | .peer _ va =>
    let rs := peerReqs o p l va
    (s.withMs (fun m => { m with queue := m.queue ++ rs }), .sent rs.length ord)
  | _ =>
    match o.stream, o.who with
    | .gather e, .fire sl c el _ _ _ _ _ =>
      let g := tget s.ms.gather Gather.empty e
      let (sq, due, s1) := match g.inq.find? (fun p => p.op == o.id) with
        | some p => (p.seq, p.due, s)
        | none => let (sq, s1) := s.nextSeq sl c el; (sq, s.elemTurn g e sl c el, s1)
      let q : GathReq := { slot := sl, core := c, elem := el, seq := sq, op := o.id, off := p.off, n := p.n, loc := l,
                           store := o.kind == .write, due := due }
      (s1.withMs (fun m => { m with gather := tset m.gather e { g with inq := g.inq ++ [q] } }), .sent 1 ord)
    | _, _ =>
      match l, o.kind with
      | .host _ _, .atomic k =>
        if k.hostOk then
          let rs := partReqs o p l
          (s.withMs (fun m => { m with queue := m.queue ++ rs }), .sent rs.length ord)
        else
          (s, .bad { cls := fcMEMUE, va := p.va, acc := 2, info1 := BitVec.ofNat 64 stBADREQ, info2 := 0, mem := true })
      | _, _ =>
        let rs := partReqs o p l
        (s.withMs (fun m => { m with queue := m.queue ++ rs }), .sent rs.length ord)

/-- The parts of an operation issued in order, up to the first that cannot; `blocked` says that an earlier ISSUE access
of the stream is in flight [04 R96]. -/
def State.issueParts (s : State) (o : Op) (blocked : Bool) : List Part → State × List Part
  | [] => (s, [])
  | p :: r =>
    match p.st with
    | .ready l ord =>
      if ord && blocked then (s, p :: r)
      else
        let (s1, st) := s.issuePart o p l ord
        let (s2, r2) := s1.issueParts o blocked r
        (s2, { p with st := st } :: r2)
    | .fresh | .walking => (s, p :: r)
    | _ =>
      let (s2, r2) := s.issueParts o blocked r
      (s2, p :: r2)

/-- Whether an earlier operation of a stream has parts to issue other than a waiting ISSUE access, and whether one has an
ISSUE access in flight or waiting: the accesses to WEAK pages do not wait for it [04 R96]. -/
def earlierOf (st : Stream) (id : Nat) (ops : List Op) : Bool × Bool :=
  let es := (ops.takeWhile (fun o => o.id != id)).filter (fun o => o.stream == st)
  (es.any (fun o => o.parts.any (fun p => p.st.pending && !p.st.issueHeld)),
    es.any (fun o => o.parts.any (fun p => p.st.issueOut || p.st.issueHeld)))

/-- One operation carried forward: translated, then issued in its stream's order. -/
def State.pushOp (s : State) (id : Nat) : State :=
  match s.op id with
  | none => s
  | some o =>
    let (s1, ps) := s.xlateParts o o.parts
    let o1 := { o with parts := ps, entered := if o.parts.all (fun p => p.st.pending) then s.time else o.entered }
    let (wait, blocked) := earlierOf o.stream id s1.ms.ops
    if wait then s1.putOp o1
    else
      let (s2, ps2) := s1.issueParts o1 blocked ps
      s2.putOp { o1 with parts := ps2 }

/-- An entry of MESTAT counted, saturating [08 R194]. -/
def bump (t : Table W32) (i : Nat) : Table W32 := tset t i (satInc32 (tget t 0#32 i))

/-- A tag entry of a stream at a target. -/
def MemSys.tag (m : MemSys) (st : Stream) (t : Target) (i : Nat) : Tag :=
  (m.tags.find? (fun x => x.stream == st && x.target == t && x.tag.toNat == i)).getD
    { stream := st, target := t, tag := BitVec.ofNat 3 i, gen := 0, busy := none, old := [] }

/-- The memory system with a tag entry written. -/
def MemSys.putTag (m : MemSys) (t : Tag) : MemSys :=
  { m with tags := m.tags.filter (fun x => !(x.stream == t.stream && x.target == t.target && x.tag == t.tag)) ++ [t] }

/-- The lowest free tag whose generation did not time out less than 2 ms ago [01 R19; 08 R193] (log 11). -/
def State.freeTag (s : State) (st : Stream) (t : Target) : Option Tag :=
  ((List.range 8).map (fun i => s.ms.tag st t i)).find? (fun x =>
    x.busy.isNone && !x.old.any (fun p => p.1 == x.gen && s.time < p.2 + 2000000))

/-- The unit of a core that a stream serves, among the writers toward its memory edge: elements by their index, then the control core, the talon,
the copy channels [05 R130]. -/
def Stream.writer : Stream → Option (Nat × Nat × Nat)
  | .ae sl c e | .xe sl c e | .operand sl c e => some (sl, c, e)
  | .cc sl c => some (sl, c, 64)
  | .talon sl c => some (sl, c, 65)
  | .copy sl c ch => some (sl, c, 66 + ch)
  | .gather _ | .config _ | .coll _ _ | .unit _ => none

/-- The unit of a region that sends a request: of a gather unit's request the region of its first element request [05 R130]. -/
def State.writerOf (s : State) (q : Req) : Option (Nat × Nat × Nat) :=
  match q.stream with
  | .gather _ => ((q.serves.head?.bind (fun v => s.op v.op)).bind (fun o => match o.who with | .fire sl _ _ _ _ _ _ _ => some (sl, 0, 84) | _ => none))
  | st => st.writer

/-- The next turn, from `t` on, in which a request of a DET region may enter its memory edge [05 R130]. -/
def State.turn (s : State) (q : Req) (t : Nat) : Option Nat :=
  (s.writerOf q).bind (fun w => s.nextTurn w.1 (s.streamEdge q.stream) w.2.1 w.2.2 t)

/-- A request with its tag leaves: to its memory, or as a packet to a peer. -/
def State.launchReq (s : State) (q : Req) : State :=
  match q.target with
  | .peer dev => s.sendRemote q dev
  | _ => s.withMs (fun m => { m with reqs := m.reqs ++ [q] })

/-- A request takes a tag at a time, and leaves [01 R19]. -/
def State.enterReq (s : State) (q : Req) (t : Tag) (now : Nat) : State :=
  let id := s.nextOp
  let q1 := { q with id := id, tag := t.tag, gen := t.gen, at_ := now, edge := s.streamEdge q.stream, due := none }
  ({ s.withMs (fun m => m.putTag { t with busy := some q1 }) with nextOp := id + 1 } : State).launchReq q1

/-- Requests take tags in the order in which they wait; a request without a free tag blocks the later requests of its
stream only, and one of a DET region waits for its turn [01 R19; 05 R130]. -/
def State.assignTags (s : State) (blocked : List Stream) : List Req → State × List Req
  | [] => (s, [])
  | q :: r =>
    if blocked.contains q.stream || (s.turn q s.time).isSome then
      let (s1, rest) := s.assignTags blocked r
      (s1, q :: rest)
    else match s.freeTag q.stream q.target with
      | none =>
        let (s1, rest) := s.assignTags (q.stream :: blocked) r
        (s1, q :: rest)
      | some t => (s.enterReq q t s.time).assignTags blocked r

/-- The waiting requests, the first of each stream of a DET region with the turn in which it enters: the next one since a tag has been free for it
[01 R19; 05 R130]. -/
def State.markTurns (s : State) (seen : List Stream) : List Req → List Req
  | [] => []
  | q :: r =>
    if seen.contains q.stream then q :: s.markTurns seen r
    else
      { q with due := (s.turn q s.time).bind (fun t => if (s.freeTag q.stream q.target).isSome then some (q.due.getD t) else none) } ::
        s.markTurns (q.stream :: seen) r

/-- Of the requests whose turn has come the one whose turn came first. -/
def firstDue (now : Nat) : Nat → List Req → Option (Nat × Nat)
  | _, [] => none
  | i, q :: r =>
    match q.due, firstDue now (i + 1) r with
    | some t, some (j, u) => if now < t then some (j, u) else if u < t then some (j, u) else some (i, t)
    | some t, none => if now < t then none else some (i, t)
    | none, x => x

/-- The next request of a stream takes its next turn after the one of the request before it. -/
def State.afterTurn (s : State) (st : Stream) (t : Nat) : List Req → List Req
  | [] => []
  | q :: r => if q.stream == st then { q with due := s.turn q (t + 1) } :: r else q :: s.afterTurn st t r

/-- The waiting requests of DET regions whose turns have come enter, in the order of their turns [05 R130]. -/
def State.enterTurns (s : State) : Nat → State
  | 0 => s
  | n + 1 =>
    let qs := s.markTurns [] s.ms.queue
    let s1 := s.withMs (fun m => { m with queue := qs })
    match firstDue s.time 0 qs with
    | none => s1
    | some (i, at_) =>
      match qs[i]? with
      | none => s1
      | some q =>
        match s.freeTag q.stream q.target with
        | none => s1
        | some t => ((s1.withMs (fun m => { m with queue := s.afterTurn q.stream at_ (ldel qs i) })).enterReq q t at_).enterTurns n

/-- Every waiting request of a DET region whose turn has come enters [05 R130]. -/
def State.takeTurns (s : State) : State := s.enterTurns (s.ms.queue.length + 1)

/-- Every operation carried forward, then every waiting request that finds a tag. -/
def State.pump (s : State) : State :=
  let s1 := (s.ms.ops.map (fun o => o.id)).foldl (fun s id => s.pushOp id) s
  let (s2, q) := s1.assignTags [] s1.ms.queue
  (s2.withMs (fun m => { m with queue := q })).takeTurns

/-- The parts of an access to `n` bytes from an address, split at 2 KiB boundaries [08 R185]. -/
def splitParts : Nat → Nat → Word → Nat → List Part
  | 0, _, _, _ => []
  | f + 1, off, va, n =>
    if n = 0 then []
    else
      let room := 2048 - va.toNat % 2048
      if n ≤ room then [⟨off, va, n, .fresh⟩]
      else ⟨off, va, room, .fresh⟩ :: splitParts f (off + room) (va + BitVec.ofNat 64 room) (n - room)

/-- The parts of one range. -/
def rangeParts (va : Word) (n : Nat) : List Part := splitParts (n / 2048 + 2) 0 va n

/-- An operation without its number and time. -/
def mkOp (who : Who) (st : Stream) (ten : Nat) (kind : OpKind) (data : List Byte) (parts : List Part) (apers : Nat) : Op :=
  { id := 0, who := who, stream := st, ten := ten, kind := kind, data := data, got := [], parts := parts, apers := apers, pa := false,
    psz := 2048, orphan := false, late := false, flags := 0, began := 0 }

/-- An operation begun: it takes the next number. -/
def State.startOp (s : State) (o : Op) : State :=
  let s1 := { s with nextOp := s.nextOp + 1 }
  s1.withMs (fun m => { m with ops := m.ops ++ [{ o with id := s.nextOp, began := s.time }] })

end Sys2Proof.Machine
end

