-- ==== Sys2Proof/Machine/Order.lean ====
section
/-! DEFINITION. Memory consistency: the staging of the paths, scopes, and what releases and acquires of control-core threads carry
[09 R206 to R218] (log 8). -/

namespace Sys2Proof.Machine

/-- The path of a requester stream [09 R207]; 8 for the device's own. -/
def Stream.path : Stream → Nat
  | .cc _ _ => 0
  | .ae _ _ _ => 1
  | .copy _ _ _ => 2
  | .operand _ _ _ => 3
  | .gather _ => 4
  | .coll _ _ => 5
  | .xe _ _ _ => 6
  | .talon _ _ | .config _ | .unit _ => 8

/-- The slot and core of a requester stream; none for a stream of an edge, a die or h. -/
def Stream.site : Stream → Option (Nat × Nat)
  | .ae sl c _ | .xe sl c _ | .copy sl c _ | .cc sl c | .talon sl c | .operand sl c _ => some (sl, c)
  | _ => none

/-- The die of a core of a slot. -/
def State.dieOf (s : State) (slot core : Nat) : Nat := ((s.region slot).map (fun r => (r.core core).die)).getD 0

/-- Whether two cores lie in one scope instance: 0 and 1 core, 2 die, and a wider scope the whole device [09 R208]. -/
def State.together (s : State) (scope : Nat) (a b : Nat × Nat) : Bool :=
  if 3 ≤ scope then true else if scope == 2 then s.dieOf a.1 a.2 == s.dieOf b.1 b.2 else a == b

/-- Whether a unit lies in the scope instance of a core: that of its core; a gather unit's is its edge's cores, or its die
[09 R208]. -/
def State.inScope (s : State) (slot core scope : Nat) (u : Stream) : Bool :=
  match u.site, u with
  | some x, _ => s.together scope (slot, core) x
  | none, .gather e => 3 ≤ scope || (if scope == 2 then e / 4 == s.dieOf slot core else e == s.edgeOf slot core)
  | none, _ => 3 ≤ scope

/-- Staged bytes dropped by a test [09 R214]. -/
def State.dropStage (s : State) (p : StageByte → Bool) : State :=
  s.withMs (fun m => { m with stage := m.stage.filter (fun b => !p b) })

/-- The staging of a path (7 is every path) in a scope instance marked stale [09 R214]. -/
def State.dropPath (s : State) (slot core path scope : Nat) : State :=
  s.dropStage (fun b => (path == 7 || b.unit.path == path) && s.inScope slot core scope b.unit)

/-- The staging of a path (7 is every path) but that of control-core threads marked stale [09 R214] (log 8). -/
def State.dropOthers (s : State) (path : Nat) : State := s.dropStage (fun b => (path == 7 || b.unit.path == path) && b.unit.path != 0)

/-- The union of two lists without repeats. -/
def unite [BEq α] (a b : List α) : List α := a ++ b.filter (fun x => !a.contains x)

/-- Whether a staged byte is a thread's own. -/
def StageByte.of (b : StageByte) (t : Nat × Nat × Nat) : Bool := b.unit == .cc t.1 t.2.1 && b.thr == t.2.2

/-- Whether a staged byte or its history lies in a range: a buffer's address is that of a core. -/
def StageByte.within (b : StageByte) (site : Option (Nat × Nat)) (space a n : Nat) : Bool :=
  b.space == space && (3 ≤ space || b.unit.site == site) && a ≤ b.addr && b.addr < a + n

/-- Whether a staged byte is one of some bytes. -/
def StageByte.among (b : StageByte) (site : Option (Nat × Nat)) (space : Nat) (as : List Nat) : Bool :=
  b.space == space && (3 ≤ space || b.unit.site == site) && as.contains b.addr

/-- The addresses of a range. -/
def addrs (a n : Nat) : List Nat := (List.range n).map (fun i => a + i)

/-- Bytes at their addresses. -/
def bytesAt (a : Nat) (b : List Byte) : List (Nat × Byte) := mapIdxFrom (fun i v => (a + i, v)) 0 b

/-- What the last writes of path CC to a byte carry, none when nothing [09 R212, R218]. -/
def MemSys.msgAt (m : MemSys) (site : Option (Nat × Nat)) (space a : Nat) : Option Msg :=
  m.msgs.find? (fun x => x.space == space && x.addr == a && (3 ≤ space || x.site == site))

/-- The releases and writes that reads of a range of bytes learn of [09 R212, R218]. -/
def MemSys.learnt (m : MemSys) (site : Option (Nat × Nat)) (space a n : Nat) : List Nat × List Rel :=
  (List.range n).foldl (fun l i => match m.msgAt site space (a + i) with
    | none => l
    | some x => (unite l.1 x.ids, unite l.2 x.rels)) ([], [])

/-- Whether a byte of a space lies in a granule that reads UE. -/
def State.badByte (s : State) (space a : Nat) : Bool := 16 ≤ space && space < 32 && s.ms.ue.contains (space - 16, a / 32 * 32)

/-- Bytes of a unit's staging replaced by what it wrote or read; those of a control core with what their writes carry. -/
def State.fillBytes (s : State) (u : Stream) (thr space : Nat) (bs : List (Nat × Byte)) : State :=
  let as := bs.map Prod.fst
  let t := s.dropStage (fun x => x.unit == u && x.thr == thr && x.space == space && as.contains x.addr)
  let msg (a : Nat) : Option Msg := if u.path == 0 then t.ms.msgAt u.site space a else none
  t.withMs (fun m => { m with stage := m.stage ++ bs.map (fun p =>
    { unit := u, thr := thr, space := space, addr := p.1, val := p.2, since := [], ids := ((msg p.1).map Msg.ids).getD [],
      rels := ((msg p.1).map Msg.rels).getD [], bad := s.badByte space p.1 }) })

/-- Bytes of a unit's staging replaced by what it has read: of an aligned 8-byte unit that the read meets nothing older stays
[09 R210]. -/
def State.fillStage (s : State) (u : Stream) (thr space a : Nat) (b : List Byte) : State :=
  (s.dropStage (fun x => x.unit == u && x.thr == thr && x.space == space && a / 8 * 8 ≤ x.addr && x.addr < (a + b.length + 7) / 8 * 8)).fillBytes
    u thr space (bytesAt a b)

/-- The staged bytes of a unit over a range, when it holds all of them. -/
def MemSys.staged (m : MemSys) (u : Stream) (thr space a n : Nat) : Option (List Byte) :=
  ((List.range n).map (fun i => m.stage.find? (fun x => x.unit == u && x.thr == thr && x.space == space && x.addr == a + i))).foldr
    (fun x r => match x, r with
      | some b, some l => some (b.val :: l)
      | _, _ => none) (some [])

/-- What a thread knows; nothing when it is not listed [09 R211]. -/
def State.view (s : State) (t : Nat × Nat × Nat) : View :=
  (s.ms.views.find? (fun v => v.thr == t)).getD { thr := t, seen := [], got := [], rels := [], sem := none }

/-- What a thread knows, kept: writes that no staging is behind any more are forgotten, and so is a thread that knows nothing. -/
def State.putView (s : State) (v : View) : State :=
  let w := { v with seen := v.seen.filter (fun i => s.ms.stage.any (fun b => b.since.contains i)) }
  let rest := s.ms.views.filter (fun x => x.thr != v.thr)
  s.withMs (fun m => { m with views := if w.seen.isEmpty && w.got.isEmpty && w.rels.isEmpty && w.sem.isNone then rest else rest ++ [w] })

/-- A thread learns that writes happen before what it does next: its staging of the bytes they wrote is not served any more [09 R211, R215]. -/
def State.know (s : State) (t : Nat × Nat × Nat) (ids : List Nat) : State :=
  let v := s.view t
  (s.putView { v with seen := unite v.seen ids }).dropStage (fun b => b.of t && b.since.any ids.contains)

/-- Whether a release synchronises with an acquire of a thread at a scope: each lies in the other's scope instance [09 R212]. -/
def State.syncs (s : State) (t : Nat × Nat × Nat) (scope : Nat) (x : Rel) : Bool :=
  s.together scope (t.1, t.2.1) (x.slot, x.core) && s.together x.scope (t.1, t.2.1) (x.slot, x.core)

/-- A thread acquires releases whose writes it has read [09 R211, R212]. -/
def State.join (s : State) (t : Nat × Nat × Nat) (scope : Nat) (rels : List Rel) : State :=
  s.know t ((rels.filter (s.syncs t scope)).flatMap Rel.ids)

/-- What a thread has read: the writes count as its own for its releases, the releases wait for an acquire [09 R212, R218]. -/
def State.learns (s : State) (t : Nat × Nat × Nat) (l : List Nat × List Rel) : State :=
  if l.1.isEmpty && l.2.isEmpty then s
  else
    let v := s.view t
    s.putView { v with seen := unite v.seen l.1, got := unite v.got l.2 }

/-- What a read of a control-core thread tells it, from what its staging now says of the bytes [09 R212, R218]. -/
def State.stageLearn (s : State) (u : Stream) (thr space a n : Nat) : State :=
  match u with
  | .cc sl c =>
    let mine := s.ms.stage.filter (fun x => x.of (sl, c, thr) && x.within u.site space a n)
    s.learns (sl, c, thr) (mine.foldl (fun l x => unite l x.ids) [], mine.foldl (fun l x => unite l x.rels) [])
  | _ => s

/-- Whether a read by a unit is answered from its staging, which a free value decides while that holds all the bytes: the bytes, and whether
they were read with UE [09 R207, R214, R215; 18 R401] (log 8). -/
def State.stagePick (s : State) (u : Stream) (thr space a n : Nat) : State × Option (List Byte × Bool) :=
  match s.ms.staged u thr space a n with
  | none => (s, none)
  | some old =>
    let (v, s1) := s.draw
    if v.getLsbD 0 then
      (s1.stageLearn u thr space a n,
        some (old, s.ms.stage.any (fun x => x.unit == u && x.thr == thr && x.within u.site space a n && x.bad)))
    else (s1, none)

/-- A read by a unit that memory answers: its staging holds the bytes from then on [09 R207]. -/
def State.stageTake (s : State) (u : Stream) (thr space a : Nat) (fresh : List Byte) : State :=
  (s.fillStage u thr space a fresh).stageLearn u thr space a fresh.length

/-- A read by a unit: what memory holds, or, while its staging holds all the bytes, possibly those [09 R207, R214, R215] (log 8). -/
def State.stageRead (s : State) (u : Stream) (thr space a : Nat) (fresh : List Byte) : State × List Byte :=
  match s.stagePick u thr space a fresh.length with
  | (s1, some (old, _)) => (s1, old)
  | (s1, none) => (s1.stageTake u thr space a fresh, fresh)

/-- A write of bytes, of a buffer's core or of a memory, noted: staging of path CC of them, but the writer's own, is behind it, and the bytes
carry its number and some releases.  The number is that of a write that some staging is behind [09 R212, R215, R218]. -/
def State.noteWrite (s : State) (site : Option (Nat × Nat)) (own : StageByte → Bool) (space : Nat) (as : List Nat) (rels : Nat → List Rel) :
    State × List Nat :=
  let behind (b : StageByte) : Bool := b.unit.path == 0 && !own b && b.among site space as
  let ids := if s.ms.stage.any behind then [s.ms.nextWrite] else []
  let here (x : Msg) : Bool := x.space == space && (3 ≤ space || x.site == site) && as.contains x.addr
  let msgs := (as.map (fun a => ({ site := if space < 3 then site else none, space := space, addr := a, ids := ids, rels := rels a } : Msg))).filter
    (fun x => !(x.ids.isEmpty && x.rels.isEmpty))
  if ids.isEmpty && msgs.isEmpty && !s.ms.msgs.any here then (s, [])
  else
    (s.withMs (fun m => { m with
      nextWrite := m.nextWrite + ids.length
      stage := m.stage.map (fun b => if behind b then { b with since := ids ++ b.since } else b)
      msgs := m.msgs.filter (fun x => !here x) ++ msgs }), ids)

/-- A write of a thread to bytes; they carry its releases, those of an atomic too what they carried [09 R212, R215, R216]. -/
def State.ccWrote (s : State) (t : Nat × Nat × Nat) (space : Nat) (as : List Nat) (keep : Bool) (own : List Rel) : State :=
  let site := some (t.1, t.2.1)
  let rels := unite (s.view t).rels own
  let (s1, ids) := s.noteWrite site (fun b => b.of t) space as
    (fun a => unite (if keep then ((s.ms.msgAt site space a).map Msg.rels).getD [] else []) rels)
  s1.learns t (ids, [])

/-- A write of a unit that is no control-core thread [09 R215, R218]. -/
def State.unitWrote (s : State) (site : Option (Nat × Nat)) (space : Nat) (as : List Nat) : State :=
  (s.noteWrite site (fun _ => false) space as (fun _ => [])).1

/-- A cross-path fence of a thread, once the accesses before it have been performed: of the destination path (7 is every path) no access that
happens after it is served from staging filled before it.  The thread's own staging on path CC goes; that of other threads is behind the
fence, which a thread that comes after it learns; the other paths' staging goes [09 R214] (log 8). -/
def State.crossFence (s : State) (t : Nat × Nat × Nat) (path : Nat) : State :=
  let s1 := s.dropOthers path
  if path != 0 && path != 7 then s1
  else
    let s2 := s1.dropStage (fun b => b.of t)
    if !s2.ms.stage.any (fun b => b.unit.path == 0) then s2
    else (s2.withMs (fun m => { m with
      nextWrite := m.nextWrite + 1
      stage := m.stage.map (fun b => if b.unit.path == 0 then { b with since := m.nextWrite :: b.since } else b) })).learns t ([s2.ms.nextWrite], [])

/-- Whether an acquire at domain scope now is a window acquire: a write of a peer that met the conditions of [02 R44], sent in window N, has
committed, and window N + 2 has started [09 R220]. -/
def State.windowOpen (s : State) : Bool := match s.ms.winDue with | some t => decide (t ≤ s.time) | none => false

/-- An acquire of a thread at domain scope: a window acquire is universal; else time alone makes no order [09 R209, R220]. -/
def State.windowAcquire (s : State) (t : Nat × Nat × Nat) : State := if s.windowOpen then s.crossFence t 7 else s

/-- The same of a unit on another path: its own path's staging, and as a window acquire that of every path [09 R209, R220] (log 8). -/
def State.unitAcquire (s : State) (path : Nat) : State := s.dropStage (fun b => s.windowOpen || b.unit.path == path)

/-- Whether a semantics code acquires: acquire, acq_rel, sc [09 R209; 11 R269]. -/
def semAcquires (e : BitVec 3) : Bool := e == 1#3 || e == 3#3 || e == 4#3

/-- Whether a semantics code releases: release, acq_rel, sc [09 R209; 11 R269]. -/
def semReleases (e : BitVec 3) : Bool := e == 2#3 || e == 3#3 || e == 4#3

/-- The number of a core's scope instance among those of its scope [09 R208, R217]. -/
def State.instanceOf (s : State) (slot core scope : Nat) : Nat :=
  if 3 ≤ scope then 0 else if scope == 2 then s.dieOf slot core else 64 * slot + core

/-- An sc operation comes after those before it in the order of its scope instance [09 R217]. -/
def State.scAfter (s : State) (t : Nat × Nat × Nat) (scope : Nat) : State :=
  s.know t (((s.ms.scs.find? (fun x => x.1 == (scope, s.instanceOf t.1 t.2.1 scope))).map Prod.snd).getD [])

/-- An sc operation comes before those that follow it, with what happens before it and its own write [09 R217, R218]. -/
def State.scBefore (s : State) (t : Nat × Nat × Nat) (scope : Nat) : State :=
  let key := (scope, s.instanceOf t.1 t.2.1 scope)
  let seen := (s.view t).seen
  let rest := s.ms.scs.filter (fun x => x.1 != key)
  s.withMs (fun m => { m with scs := if seen.isEmpty then rest else rest ++ [(key, seen)] })

/-- The acquire of a fence: the releases of the writes read before it; at domain scope a window acquire [09 R209, R211, R212, R220]. -/
def State.acquireCc (s : State) (t : Nat × Nat × Nat) (scope : Nat) : State :=
  let s1 := s.join t scope (s.view t).got
  if 4 ≤ scope then s1.windowAcquire t else s1

/-- A release of a thread: what happens before it [09 R209, R212, R218]. -/
def State.relOf (s : State) (t : Nat × Nat × Nat) (scope : Nat) : List Rel :=
  if (s.view t).seen.isEmpty then [] else [{ slot := t.1, core := t.2.1, scope := scope, ids := (s.view t).seen }]

/-- A fence of a thread on path CC [09 R209, R211, R217]. -/
def State.fenceCc (s : State) (t : Nat × Nat × Nat) (e : BitVec 3) (scope : Nat) : State :=
  let s1 := if semAcquires e then s.acquireCc t scope else s
  let s2 := if e == 4#3 then (s1.scAfter t scope).scBefore t scope else s1
  if semReleases e then
    let v := s2.view t
    s2.putView { v with rels := v.rels.filter (fun x => x.scope != scope) ++ s2.relOf t scope }
  else s2

/-- The read of an atomic of a thread at its place, with the semantics it carries [09 R209, R212, R216, R217]. -/
def State.ccAtomicRead (s : State) (t : Nat × Nat × Nat) (space a n : Nat) : State :=
  let l := s.ms.learnt (some (t.1, t.2.1)) space a n
  let s1 := s.learns t l
  match (s1.view t).sem with
  | none => s1
  | some (e, scope) =>
    let s2 := if semAcquires e then s1.join t scope l.2 else s1
    let s3 := if semAcquires e && 4 ≤ scope then s2.windowAcquire t else s2
    if e == 4#3 then s3.scAfter t scope else s3

/-- The releases that an atomic of a thread carries of its own. -/
def State.ownRel (s : State) (t : Nat × Nat × Nat) : List Rel :=
  match (s.view t).sem with
  | some (e, scope) => if semReleases e then s.relOf t scope else []
  | none => []

/-- The semantics that a thread's atomic in progress carries, set or cleared. -/
def State.setSem (s : State) (t : Nat × Nat × Nat) (x : Option (BitVec 3 × Nat)) : State := s.putView { s.view t with sem := x }

/-- The end of a thread's atomic at its place: one that is sc comes before the sc operations that follow it, with its own write
[09 R217]. -/
def State.endSem (s : State) (t : Nat × Nat × Nat) : State :=
  match (s.view t).sem with
  | some (e, scope) => (if e == 4#3 then s.scBefore t scope else s).setSem t none
  | none => s

/-- A thread's access at a peer has ended: an acquire that it carries at domain scope is a window acquire; a narrower one meets no release of
a peer [09 R208, R212, R219, R220]. -/
def State.ccPeerEnd (s : State) (t : Nat × Nat × Nat) : State :=
  match (s.view t).sem with
  | some (e, scope) => (if semAcquires e && 4 ≤ scope then s.windowAcquire t else s).setSem t none
  | none => s

/-- The staged bytes of the bytes of a space that a unit reads: a buffer of its core, a stack, an expander, host memory. -/
def State.spaceBytes (s : State) (u : Stream) (space a n : Nat) : List Byte :=
  if space < 3 then
    match u.site with
    | some (sl, c) => (match s.region sl with | some r => mread ((r.core c).buf space) a n | none => [])
    | none => []
  else if space < 32 then s.locRead (.hbm (space - 16) a) n
  else if space < 64 then s.locRead (.cxl (space - 48) a) n
  else if space == 64 then s.locRead (.host 0 a) n
  else []

/-- A unit of a path fills its staging with a granule, ahead of its reads [09 R207, R215]. -/
def State.prefetch (s : State) (u : Stream) (thr space addr : Nat) : State :=
  let a := addr / 32 * 32
  if u.path == 8 || s.ms.stage.any (fun b => b.unit == u && b.thr == thr && b.within u.site space a 32) then s
  else s.fillStage u thr space a (s.spaceBytes u space a 32)

end Sys2Proof.Machine
end

