-- ==== Sys2Proof/Machine/CcCore.lean ====
section
/-! DEFINITION. The control core: registers, program counter and hardware loop, special registers, the choice of the
thread that issues, waits, buffers, staging of the CC path [06 R144, R151 to R155; 09 R207, R214; 12 R276 to R279, R287,
R313, R314]. -/

namespace Sys2Proof.Machine

/-- The thread that the focus names, in its core and region. -/
structure Cc where
  slot : Nat
  core : Nat
  thr  : Nat
  r    : Region
  c    : Core
  t    : Thread

/-- The place of a thread, as the memory system names it. -/
def Cc.id (k : Cc) : Nat × Nat × Nat := (k.slot, k.core, k.thr)

/-- The focus's thread. -/
def State.ccOf (s : State) : Option Cc :=
  match s.region s.focus.slot with
  | none => none
  | some r =>
    some { slot := s.focus.slot, core := s.focus.core, thr := s.focus.thr, r := r, c := r.core s.focus.core,
           t := (r.core s.focus.core).thread s.focus.thr }

/-- A control-core meaning: it acts on the focus's thread. -/
def State.cc (s : State) (g : Cc → State) : Out :=
  .next (match s.ccOf with
    | none => s
    | some k => g k)

/-- A register as read; s0 is 0 [06 R151; 11 R268]. -/
def Thread.rd (t : Thread) (n : BitVec 5) : Word := if n = 0#5 then 0 else tget t.regs 0 n.toNat

/-- A register write that becomes readable at a clk; a write to s0 is discarded [06 R153; 11 R268]. -/
def Thread.wr (t : Thread) (n : BitVec 5) (ready : Nat) (v : Word) : Thread :=
  if n = 0#5 then t else { t with pend := t.pend ++ [⟨ready, n, v⟩] }

/-- Whether the word at the program counter is the last of an active loop body [12 R287]. -/
def Thread.loopEnd (t : Thread) : Bool := t.lcnt != 0#64 && t.pc == t.lend - 4

/-- The thread past an instruction that does not transfer control: the loop acts at LEND - 4 [12 R276, R287]. -/
def Thread.advance (t : Thread) : Thread :=
  if t.loopEnd then
    (if t.lcnt == 1#64 then { t with lcnt := 0, pc := t.lend } else { t with lcnt := t.lcnt - 1, pc := t.lbeg })
  else { t with pc := t.pc + 4 }

/-- The thread written back. -/
def Cc.put (k : Cc) (s : State) (t : Thread) : State := s.putThread k.slot k.core k.thr t

/-- An instruction of fixed latency ends: its result readable after `lat` clk, and the pc past it [06 R153; 12 R276]. -/
def Cc.fixed (k : Cc) (s : State) (rd : BitVec 5) (lat : Nat) (v : Word) : State :=
  k.put s ((k.t.wr rd (k.c.clk + lat) v).advance)

/-- The thread after a unit outside it has acted: its next instruction reads the answer in a register, and the thread blocks until the answer
arrives [06 R153; 12 R314]. -/
def Thread.answer (t : Thread) (clk : Nat) (rd : BitVec 5) (v : Word) : Thread :=
  { (t.wr rd clk v).advance with st := .block .answer }

/-- A unit outside the thread has acted and answers. -/
def Cc.answer (k : Cc) (s : State) (rd : BitVec 5) (v : Word) : State := k.put s (k.t.answer k.c.clk rd v)

/-- A synchronous trap of the thread [06 R155; 12 R279]. -/
def Cc.trap (k : Cc) (s : State) (code : Nat) (tv : Word) : State := s.trapAt k.slot k.core k.thr code tv k.t.pc

/-- A trap ILLEGAL raised by an entry: TVAL is the word [06 R155]. -/
def Cc.illegal (k : Cc) (s : State) : State := k.trap s trILLEGAL (s.focus.word.setWidth 64)

/-- The operands of RA, RB and RD: as read at issue, also while the instruction waits [12 R314]. -/
def Cc.opnd (k : Cc) (a b d : BitVec 5) : Word × Word × Word :=
  match k.t.st with
  | .block (.retry x y z) => (x, y, z)
  | _ => (k.t.rd a, k.t.rd b, k.t.rd d)

/-- The instruction waits with its operands; the pc stays on it [12 R314]. -/
def Cc.wait (k : Cc) (s : State) (o : Word × Word × Word) : State :=
  k.put s { k.t with st := .block (.retry o.1 o.2.1 o.2.2) }

/-- The length of a buffer; the top 2 MiB of W are left out in an SFREE image [06 R144]. -/
def bufLen (sfree : Bool) (i : Nat) : Nat :=
  match i with
  | 0 => if sfree then 0x400000 else 0x600000
  | 1 => 0x300000
  | 2 => 0x180000
  | _ => 0

/-- Whether an address names the buffer window [12 R277]. -/
def isWindow (a : Word) : Bool := bitsAt a.toNat 62 2 == 3

/-- The buffer and offset of `n` bytes at a window address, when they lie in a buffer [06 R144]. -/
def Region.window (r : Region) (a : Word) (n : Nat) : Option (Nat × Nat) :=
  let x := a.toNat - 0xC000000000000000
  let sel := x / 0x1000000
  let off := x % 0x1000000
  if isWindow a && off + n ≤ bufLen r.sfree sel then some (sel, off) else none

/-- The memory that a place lies in, as a number of a staging entry: 0 to 2 the buffers, then the stacks, expanders, host. -/
def Loc.space : Loc → Nat × Nat
  | .hbm st off => (16 + st, off)
  | .cxl p off => (48 + p, off)
  | .host _ a => (64, a)
  | .peer d va => (256 + d.toNat, va.toNat)

/-- Bytes written at an address by a unit of h; what threads have staged of them is behind the write [09 R215, R218]. -/
def State.nput (s : State) (ten apers : Nat) (va : Word) (b : List Byte) : State × Option FaultInfo :=
  let (s1, f) := s.vput ten apers va b
  ((s.places ten needW (b.length / 65536 + 2) 0 va b.length).foldl (fun s p =>
    s.unitWrote none p.1.space.1 (addrs p.1.space.2 p.2.2)) s1, f)

/-- Bytes of a buffer of a region's core. -/
def State.bufRead (s : State) (slot core i off n : Nat) : List Byte :=
  match s.region slot with
  | some r => mread ((r.core core).buf i) off n
  | none => []

/-- Bytes written to a buffer of a region's core on a path; what tokens and copies write, staging of it on their path goes, and that of
control-core threads is behind it [09 R213, R215] (log 8). -/
def State.bufWrite (s : State) (slot core i off : Nat) (b : List Byte) (path : Nat) : State :=
  let s1 := s.onRegion slot (fun r => r.putCore core ((r.core core).putBuf i (mwrite ((r.core core).buf i) off b)))
  if path == 0 then s1
  else (s1.dropStage (fun x => x.unit.path == path && x.unit.site == some (slot, core) && x.space == i && off ≤ x.addr &&
      x.addr < off + b.length)).unitWrote (some (slot, core)) i (addrs off b.length)

/-- Bytes of a buffer as a unit reads them: from the buffer, or from its own staging (log 8). -/
def State.bufReadAs (s : State) (u : Stream) (thr slot core i off n : Nat) : State × List Byte :=
  let a := off / 8 * 8
  let m := (off + n + 7) / 8 * 8 - a
  let (s1, b) := s.stageRead u thr i a (s.bufRead slot core i a m)
  (s1, (b.drop (off - a)).take n)

/-- A store of a control-core thread to a buffer: in memory at once, and its own staging updated [06 R146; 12 R278]. -/
def State.ccBufStore (s : State) (k : Cc) (i off : Nat) (b : List Byte) : State :=
  ((s.bufWrite k.slot k.core i off b 0).ccWrote k.id i (addrs off b.length) false []).fillBytes (.cc k.slot k.core) k.thr i (bytesAt off b)

/-- An update of bytes of a buffer by an atomic of a control-core thread, with the releases it carries of its own [09 R212, R216]. -/
def State.ccBufAtomic (s : State) (k : Cc) (i off : Nat) (b : List Byte) (own : List Rel) : State :=
  ((s.bufWrite k.slot k.core i off b 0).ccWrote k.id i (addrs off b.length) true own).fillStage (.cc k.slot k.core) k.thr i off b

/-- A write put before those that become readable later [06 R153]. -/
def byClk (key : α → Nat) (a : α) : List α → List α
  | [] => [a]
  | b :: r => if key a ≤ key b then a :: b :: r else b :: byClk key a r

/-- Writes in the order in which they become readable; of one clk, in the order of issue [06 R153]. -/
def inClkOrder (key : α → Nat) : List α → List α
  | [] => []
  | a :: r => byClk key a (inClkOrder key r)

/-- A thread at a clk: the register writes that have become readable, each at its own time [06 R153]. -/
def Thread.commit (t : Thread) (clk : Nat) : Thread :=
  let due := inClkOrder RegPend.ready (t.pend.filter (fun p => p.ready ≤ clk))
  { t with regs := due.foldl (fun m p => tset m p.reg.toNat p.v) t.regs, pend := t.pend.filter (fun p => clk < p.ready),
           st := match t.st with
             | .block (.till n) => if n ≤ clk then .run else t.st
             | x => x }

/-- A CSR of a thread written [06 R154]. -/
def Thread.putCsr (t : Thread) (n : Nat) (v : Word) : Thread :=
  match n with
  | 0x000 => { t with ie := v.getLsbD 0, inh := v.getLsbD 1 }
  | 0x001 => { t with tvec := v }
  | 0x002 => { t with epc := v }
  | 0x005 => { t with scratch := v }
  | 0x008 => { t with lcnt := v }
  | 0x009 => { t with lbeg := v }
  | 0x00A => { t with lend := v }
  | _ => t

/-- A CSR of a core written: CCFG keeps its RO bits 0, EVPEND clears the bits written as 1 [06 R154]. -/
def Core.putCsr (c : Core) (n : Nat) (v : Word) : Core :=
  match n with
  | 0x100 => { c with ccfg := v.setWidth 2 }
  | 0x104 => { c with evpend := c.evpend &&& ~~~(v.setWidth 4) }
  | _ => c

/-- The CSR writes of a core's threads that govern from a clk on, each at its own time [12 R313]. -/
def Core.commitCsr (c : Core) (clk : Nat) : Core :=
  let due := inClkOrder (fun p => p.2.ready)
    ((List.range 4).flatMap (fun i => ((c.thread i).csrPend.filter (fun p => p.ready ≤ clk)).map (fun p => (i, p))))
  let c1 := (List.range 4).foldl (fun c i =>
    c.putThread i { c.thread i with csrPend := (c.thread i).csrPend.filter (fun p => clk < p.ready) }) c
  due.foldl (fun c p => (c.putThread p.1 ((c.thread p.1).putCsr p.2.num.toNat p.2.v)).putCsr p.2.num.toNat p.2.v) c1

/-- A core at a clk: what was issued earlier becomes readable. -/
def Core.startClk (c : Core) (clk : Nat) : Core :=
  (List.range 4).foldl (fun c i => c.putThread i ((c.thread i).commit clk)) (c.commitCsr clk)

/-- A core at the clk of the present time: 1 clk is 1 ns from the entry of its region into RUN on, so the clks in which it was not looked at
are past [00 R1; 06 R154] (log 1). -/
def Core.atTime (c : Core) (now : Nat) : Core := ({ c with clk := max c.clk now } : Core).startClk now

/-- A region at a time in ns; one that is not running keeps its clk. -/
def Region.atTime (r : Region) (t : Nat) : Region :=
  if r.running then { r with now := t - r.started, cores := r.cores.map (fun p => (p.1, p.2.atTime (t - r.started))) } else r

/-- A core at the end of a clk. -/
def Core.endClk (c : Core) : Core := { c with clk := c.clk + 1 }

/-- A CSR as read [06 R154]; none for a number that is not listed. -/
def State.csrRead (s : State) (k : Cc) (n : Nat) : Option Word :=
  match n with
  | 0x000 => some ((if k.t.ie then 1 else 0) + (if k.t.inh then 2 else 0))
  | 0x001 => some k.t.tvec
  | 0x002 => some k.t.epc
  | 0x003 => some (k.t.cause.setWidth 64)
  | 0x004 => some k.t.tval
  | 0x005 => some k.t.scratch
  | 0x008 => some k.t.lcnt
  | 0x009 => some k.t.lbeg
  | 0x00A => some k.t.lend
  | 0x100 => some (k.c.ccfg.setWidth 64)
  | 0x101 => some (BitVec.ofNat 64 (k.r.ten % 16 * 2 ^ 16 + k.c.die % 4 * 2 ^ 14 + k.c.pos % 64 * 2 ^ 8 + k.core % 64))
  | 0x102 => some (BitVec.ofNat 64 k.c.clk)
  | 0x103 => some (BitVec.ofNat 64 s.time)
  | 0x104 => some (k.c.evpend.setWidth 64)
  | 0x105 => some (BitVec.ofNat 64 ((List.range 4).foldl (fun a i =>
      a + (match (k.c.thread i).st with
        | .run => 0
        | .wfe _ => 1
        | .block _ => 2
        | .halt => 3) * 2 ^ (2 * i)) 0))
  | _ => none

/-- Whether a CSR takes writes [06 R154]. -/
def csrWritable (n : Nat) : Bool := [0x000, 0x001, 0x002, 0x005, 0x008, 0x009, 0x00A, 0x100, 0x104].contains n

/-- A CSR instruction: the old value to RD after 2 clk, the new value in effect 2 clk later, at once for LCNT, LBEG and
LEND [12 R313]; `new` gives the value to write from the old one, none for CSRR. -/
def Cc.csr (k : Cc) (s : State) (rd : BitVec 5) (num : BitVec 12) (new : Word → Option Word) (write : Bool) : State :=
  match s.csrRead k num.toNat with
  | none => k.trap s trCSRBAD (num.setWidth 64)
  | some old =>
    if write && !csrWritable num.toNat then k.trap s trCSRBAD (num.setWidth 64)
    else
      let t1 := (k.t.wr rd (k.c.clk + 2) old).advance
      match new old with
      | none => k.put s t1
      | some v =>
        if num.toNat == 0x008 || num.toNat == 0x009 || num.toNat == 0x00A then k.put s (t1.putCsr num.toNat v)
        else k.put s { t1 with csrPend := t1.csrPend ++ [⟨k.c.clk + 2, num, v⟩] }

/-- Whether a thread may issue in a clk [06 R152]. -/
def Core.canIssue (c : Core) (i : Nat) : Bool := (c.thread i).st == .run && (c.thread i).next ≤ c.clk

/-- The thread that issues in this clk: the current one, else the next in order that can [06 R152]. -/
def Core.pick (c : Core) : Option Nat :=
  ((List.range 4).map (fun i => (c.cur + i) % 4)).find? c.canIssue

/-- The core after a thread has issued a word: gap, issue count, current thread [06 R152]. -/
def Core.issued (c : Core) (i : Nat) (w : W32) : Core :=
  let t := c.thread i
  let c0 := c.putThread i { t with next := c.clk + 1 + bitsAt w.toNat 23 2 }
  let c1 := if (c.thread c.cur).st == .run then c0 else { c0 with cur := i, cnt := 0 }
  if c1.cur == i then
    if w.getLsbD 25 || 63 ≤ c1.cnt then { c1 with cur := (i + 1) % 4, cnt := 0 } else { c1 with cnt := c1.cnt + 1 }
  else c1

/-- The next thread in order becomes current, when this one still is [06 R152; 12 R312]. -/
def Core.yield (c : Core) (i : Nat) : Core := if c.cur == i then { c with cur := (i + 1) % 4, cnt := 0 } else c

/-- The word at a code address; none at or beyond CODELEN words, and at an address that is not 4-byte aligned
[06 R155; 11 R268, R272]. -/
def Core.fetch (c : Core) (pc : Word) : Option W32 :=
  if pc.toNat % 4 == 0 && pc.toNat / 4 < c.codeLen then some (BitVec.ofNat 32 (leNum (mread c.code pc.toNat 4))) else none

/-- The lowest pending asynchronous trap of a core [06 R155]. -/
def Core.pendingTrap (c : Core) : Option Nat := (List.range 4).find? (fun i => c.evpend.getLsbD i)

/-- Whether a thread state can be left for an asynchronous trap: running, waiting in WFE, or in a wait without bound
[06 R155; 12 R314]. -/
def ThState.interruptible : ThState → Bool
  | .run | .wfe _ => true
  | .block (.retry _ _ _) | .block .cfgw | .block .queue => true
  | _ => false

/-- The thread that takes asynchronous traps, and the trap it takes now [06 R155]. -/
def Core.asyncNow (c : Core) : Option (Nat × Nat) :=
  let i := c.ccfg.toNat
  let t := c.thread i
  match c.pendingTrap with
  | none => none
  | some b => if t.ie && t.canTrap && t.st.interruptible then some (i, b) else none

/-- A thread whose event bit is set: one in WFE goes on [12 R311, R312]. -/
def Thread.wake (t : Thread) : Thread :=
  match t.st with
  | .wfe true => { t with st := .run, event := false }
  | .wfe false => { t.advance with st := .run, event := false }
  | _ => { t with event := true }

/-- Whether injection in a region stalls: a drain, a waiting CFGW, an EXIT in progress [05 R114; 06 R141; 12 R310]. -/
def Region.stalled (r : Region) : Bool :=
  r.draining || r.exit.isSome || r.cores.any (fun p => p.2.elems.any (fun q => !q.2.cfgWait.isEmpty))

/-- The trap of a failed access of a control core [12 R277]. -/
def faultTrap (f : FaultInfo) : Nat := if f.mem then trMEMERR else trXLFAULT

/-- A failed access of a control-core thread: the record, then the trap with the access address [12 R277]. -/
def State.ccFault (s : State) (slot core thr : Nat) (va : Word) (f : FaultInfo) : State :=
  match s.region slot with
  | none => s
  | some r =>
    let t := (r.core core).thread thr
    (s.putThread slot core thr { t with st := .run }).record r.ten slot 0xFFFF 0 0 f
      |>.trapAt slot core thr (faultTrap f) va t.pc

end Sys2Proof.Machine
end

