-- ==== Sys2Proof/Machine/Barrier.lean ====
section
/-! DEFINITION. Transaction barriers [08 R202, R203]. -/

namespace Sys2Proof.Machine

/-- A transaction barrier's fields [08 R202]. -/
structure TBar where
  phase   : Nat
  parr    : Nat
  exparr  : Nat
  psect   : Nat
  flags   : Nat
  sreload : Nat
deriving DecidableEq, Repr

/-- A barrier from its 16 bytes; reserved bits are not read [08 R203]. -/
def TBar.ofNum (v : Nat) : TBar :=
  { phase := bitsAt v 0 4, parr := bitsAt v 4 20, exparr := bitsAt v 24 20, psect := bitsAt v 44 32, flags := bitsAt v 76 2,
    sreload := bitsAt v 80 32 }

/-- The 128-bit word of a barrier, reserved bits 0. -/
def TBar.num (b : TBar) : Nat :=
  b.phase + b.parr * 2 ^ 4 + b.exparr * 2 ^ 24 + b.psect * 2 ^ 44 + b.flags * 2 ^ 76 + b.sreload * 2 ^ 80

/-- INIT [08 R203]. -/
def TBar.init (e s : Nat) : TBar := { phase := 0, parr := e, exparr := e, psect := s, flags := 0, sreload := s }

/-- The phase change of an update [08 R203]. -/
def TBar.flip (b : TBar) : TBar :=
  if b.parr == 0 && b.psect == 0 then { b with phase := (b.phase + 1) % 16, parr := b.exparr, psect := b.sreload } else b

/-- ARRIVE [08 R203]. -/
def TBar.arrive (b : TBar) (a s : Nat) : TBar :=
  let b1 := { b with psect := (b.psect + s) % 2 ^ 32 }
  (if b1.parr < a then { b1 with flags := b1.flags ||| 2, parr := 0 } else { b1 with parr := b1.parr - a }).flip

/-- LAND [08 R203]. -/
def TBar.land (b : TBar) (n : Nat) : TBar :=
  (if b.psect < n then { b with flags := b.flags ||| 2, psect := 0 } else { b with psect := b.psect - n }).flip

/-- FAIL [08 R203]. -/
def TBar.fail (b : TBar) : TBar := { b with flags := b.flags ||| 1 }

/-- The barrier at an offset of a buffer. -/
def State.tbar (s : State) (slot core i off : Nat) : TBar := TBar.ofNum (leNum (s.bufRead slot core i off 16))

/-- An update of a barrier by the core's barrier unit: one read and write of the 16 bytes, on path TMO (1) for a token's arrival and CPY (2) for
a copy [08 R203; 09 R207, R216]. -/
def State.tbarPut (s : State) (slot core i off : Nat) (b : TBar) (path : Nat) : State := s.bufWrite slot core i off (leOf 16 b.num) path

/-- An update of a barrier by a control-core thread; an arrival is a release at core scope [08 R203; 09 R209, R216]. -/
def State.tbarCc (s : State) (k : Cc) (i off : Nat) (b : TBar) (own : List Rel) : State := s.ccBufAtomic k i off (leOf 16 b.num) own

end Sys2Proof.Machine
end

