-- ==== Sys2Proof/Machine/Steering.lean ====
section
/-! DEFINITION. Steering nodes [13 R321 to R328], their activations and barriers' arrivals. -/

namespace Sys2Proof.Machine

/-- An operand as it is emitted, a virtual zero as a tile of +0 [07 R180; 13 R315]. -/
def Fire.pass (f : Fire) (t : Token) : Token := f.copy (f.e.zeroTok t)

/-- An operand sent to both destinations. -/
def Fire.passOn (f : Fire) (t : Token) : Fire := let u := f.pass t; f.emit u (f.e.zeroTile u)

/-- An operand sent to one destination. -/
def Fire.passTo (f : Fire) (which : Nat) (t : Token) : Fire := let u := f.pass t; f.emitTo which u (f.e.zeroTile u)

/-- STEER [13 R321]. -/
def execSteer (h : NodeHd) (s : State) : Out :=
  .next (s.fire h (fun f =>
    if f.b.kind != .scalar then f.opfOpen s
    else
      let w := if f.b.value.getLsbD 0 then 0 else 1
      ((f.passTo w f.a).emitTo (1 - w) (f.tok .nil 0 .none) false).finish s))

/-- SELECT [13 R321]. -/
def execSelect (h : NodeHd) (s : State) : Out :=
  .next (s.fire h (fun f =>
    if f.p.kind != .scalar then f.opfOpen s
    else (f.passOn (if f.p.value.getLsbD 0 then f.a else f.b)).finish s))

/-- DUP [13 R321]. -/
def execDup (h : NodeHd) (s : State) : Out := .next (s.fire h (fun f => (f.passOn f.a).finish s))

/-- SINK: any operand is consumed and nothing is emitted [13 R321]; a CFG token is a kind that it does not accept [15 R376]. -/
def execSink (h : NodeHd) (s : State) : Out :=
  .next (match s.startFiring h with
    | none => s
    | some (_, f) => if f.hasCfg then f.badKind s else f.bound (f.finish s))

/-- GATE [13 R321]. -/
def execGate (h : NodeHd) (s : State) : Out := .next (s.fire h (fun f => (f.passOn f.a).finish s))

/-- JOIN [13 R321]. -/
def execJoin (h : NodeHd) (s : State) : Out := .next (s.fire h (fun f => (f.emitScalar 0).finish s))

/-- EOS: an EOS token for an operand of any kind that R161 does not override [13 R321]. -/
def execEos (h : NodeHd) (s : State) : Out :=
  .next (s.fire h (fun f => (f.emit (f.tok .eos 0 .none) false).finish s))

/-- The colour that a MERGE node expects for a context: the first admitted live colour of the context from the one that it holds
on; a purged colour is skipped, and so is one that has retired, since retirement moves a held colour with LEAD; none while
the next has not been admitted [07 R178; 13 R322]. -/
def Region.expected (r : Region) (e : Elem) (node : Nat) (x : BitVec 12) : Option (BitVec 8) :=
  let cs := (r.coloursOf x).filter (fun c => !r.purged.contains c)
  match e.merges.find? (fun m => m.node == node && m.ctx == x) with
  | none => cs.head?
  | some m => (cs.filter (fun c => m.colour - r.lead ≤ c - r.lead)).head?

/-- The MERGE expectation moved past a colour [07 R178]. -/
def Elem.expectAfter (e : Elem) (node : Nat) (x : BitVec 12) (c : BitVec 8) : Elem :=
  { e with merges := e.merges.filter (fun m => !(m.node == node && m.ctx == x)) ++ [⟨node, x, c + 1⟩] }

/-- Whether an operand is a row beat that is not the last of its colour [07 R157]. -/
def Token.moreRows (t : Token) : Bool := (t.kind == .arow || t.kind == .vrow) && !t.aux.getLsbD 7

/-- MERGE [13 R322]: the expected colour of the context fires; FAULT and EOS wait for their turn as values; the colour of row beats is left
with the last of them (log 50). -/
def execMerge (h : NodeHd) (s : State) : Out :=
  let fo := s.focus
  .next (match s.region fo.slot with
    | none => s
    | some r =>
      let e := r.elem fo.core fo.elem
      let row := fo.row.getD 0
      if !r.acts || !e.used || r.expected e fo.node fo.ctx != some fo.colour then s
      else match e.operands fo.node fo.ctx fo.colour row [0#2, 1#2] with
        | none => s
        | some l =>
          if l.all (fun x => x.2.act == 1#2) then s
          else
            let r1 := (r.consume fo.core fo.elem fo.node false l).fired_ fo.core fo.elem fo.node (h.yld == 1#1)
            let f0 : Fire :=
              { slot := fo.slot, core := fo.core, elem := fo.elem, node := fo.node, ctx := fo.ctx, colour := fo.colour,
                h := h, r := r1, e := r1.elem fo.core fo.elem, a := opAt l 0, b := opAt l 1, p := Token.absent, vz := false }
            let f := if f0.a.moreRows || f0.b.moreRows then f0 else f0.withE (f0.e.expectAfter fo.node fo.ctx fo.colour)
            if f.a.kind != .fault && f.b.kind != .fault && f.hasCfg then f.badKind s
            else f.bound ((if f.a.kind == .fault then f.emit (f.tok .fault f.a.aux .none) false
             else if f.b.kind == .fault then f.emit (f.tok .fault f.b.aux .none) false
             else if f.a.kind == .nil && f.b.kind == .nil then f.emit (f.tok .nil 0 .none) false
             else if f.a.kind == .nil then f.passOn f.b
             else if f.b.kind == .nil then f.passOn f.a
             else (f.passTo 0 f.a).passTo 1 f.b).finish s))

/-- What a colour-advancing firing may do with a target colour [07 R163]. -/
inductive Advance where
  | go (r : Region)
  | stall
  | bad

/-- A colour-advancing firing of colour `c` and context `x` that would emit colour `k` [07 R163; 13 R317]. -/
def Region.advance (r : Region) (x : BitVec 12) (lead c k : BitVec 8) : Advance :=
  if k == r.next then (if r.mayAdvance lead c then .go (r.bringIn x) else .stall)
  else if r.isLive k && r.owner k == some x then .go r
  else .bad

/-- A token on another colour. -/
def Token.on (t : Token) (k : BitVec 8) : Token := { t with colour := k }

/-- CINC and CEXIT: the operand at another colour, or no firing while admission must wait [13 R323].
The region before the firing decides, so that a waiting firing does not begin. -/
def State.recolour (s : State) (h : NodeHd) (target : Fire → Option (BitVec 8)) : State :=
  s.fire h (fun f =>
    match target f with
    | none => f.opfOpen s
    | some k =>
      match f.r.advance f.ctx f.e.lead f.colour k with
      | .stall => s
      | .bad => f.opfOpen s
      | .go r =>
        let f1 := f.withR r
        let u := (f1.pass f1.a).on k
        (f1.emit u (f.e.zeroTile u)).finish s)

/-- CINC [13 R323]. -/
def execCinc (h : NodeHd) (s : State) : Out := .next (s.recolour h (fun f => some (f.colour + 1)))

/-- CEXIT: the previous colour, or the colour that port R gives [13 R323]. -/
def execCexit (h : NodeHd) (s : State) : Out :=
  .next (s.recolour h (fun f =>
    if h.mm == 0#2 then some (f.colour - 1)
    else if f.b.kind == .scalar then some (f.b.value.setWidth 8) else none))

/-- CENTER: admits NEXT [13 R323]. -/
def execCenter (h : NodeHd) (s : State) : Out :=
  .next (s.fire h (fun f =>
    if !f.r.mayAdvance f.e.lead f.colour then s
    else
      let k := f.r.next
      let f1 := f.withR (f.r.bringIn f.ctx)
      let u := (f1.pass f1.a).on k
      ((f1.emitTo 0 u (f.e.zeroTile u)).emitTo 1 (Token.scalarOf f.ctx k (f.colour.setWidth 64)) false).finish s))

/-- The body token of a loop: the iteration number with the value's low word above it [13 R324]. -/
def bodyTok (x : BitVec 12) (k : BitVec 8) (i : Nat) (v : Word) : Token :=
  Token.scalarOf x k (BitVec.ofNat 64 i + ((v.setWidth 32).setWidth 64 <<< 32))

/-- The activation of a LOOPN node for a context. -/
def Elem.loopOf (e : Elem) (node : Nat) (x : BitVec 12) : Option LoopAct :=
  e.loops.find? (fun a => a.node == node && a.ctx == x)

/-- An element with the activation of a node and context replaced. -/
def Elem.putLoop (e : Elem) (node : Nat) (x : BitVec 12) (a : Option LoopAct) : Elem :=
  { e with loops := e.loops.filter (fun b => !(b.node == node && b.ctx == x)) ++ a.toList }

/-- LOOPN, the entry firing: it waits for a general entry of port L for its activation [07 R166; 13 R324, R325]. -/
def execLoopn (h : NodeHd) (count : W32) (s : State) : Out :=
  .next (s.fire h (fun f =>
    if f.a.kind != .scalar || (h.mm == 1#2 && f.b.kind != .scalar) then f.opfOpen s
    else
      let n := if h.mm == 0#2 then count.toNat else f.b.value.toNat % 2 ^ 32
      if (f.e.loopOf f.node f.ctx).isSome then s
      else if n == 0 then (f.emitTo 1 (f.tok .scalar 0 (.word f.a.value)) false).finish s
      else if !f.r.mayAdvance f.e.lead f.colour || f.e.pcap ≤ f.e.generalUsed f.node 0 + 1 then s
      else
        let k := f.r.next
        let f1 := (f.withR (f.r.bringIn f.ctx)).emitTo 0 (bodyTok f.ctx k 0 f.a.value) false
        let f2 := f1.withE (f1.e.putLoop f.node f.ctx (some ⟨f.node, f.ctx, k, 0, n, f.a.value⟩))
        (f2.withR (f2.r.count f.core k 1)).finish s))

/-- LOOPN_STEP: the step firing of an activation, under the arbiter's conditions as any firing [07 R162; 13 R324]. -/
def execLoopnStep (slot core elem node ctx : Nat) (s : State) : Out :=
  .next (match s.region slot with
    | none => s
    | some r =>
      let e := r.elem core elem
      let x := BitVec.ofNat 12 ctx
      if !r.acts || !s.mayFire r core elem then s
      else match e.loopOf node x with
      | none => s
      | some a =>
        let h := recHd (e.rec_ node)
        if a.i + 1 < a.n then
          if !r.mayAdvance e.lead a.k then s
          else
            let k2 := r.next
            let r1 := ((r.bringIn x).send core elem node 0 h.d0 (bodyTok x k2 (a.i + 1) a.v) false).fired_ core elem node (h.yld == 1#1)
            let r2 := r1.putElem core elem ((r1.elem core elem).putLoop node x (some { a with k := k2, i := a.i + 1 }))
            s.putRegion slot ((r2.count core k2 1).count core a.k (-1))
        else
          let r1 := (r.send core elem node 1 h.d1 (Token.scalarOf x a.k a.v) false).fired_ core elem node (h.yld == 1#1)
          let r2 := r1.putElem core elem ((r1.elem core elem).putLoop node x none)
          s.putRegion slot (r2.count core a.k (-1)))

/-- INVAR: the operand as a sticky token [13 R326]. -/
def execInvar (h : NodeHd) (s : State) : Out :=
  .next (s.fire h (fun f => let u := { f.pass f.a with act := 1#2 }; (f.emit u false).finish s))

/-- PURGEN: the operand as a purge-partner token [13 R326]. -/
def execPurgen (h : NodeHd) (s : State) : Out :=
  .next (s.fire h (fun f => let u := { f.pass f.a with act := 2#2 }; (f.emit u false).finish s))

/-- The arrival phase of an element for a barrier of a core [09 R222]. -/
def Elem.phaseOf (e : Elem) (bcore bar : Nat) : BitVec 4 := tget e.phases 0#4 (bcore * 64 + bar)

/-- BARV: one arrival sent, the operand held, an outstanding operation of its colour [13 R327]. -/
def execBarv (h : NodeHd) (bcore bar : BitVec 6) (s : State) : Out :=
  .next (s.fire h (fun f =>
    let ph := f.e.phaseOf bcore.toNat bar.toNat
    let hold : BarHeld := { node := f.node, bcore := bcore.toNat, bar := bar.toNat, phase := ph, tok := f.pass f.a, orphan := false }
    let f1 := f.withE { f.e with barv := f.e.barv ++ [hold] }
    let bc := f1.r.core bcore.toNat
    let r1 := f1.r.putCore bcore.toNat { bc with arrs := bc.arrs ++ [⟨f.core, f.elem, f.node, bar.toNat, ph, f.ctx, f.colour⟩] }
    (f1.withR (r1.count f.core f.colour 1)).finish s))

/-- Whether a held operand is that of an arrival that its barrier unit has not counted [09 R222]. -/
def BarHeld.sent (x : BarHeld) (core : Nat) (a : Arrival) : Bool :=
  x.node == a.node && x.bcore == core && x.bar == a.bar && x.phase == a.phase && x.tok.ctx == a.ctx && x.tok.colour == a.colour && !x.counted

/-- The first entry of a list that passes a test changed. -/
def mapFirst (p : α → Bool) (f : α → α) : List α → List α
  | [] => []
  | a :: r => if p a then f a :: r else a :: mapFirst p f r

/-- The element of an arrival that its barrier unit has counted. -/
def Elem.countArrival (e : Elem) (core : Nat) (a : Arrival) : Elem :=
  { e with barv := mapFirst (fun x => x.sent core a) (fun x => { x with counted := true }) e.barv }

/-- The element of an arrival that takes the BAROVER branch: it holds the operand no longer, and keeps its arrival phase [09 R222]. -/
def Elem.overArrival (e : Elem) (core : Nat) (a : Arrival) : Elem :=
  { e with barv := dropFirst (fun x => x.sent core a) e.barv,
           barOver := if e.barOver.contains (core * 64 + a.bar) then e.barOver else e.barOver ++ [core * 64 + a.bar] }

/-- Whether a held operand is freed by the release of a barrier's phase [09 R222]. -/
def BarHeld.freed (x : BarHeld) (bcore bar : Nat) (ph : BitVec 4) : Bool := x.bcore == bcore && x.bar == bar && x.phase == ph && x.counted

/-- BARRIER_ARRIVAL: the barrier unit of a core takes an arrival: it counts it, and with the last of the phase releases the held ones; or it
takes the BAROVER branch, which emits nothing for a purged colour [09 R222, R223]. -/
def execBarrierArrival (slot core idx : Nat) (s : State) : Out :=
  .next (match s.region slot with
    | none => s
    | some r =>
      let c := r.core core
      match c.arrs[idx]? with
      | none => s
      | some a =>
        let b := tget c.bars ⟨0, 0, 0, 0⟩ a.bar
        let r0 := r.putCore core { c with arrs := ldel c.arrs idx }
        let e := r0.elem a.ecore a.elem
        if b.exp == 0#20 || a.phase != b.phase then
          let r2 := r0.putElem a.ecore a.elem (e.overArrival core a)
          let r3 :=
            if e.barv.any (fun x => x.sent core a && !x.orphan) then
              (r2.send2 a.ecore a.elem a.node (recHd (e.rec_ a.node)) (Token.mk0 .fault a.ctx a.colour 0x0C#8 .none) false).count a.ecore a.colour (-1)
            else r2
          (s.putRegion slot (r3.raise a.ecore 2 (BitVec.ofNat 64 a.bar))).record r.ten slot (elemField (r.core a.ecore) a.elem) a.ctx.toNat
            a.colour.toNat (FaultInfo.of 0x0C 0)
        else
          let r1 := r0.putElem a.ecore a.elem (e.countArrival core a)
          let c1 := r1.core core
          if (b.arr + 1) == b.exp then
            let cores := (r1.cores.filter (fun p => p.2.elems.any (fun q => q.2.barv.any (fun x => x.freed core a.bar b.phase)))).map (fun p => p.1)
            let rels : List BarRelease := r1.cores.flatMap (fun p =>
              (p.2.elems.filter (fun q => q.2.barv.any (fun x => x.freed core a.bar b.phase))).map
                (fun q => ({ ecore := p.1, elem := q.1, bar := a.bar, phase := b.phase, scope := b.scope, from_ := cores } : BarRelease)))
            s.putRegion slot (r1.putCore core { c1 with
              bars := tset c1.bars a.bar { b with phase := b.phase + 1, arr := 0 }, rels := c1.rels ++ rels })
          else s.putRegion slot (r1.putCore core { c1 with bars := tset c1.bars a.bar { b with arr := b.arr + 1 } }))

/-- The held BARV operands of a barrier's phase emitted [13 R327]; an orphaned one emits nothing [09 R223]. -/
def Region.releaseHeld (r : Region) (core elem bcore bar : Nat) (ph : BitVec 4) : List BarHeld → Region
  | [] => r
  | x :: xs =>
    let r1 :=
      if x.freed bcore bar ph && !x.orphan then
        let h := recHd ((r.elem core elem).rec_ x.node)
        (r.send2 core elem x.node h x.tok ((r.elem core elem).zeroTile x.tok)).count core x.tok.colour (-1)
      else r
    r1.releaseHeld core elem bcore bar ph xs

/-- The acquire of a barrier's release at a core: arrivals of other cores within its SCOPE instance are ordered before what follows, so what the
core's AEs staged before goes [09 R209, R212, R221, R222] (log 8). -/
def State.acquireBar (s : State) (slot core scope : Nat) (arrived : List Nat) : State :=
  if arrived.any (fun a => a != core && s.together (scope + 1) (slot, a) (slot, core)) then
    s.dropStage (fun b => b.unit.path == 1 && b.unit.site == some (slot, core))
  else s

/-- BARRIER_RELEASE: a release reaches an element, whose arrival phase moves on unless an arrival of it took the BAROVER branch
[09 R222; 13 R327]. -/
def execBarrierRelease (slot core elem bcore bar : Nat) (s : State) : Out :=
  .next (match s.region slot with
    | none => s
    | some r =>
      let bc := r.core bcore
      match bc.rels.find? (fun x => x.ecore == core && x.elem == elem && x.bar == bar) with
      | none => s
      | some rel =>
        let r0 := r.putCore bcore { bc with rels := dropFirst (· == rel) bc.rels }
        let r1 := r0.releaseHeld core elem bcore bar rel.phase (r0.elem core elem).barv
        let e := r1.elem core elem
        let e1 := { e with barv := e.barv.filter (fun x => !x.freed bcore bar rel.phase),
                           phases := if e.barOver.contains (bcore * 64 + bar) then e.phases else tset e.phases (bcore * 64 + bar) (rel.phase + 1) }
        (s.acquireBar slot core rel.scope.toNat rel.from_).putRegion slot (r1.putElem core elem e1).alive)

end Sys2Proof.Machine
end

