-- ==== Sys2Proof/Machine/Scalar.lean ====
section
/-! DEFINITION. Scalar nodes [13 R329 to R331]. -/

namespace Sys2Proof.Machine

/-- A scalar node of two operands: R, or the sign-extended immediate in monadic form; the function gives the result
and ESTAT flags [13 R329]. -/
def State.scalarOp (s : State) (h : NodeHd) (imm : W32) (op : Word → Word → Word × W32) : State :=
  s.fire h (fun f =>
    let mono := h.mm == 0#2
    if f.a.kind != .scalar || (!mono && f.b.kind != .scalar) then f.opfOpen s
    else
      let b := if mono then imm.signExtend 64 else f.b.value
      let (v, fl) := op f.a.value b
      ((f.withE (f.e.flag fl)).emitScalar v).finish s)

/-- An integer scalar node, which sets no flag. -/
def State.scalarInt (s : State) (h : NodeHd) (imm : W32) (op : Word → Word → Word) : State :=
  s.fire h (fun f =>
    let mono := h.mm == 0#2
    if f.a.kind != .scalar || (!mono && f.b.kind != .scalar) then f.opfOpen s
    else (f.emitScalar (op f.a.value (if mono then imm.signExtend 64 else f.b.value))).finish s)

/-- The signed smaller of two words. -/
def sminW (a b : Word) : Word := if b.slt a then b else a

/-- The signed larger of two words. -/
def smaxW (a b : Word) : Word := if a.slt b then b else a

/-- The shift amount in bits 5:0. -/
def sh6 (b : Word) : Nat := b.toNat % 64

/-- SADD [13 R329]. -/
def execSadd (h : NodeHd) (imm : W32) (s : State) : Out := .next (s.scalarInt h imm (fun a b => a + b))
/-- SSUB [13 R329]. -/
def execSsub (h : NodeHd) (imm : W32) (s : State) : Out := .next (s.scalarInt h imm (fun a b => a - b))
/-- SMUL [13 R329]. -/
def execSmul (h : NodeHd) (imm : W32) (s : State) : Out := .next (s.scalarInt h imm (fun a b => a * b))
/-- SAND [13 R329]. -/
def execSand (h : NodeHd) (imm : W32) (s : State) : Out := .next (s.scalarInt h imm (fun a b => a &&& b))
/-- SOR [13 R329]. -/
def execSor (h : NodeHd) (imm : W32) (s : State) : Out := .next (s.scalarInt h imm (fun a b => a ||| b))
/-- SXOR [13 R329]. -/
def execSxor (h : NodeHd) (imm : W32) (s : State) : Out := .next (s.scalarInt h imm (fun a b => a ^^^ b))
/-- SSHL [13 R329]. -/
def execSshl (h : NodeHd) (imm : W32) (s : State) : Out := .next (s.scalarInt h imm (fun a b => a <<< sh6 b))
/-- SSHR [13 R329]. -/
def execSshr (h : NodeHd) (imm : W32) (s : State) : Out := .next (s.scalarInt h imm (fun a b => a >>> sh6 b))
/-- SSRA [13 R329]. -/
def execSsra (h : NodeHd) (imm : W32) (s : State) : Out := .next (s.scalarInt h imm (fun a b => a.sshiftRight (sh6 b)))
/-- SMIN [13 R329]. -/
def execSmin (h : NodeHd) (imm : W32) (s : State) : Out := .next (s.scalarInt h imm sminW)
/-- SMAX [13 R329]. -/
def execSmax (h : NodeHd) (imm : W32) (s : State) : Out := .next (s.scalarInt h imm smaxW)

/-- A condition code of SCMP: EQ NE LT GE LTU GEU [13 R330]. -/
def scmpHolds (sel : Nat) (a b : Word) : Bool :=
  match sel with
  | 0 => a == b
  | 1 => a != b
  | 2 => a.slt b
  | 3 => !a.slt b
  | 4 => a.ult b
  | _ => !a.ult b

/-- 1 or 0 as a word. -/
def boolW (b : Bool) : Word := if b then 1 else 0

/-- SCMP [13 R330]. -/
def execScmp (h : NodeHd) (sel : BitVec 4) (s : State) : Out :=
  .next (s.scalarInt h 0 (fun a b => boolW (scmpHolds sel.toNat a b)))

/-- SSEL [13 R330]. -/
def execSsel (h : NodeHd) (s : State) : Out :=
  .next (s.fire h (fun f =>
    if f.a.kind != .scalar || f.b.kind != .scalar || f.p.kind != .scalar then f.opfOpen s
    else (f.emitScalar (if f.p.value.getLsbD 0 then f.a.value else f.b.value)).finish s))

/-- SCONST [13 R330]. -/
def execSconst (h : NodeHd) (imm : W32) (s : State) : Out :=
  .next (s.fire h (fun f => (f.emitScalar (imm.signExtend 64)).finish s))

/-- SKRD [13 R330]: the constant register as it is when the firing starts [13 R318]. -/
def execSkrd (h : NodeHd) (sel : BitVec 4) (s : State) : Out :=
  .next (s.fire h (fun f => (f.emitScalar ((f.e.const sel.toNat).setWidth 64)).finish s))

/-- A 32-bit floating operation on the low words; a monadic form reads the literal as FP32 bits [13 R331]. -/
def fpScalar (op : W32 → W32 → W32 × W32) (a b : Word) : Word × W32 :=
  let (v, fl) := op (a.setWidth 32) (b.setWidth 32)
  (v.setWidth 64, fl)

/-- SFADD [13 R331]. -/
def execSfadd (h : NodeHd) (imm : W32) (s : State) : Out := .next (s.scalarOp h imm (fpScalar add32))

/-- SFMUL [13 R331]. -/
def execSfmul (h : NodeHd) (imm : W32) (s : State) : Out := .next (s.scalarOp h imm (fpScalar mul32))

/-- A stochastic draw taken from an element's generator when the mode is 4 [10 R235]. -/
def Elem.mode (e : Elem) (rnd : Nat) : Mode × Elem :=
  if rnd == 4 then (⟨4, srDraw e.gen⟩, { e with gen := srDraw e.gen }) else (⟨rnd, 0⟩, e)

/-- The codebook that a CB4 value uses: +0 entries in a class that has none [13 R331]. -/
def Elem.cb (e : Elem) (elem : Nat) : List (BitVec 16) :=
  if elemClass elem ≤ 1 then e.codebook else List.replicate 16 0#16

/-- SCVT [13 R331]. -/
def execScvt (h : NodeHd) (l : LitV) (s : State) : Out :=
  .next (s.fire h (fun f =>
    if f.a.kind != .scalar then f.opfOpen s
    else
      let cb := f.e.cb f.elem
      let (x, fl0) := if l.md.getLsbD 4 then (FVal.ofInt f.a.value.toInt, 0#32)
        else
          let c := bitsAt l.md.toNat 0 4
          decodeFmt cb c (f.a.value.toNat % 2 ^ fmtBits c)
      let draws := l.rnd == 4#3 && (l.md.getLsbD 5 || l.ofmt != 14#4)
      let (md, e1) := if draws then f.e.mode 4 else (⟨l.rnd.toNat, 0⟩, f.e)
      let (v, fl1) : Word × W32 :=
        if l.md.getLsbD 5 then
          let (i, fl) := convInt md (-(2 ^ 63)) (2 ^ 63 - 1) x
          (BitVec.ofInt 64 i, fl)
        else
          let (b, fl) := convFmt cb l.ofmt.toNat md x
          (BitVec.ofNat 64 b, fl)
      ((f.withE (e1.flag (fl0 ||| fl1))).emitScalar v).finish s))

end Sys2Proof.Machine
end

