-- ==== Sys2Proof/Machine/Vector.lean ====
section
/-! DEFINITION. Vector nodes [13 R332 to R341]. -/

namespace Sys2Proof.Machine

/-- Elements of `bits` bits packed into bytes [10 R224]. -/
def packElems (bits : Nat) : List Nat → List Byte
  | [] => []
  | [v] => leOf (if bits == 4 then 1 else bits / 8) v
  | v :: w :: r =>
    if bits == 4 then BitVec.ofNat 8 (v % 16 + 16 * (w % 16)) :: packElems bits r
    else leOf (bits / 8) v ++ packElems bits (w :: r)

/-- A list cut into rows. -/
def rowsOf (cols : Nat) : Nat → List α → List (List α)
  | 0, _ => []
  | n + 1, l => l.take cols :: rowsOf cols n (l.drop cols)

/-- A virtual zero as a tile of +0 with elements of `bits` bits [07 R180]. -/
def Elem.zeroTokBits (e : Elem) (bits : Nat) (t : Token) : Token :=
  if t.kind == .zero then { t with kind := .tile, pay := .bytes (List.replicate (bits * e.rows * e.cols / 8) 0#8) } else t

/-- A tile of the element's shape with one value in every lane. -/
def Elem.flat (e : Elem) (v : α) : List (List α) := List.replicate e.rows (List.replicate e.cols v)

/-- The active lanes of a VROW or TILE whose elements have `bits` bits, row by row; none when the kind or the payload
length is not accepted [13 R317, R332]. -/
def Elem.laneRows (e : Elem) (bits : Nat) (t : Token) : Option (List (List Nat)) :=
  match t.kind with
  | .vrow => some [unpackElems bits e.cols t.bytes]
  | .tile =>
    if t.bytes.length * 8 == bits * e.rows * e.cols then
      some (rowsOf e.cols e.rows (unpackElems bits (e.rows * e.cols) t.bytes))
    else none
  | _ => none

/-- The FP32 lanes of an operand. -/
def Elem.lanes32 (e : Elem) (t : Token) : Option (List (List W32)) :=
  (e.laneRows 32 (e.zeroTok t)).map (fun r => r.map (fun l => l.map (BitVec.ofNat 32)))

/-- A row of lanes converted to a format, in lane order: the codes, the flags and the generator [10 R235; 13 R332]. -/
def convLanes (cb : List (BitVec 16)) (ofmt rnd : Nat) (g : W32) : List (FVal × W32) → List Nat × W32 × W32
  | [] => ([], 0#32, g)
  | (x, fl) :: r =>
    let g1 := if rnd == 4 && ofmt != 14 then srDraw g else g
    let (c, fl1) := convFmt cb ofmt ⟨rnd, g1⟩ x
    let (cs, fl2, g2) := convLanes cb ofmt rnd g1 r
    (c :: cs, fl ||| fl1 ||| fl2, g2)

/-- Rows of lanes converted, in row order. -/
def convRows (cb : List (BitVec 16)) (ofmt rnd : Nat) (g : W32) : List (List (FVal × W32)) → List (List Nat) × W32 × W32
  | [] => ([], 0#32, g)
  | row :: r =>
    let (cs, fl1, g1) := convLanes cb ofmt rnd g row
    let (css, fl2, g2) := convRows cb ofmt rnd g1 r
    (cs :: css, fl1 ||| fl2, g2)

/-- A VROW or TILE of codes in the container of a format, and whether it is a zero tile [07 R179; 13 R332]. -/
def Fire.codesTok (f : Fire) (ofmt : Nat) (kind : TokKind) (aux : BitVec 8) (codes : List (List Nat)) : Token × Bool :=
  let bits := fmtBits ofmt
  let zero := kind == .tile && codes.all (fun r => r.all (fun c => (decodeFmt f.e.codebook ofmt c).1.isZero))
  let body := packElems bits codes.flatten
  let pay := if kind == .vrow then body ++ List.replicate (256 - body.length) 0#8 else body
  (f.tok kind aux (.bytes pay), zero)

/-- A zero firing: ZSKIP_INF for an infinity or NaN among the other operands, and a TILE of +0 in OFMT [07 R180, R181]. -/
def Fire.zeroFiring (f : Fire) (s : State) (ofmt : Nat) (ops : List (List W32)) : State :=
  let odd := ops.any (fun r => r.any (fun w => (f32 w).isNan || (f32 w).isInf))
  let f1 := if odd then f.withE (f.e.flag flZSKIP) else f
  let (t, _) := f1.codesTok ofmt .tile 0 (f.e.flat (convFmt f.e.codebook ofmt rne (.fin false 0)).1)
  (f1.emit t true).finish s

/-- The output of a vector firing: lanes converted by OFMT and RND, flags and generator kept. -/
def Fire.vconv (f : Fire) (l : LitV) (kind : TokKind) (aux : BitVec 8) (rows : List (List (FVal × W32))) :
    Fire × Token × Bool :=
  let (codes, fl, g) := convRows f.e.codebook l.ofmt.toNat l.rnd.toNat f.e.gen rows
  let f1 := f.withE ({ f.e with gen := g }.flag fl)
  (f1, f1.codesTok l.ofmt.toNat kind aux codes)

/-- A vector firing that sends its converted lanes to both destinations. -/
def Fire.vout (f : Fire) (s : State) (l : LitV) (kind : TokKind) (aux : BitVec 8) (rows : List (List (FVal × W32))) : State :=
  let (f1, t, z) := f.vconv l kind aux rows
  (f1.emit t z).finish s

/-- The kind of a vector firing's output: TILE for a virtual zero. -/
def vkind (t : Token) : TokKind := if t.kind == .vrow then .vrow else .tile

/-- AUX of the output: that of a VROW L operand, 0 of a TILE [13 R315]. -/
def vaux (t : Token) : BitVec 8 := if t.kind == .vrow then t.aux else 0#8

/-- Lane-wise application over one, two or three operands of one kind. -/
def lanes3 (fn : W32 → W32 → W32 → FVal × W32) (a b p : List (List W32)) : List (List (FVal × W32)) :=
  List.zipWith (fun x yz => List.zipWith (fun u vw => fn u vw.1 vw.2) x (List.zip yz.1 yz.2)) a (List.zip b p)

/-- A lane-wise node [13 R332, R333]; `absorb` says that it is zero-absorbing [07 R180, R181]. -/
def State.laneWise (s : State) (h : NodeHd) (l : LitV) (absorb : Bool)
    (fn : Elem → Mode → W32 → W32 → W32 → FVal × W32) : State :=
  s.fire h (fun f =>
    let b := if h.mm == 0#2 then f.a else f.b
    let p := if h.mm == 3#2 then f.p else f.a
    if vkind b != vkind f.a || vkind p != vkind f.a then f.opfOpen s
    else match f.e.lanes32 f.a, f.e.lanes32 b, f.e.lanes32 p with
      | some ra, some rb, some rp =>
        if absorb && f.vz then f.zeroFiring s l.ofmt.toNat (ra ++ rb)
        else f.vout s l (vkind f.a) (vaux f.a) (lanes3 (fn f.e ⟨l.rnd.toNat, 0⟩) ra rb rp)
      | _, _, _ => f.opfOpen s)

/-- A lane-wise function that yields an FP32 value and flags. -/
def viaF32 (r : W32 × W32) : FVal × W32 := (f32 r.1, r.2)

/-- An exact result with the NaN flag. -/
def withNan (r : FVal × Bool) : FVal × W32 := (r.1, nanFlag r.2)

/-- a × b + c, exact [13 R333]. -/
def fmaF (md : Mode) (a b c : FVal) : FVal × Bool :=
  if a.isNan || b.isNan || c.isNan then (.nan, false)
  else
    let (p, n1) := mulF a b
    if n1 then (.nan, true) else sumF md [p, c]

/-- VADD [13 R333]. -/
def execVadd (h : NodeHd) (l : LitV) (s : State) : Out :=
  .next (s.laneWise h l false (fun _ md a b _ => withNan (sumF md [f32 a, f32 b])))
/-- VSUB [13 R333]. -/
def execVsub (h : NodeHd) (l : LitV) (s : State) : Out :=
  .next (s.laneWise h l false (fun _ md a b _ => withNan (sumF md [f32 a, negF (f32 b)])))
/-- VMUL, zero-absorbing [13 R333]. -/
def execVmul (h : NodeHd) (l : LitV) (s : State) : Out :=
  .next (s.laneWise h l true (fun _ _ a b _ => withNan (mulF (f32 a) (f32 b))))
/-- VFMA [13 R333]. -/
def execVfma (h : NodeHd) (l : LitV) (s : State) : Out :=
  .next (s.laneWise h l false (fun _ md a b p => withNan (fmaF md (f32 a) (f32 b) (f32 p))))
/-- VMAX [13 R333]. -/
def execVmax (h : NodeHd) (l : LitV) (s : State) : Out :=
  .next (s.laneWise h l false (fun _ _ a b _ => (maxF (f32 a) (f32 b), 0#32)))
/-- VMIN [13 R333]. -/
def execVmin (h : NodeHd) (l : LitV) (s : State) : Out :=
  .next (s.laneWise h l false (fun _ _ a b _ => (minF (f32 a) (f32 b), 0#32)))
/-- VABS [13 R333]. -/
def execVabs (h : NodeHd) (l : LitV) (s : State) : Out :=
  .next (s.laneWise h l false (fun _ _ a _ _ => (f32 (a &&& 0x7FFFFFFF#32), 0#32)))
/-- VSCL [13 R333]. -/
def execVscl (h : NodeHd) (l : LitV) (s : State) : Out :=
  .next (s.laneWise h l false (fun e md a _ _ =>
    withNan (fmaF md (f32 a) (f32 (e.const l.kc.toNat)) (f32 (e.const l.kd.toNat)))))
/-- VMOV [13 R333]. -/
def execVmov (h : NodeHd) (l : LitV) (s : State) : Out := .next (s.laneWise h l false (fun _ _ a _ _ => (f32 a, 0#32)))
/-- VEXP2 [10 R246]. -/
def execVexp2 (h : NodeHd) (l : LitV) (s : State) : Out := .next (s.laneWise h l false (fun _ _ a _ _ => viaF32 (vexp2 a)))
/-- VLOG2 [13 R334]. -/
def execVlog2 (h : NodeHd) (l : LitV) (s : State) : Out := .next (s.laneWise h l false (fun _ _ a _ _ => viaF32 (vlog2 a)))
/-- VRCP [13 R334]. -/
def execVrcp (h : NodeHd) (l : LitV) (s : State) : Out := .next (s.laneWise h l false (fun _ _ a _ _ => viaF32 (vrcp a)))
/-- VRSQ [13 R334]. -/
def execVrsq (h : NodeHd) (l : LitV) (s : State) : Out := .next (s.laneWise h l false (fun _ _ a _ _ => viaF32 (vrsq a)))

/-- VSEL: a NaN p counts as not zero [13 R333]. -/
def execVsel (h : NodeHd) (l : LitV) (s : State) : Out :=
  .next (s.laneWise h l false (fun _ _ a b p => (if (f32 p).isZero then f32 b else f32 a, 0#32)))

/-- Numeric equality; -0 equals +0. -/
def eqNum (a b : FVal) : Bool :=
  match a, b with
  | .inf s, .inf t => s == t
  | .fin _ _, .fin _ _ => a.val == b.val
  | _, _ => false

/-- Numeric order; -0 is not below +0. -/
def ltNum (a b : FVal) : Bool := ltF a b && !eqNum a b

/-- A condition of VCMP: EQ NE LT LE GT GE; a NaN makes only NE hold [13 R333]. -/
def vcmpHolds (c : Nat) (a b : FVal) : Bool :=
  if a.isNan || b.isNan then c == 1
  else match c with
    | 0 => eqNum a b
    | 1 => !eqNum a b
    | 2 => ltNum a b
    | 3 => !ltNum b a
    | 4 => ltNum b a
    | _ => !ltNum a b

/-- 1.0 or +0. -/
def oneOrZero (b : Bool) : FVal := .fin false (if b then 1 else 0)

/-- VCMP [13 R333]. -/
def execVcmp (h : NodeHd) (l : LitV) (s : State) : Out :=
  .next (s.laneWise h l false (fun _ _ a b _ => (oneOrZero (vcmpHolds (bitsAt l.md.toNat 0 3) (f32 a) (f32 b)), 0#32)))

/-- VCLAMP [13 R333]. -/
def execVclamp (h : NodeHd) (l : LitV) (s : State) : Out :=
  .next (s.laneWise h l false (fun e _ a _ _ =>
    (minF (maxF (f32 a) (f32 (e.const l.kc.toNat))) (f32 (e.const l.kd.toNat)), 0#32)))

/-- VCVT: the operand in format IFMT, one rounding from its exact value [13 R335]. -/
def execVcvt (h : NodeHd) (l : LitV) (s : State) : Out :=
  .next (s.fire h (fun f =>
    let c := bitsAt l.md.toNat 0 4
    if f.a.kind == .zero then f.vout s l .tile 0 (f.e.flat (.fin false 0, 0#32))
    else match f.e.laneRows (fmtBits c) f.a with
      | none => f.opfOpen s
      | some rows => f.vout s l (vkind f.a) (vaux f.a) (rows.map (fun r => r.map (decodeFmt f.e.codebook c)))))

/-- The block of a lane for block size `b`: each lane of a row with the scale of its block. -/
def scaled (b : Nat) (row : List W32) (sc : Nat → FVal) (op : FVal → FVal → FVal × Bool) : List (FVal × W32) :=
  row.zipIdx.map (fun p => withNan (op (f32 p.1) (sc (p.2 / b))))

/-- VBSCALE, zero-absorbing [13 R336]. -/
def execVbscale (h : NodeHd) (l : LitV) (s : State) : Out :=
  .next (s.fire h (fun f =>
    let blk := if l.md.getLsbD 0 then 32 else 8
    if vkind f.b != vkind f.a then f.opfOpen s
    else match f.e.lanes32 f.a, f.e.lanes32 f.b with
      | some ra, some rb =>
        if f.vz then f.zeroFiring s l.ofmt.toNat (ra ++ rb)
        else f.vout s l (vkind f.a) (vaux f.a)
          (List.zipWith (fun ra rb => scaled blk ra (fun g => f32 (rb.getD g 0#32)) mulF) ra rb)
      | _, _ => f.opfOpen s))

/-- The exponent of the largest finite value of a format [13 R337]. -/
def emaxOf (ofmt : Nat) : Int :=
  match ofmt with
  | 4 => 8
  | 5 => 15
  | 6 => 4
  | _ => 2

/-- The scale code of a block in MM 0 [13 R337]: `ty` is STY. -/
def blockCode (ty : Bool) (ofmt : Nat) (blk : List W32) : Nat :=
  let vs := blk.map (fun w => f32 (w &&& 0x7FFFFFFF#32))
  let amax := vs.foldl maxF (.fin false 0)
  match amax with
  | .fin _ q =>
    let e : Int := if q = 0 then 0 else floorLog2 q - emaxOf ofmt
    if ty then
      let k : Int := if e < -16 then -16 else if 15 < e then 15 else e
      ((fltFmt 5).conv rne (.fin false (pow2 k))).1
    else
      let k : Int := if e < -127 then -127 else if 127 < e then 127 else e
      (k + 127).toNat
  | _ => if ty then 0x7E else 0xFF

/-- VQUANT [13 R337]. -/
def execVquant (h : NodeHd) (l : LitV) (s : State) : Out :=
  .next (s.fire h (fun f =>
    let blkq := bitsAt l.md.toNat 0 2
    let sty := l.md.getLsbD 2
    match f.e.lanes32 f.a with
    | none => f.opfOpen s
    | some ra =>
      if blkq == 0 then
        let (f1, t, z) := f.vconv l (vkind f.a) (vaux f.a) (ra.map (fun r => r.map (fun w => (f32 w, 0#32))))
        (f1.emitTo 0 t z).finish s
      else
        let b := if blkq == 1 then 8 else 32
        let codes? : Option (List (List Nat)) :=
          if h.mm == 0#2 then
            some (ra.map (fun r => (rowsOf b ((f.e.cols + b - 1) / b) r).map (blockCode sty l.ofmt.toNat)))
          else
            let rt := f.e.zeroTokBits 8 f.b
            if rt.kind == .tile then f.e.laneRows 8 rt else none
        match codes? with
        | none => f.opfOpen s
        | some codes =>
          let rows := List.zipWith (fun r cs => scaled b r (fun g => decodeScale sty (cs.getD g 0)) divF) ra codes
          let (f1, t, z) := f.vconv l (vkind f.a) (vaux f.a) rows
          let pad (r : List Nat) : List Nat := r ++ List.replicate (f.e.cols - r.length) 0
          let full := codes.map pad ++ List.replicate (f.e.rows - codes.length) (List.replicate f.e.cols 0)
          let u := f.tok .tile 0 (.bytes (packElems 8 full.flatten))
          let zu := sty && full.all (fun r => r.all (fun c => c % 128 == 0))
          ((f1.emitTo 0 t z).emitTo 1 u zu).finish s))

/-- One level of the row tree: a pair is summed, an absent input passes the other [13 R338]. -/
def treeLevel : List (Option W32) → List (Option W32) × W32
  | [] => ([], 0#32)
  | [x] => ([x], 0#32)
  | x :: y :: r =>
    let (rs, fl) := treeLevel r
    match x, y with
    | some a, some b => let (v, fl1) := add32 a b; (some v :: rs, fl ||| fl1)
    | some a, none => (some a :: rs, fl)
    | none, z => (z :: rs, fl)

/-- Levels of the row tree. -/
def treeLevels : Nat → List (Option W32) → List (Option W32) × W32
  | 0, l => (l, 0#32)
  | n + 1, l =>
    let (l1, fl1) := treeLevel l
    let (l2, fl2) := treeLevels n l1
    (l2, fl1 ||| fl2)

/-- The row tree sum over lane positions 0 to 63 [13 R338]. -/
def treeSum (l : List (Option W32)) : Option W32 × W32 :=
  let (r, fl) := treeLevels 6 (l ++ List.replicate (64 - l.length) none)
  (r.head?.join, fl)

/-- A node that writes one result per row to every active lane [13 R338]. -/
def State.rowWise (s : State) (h : NodeHd) (l : LitV) (fn : List W32 → FVal × W32) : State :=
  s.fire h (fun f =>
    match f.e.lanes32 f.a with
    | none => f.opfOpen s
    | some ra =>
      let rs := ra.map (fun r => let (x, fl) := fn r; (r.map (fun _ => (x, 0#32)), fl))
      let fl := rs.foldl (fun a r => a ||| r.2) 0#32
      (f.withE (f.e.flag fl)).vout s l (vkind f.a) (vaux f.a) (rs.map (fun r => r.1)))

/-- VROWMAX [13 R338]. -/
def execVrowmax (h : NodeHd) (l : LitV) (s : State) : Out :=
  .next (s.rowWise h l (fun r => ((r.map f32).foldl maxF (.inf true), 0#32)))

/-- VROWSUM [13 R338]. -/
def execVrowsum (h : NodeHd) (l : LitV) (s : State) : Out :=
  .next (s.rowWise h l (fun r => let (v, fl) := treeSum (r.map some); (f32 (v.getD 0#32), fl)))

/-- The empty softmax state [13 R339]. -/
def SmxRow.empty : SmxRow := ⟨0xFF800000#32, 0#32, 0#32, 0#32⟩

/-- 1.0 as FP32. -/
def one32 : W32 := 0x3F800000#32

/-- Whether FP32 bits are +inf. -/
def isPinf (w : W32) : Bool := f32 w == .inf false

/-- Whether FP32 bits are a NaN. -/
def isNan32 (w : W32) : Bool := (f32 w).isNan

/-- Whether FP32 bits are -inf. -/
def isMinf (w : W32) : Bool := f32 w == .inf true

/-- Scaling of a row by k[KC], rounded to FP32 [13 R339]. -/
def scaleRow (k : W32) (row : List W32) : List W32 × W32 :=
  let rs := row.map (fun a => mul32 a k)
  (rs.map (fun r => r.1), rs.foldl (fun a r => a ||| r.2) 0#32)

/-- VEXP2 of a rounded difference, with flags. -/
def expDiff (a b : W32) : W32 × W32 :=
  let (d, fl1) := sub32 a b
  let (e, fl2) := vexp2 d
  (e, fl1 ||| fl2)

/-- One row of VSMX [13 R339]. -/
def smxStep (st : SmxRow) (k : W32) (row : List W32) : SmxRow × W32 :=
  let (x, fl0) := scaleRow k row
  let q := if x.any isNan32 then one32 else st.q
  let (n, fl1) := add32 st.n (toF32 rne (.fin false ((x.countP isPinf : Nat) : Rat))).1
  let rest := x.filter (fun w => !isNan32 w && !isPinf w)
  let mp := (toF32 rne ((rest.map f32).foldl maxF (f32 st.m))).1
  if isMinf mp then (⟨mp, 0#32, n, q⟩, fl0 ||| fl1)
  else
    let (s1, fl2) : W32 × W32 :=
      if isMinf st.m then (0#32, 0#32)
      else
        let (e, fa) := expDiff st.m mp
        let (r, fb) := mul32 st.sg e
        (r, fa ||| fb)
    let es := x.map (fun w => if isNan32 w || isPinf w then (none, 0#32) else let (v, fl) := expDiff w mp; (some v, fl))
    let fl3 := es.foldl (fun a r => a ||| r.2) 0#32
    let (t, fl4) := treeSum (es.map (fun r => r.1))
    let (sg, fl5) : W32 × W32 := match t with
      | none => (s1, 0#32)
      | some v => add32 s1 v
    (⟨mp, sg, n, q⟩, fl0 ||| fl1 ||| fl2 ||| fl3 ||| fl4 ||| fl5)

/-- The softmax state in lanes 0 to 3 of a row. -/
def SmxRow.ofLanes (r : List W32) : SmxRow := ⟨r.getD 0 0#32, r.getD 1 0#32, r.getD 2 0#32, r.getD 3 0#32⟩

/-- The states that a VSMX or VSMXF reads: of a slot in MM 0, of a state token in MM 1 [13 R339, R340]. -/
def Fire.smxStates (f : Fire) (slot nr : Nat) (first : Bool) : Option (List SmxRow) :=
  if f.h.mm == 0#2 then
    some ((List.range nr).map (fun r => if first then SmxRow.empty else tget f.e.smx SmxRow.empty (slot * 32 + r)))
  else if vkind f.b != vkind f.a then none
  else (f.e.lanes32 f.b).map (fun rb => rb.map SmxRow.ofLanes)

/-- A slot's rows written; FIRST sets the whole slot to the empty state before [13 R339]. -/
def smxStore (t : Table SmxRow) (slot : Nat) (first : Bool) (rows : List SmxRow) : Table SmxRow :=
  let t1 := if first then t.filter (fun p => p.1 / 32 != slot) else t
  (rows.zipIdx).foldl (fun a p => tset a (slot * 32 + p.2) p.1) t1

/-- VSMX [13 R339]. -/
def execVsmx (h : NodeHd) (l : LitV) (s : State) : Out :=
  .next (s.fire h (fun f =>
    let slot := bitsAt l.md.toNat 0 4
    let first := h.mm == 0#2 && l.md.getLsbD 4
    let last := h.mm != 0#2 || l.md.getLsbD 5
    match f.e.lanes32 f.a with
    | none => f.opfOpen s
    | some ra =>
      match f.smxStates slot ra.length first with
      | none => f.opfOpen s
      | some sts =>
        let rs := List.zipWith (fun st row => smxStep st (f.e.const l.kc.toNat) row) sts ra
        let fl := rs.foldl (fun a r => a ||| r.2) 0#32
        let news := rs.map (fun r => r.1)
        let e1 := f.e.flag fl
        let e2 := if h.mm == 0#2 then { e1 with smx := smxStore e1.smx slot first news } else e1
        let f1 := f.withE e2
        if last then
          let codes := news.map (fun st =>
            [st.m.toNat, st.sg.toNat, st.n.toNat, st.q.toNat] ++ List.replicate (f.e.cols - 4) 0)
          let (t, z) := f1.codesTok 0 (vkind f.a) (vaux f.a) codes
          (f1.emit t z).finish s
        else f1.finish s))

/-- One row of VSMXF: FP32 lanes with flags, and whether the row is empty [13 R340]. -/
def smxfRow (st : SmxRow) (k : W32) (row : List W32) : List W32 × W32 × Bool :=
  let (x, fl0) := scaleRow k row
  if st.q == one32 then (x.map (fun _ => nan32), fl0, false)
  else if (f32 st.q).isZero && !(f32 st.n).isNan && !ltNum (f32 st.n) (.fin false 1) then
    let (v, fl1) := rnd32 rne (divF (.fin false 1) (f32 st.n))
    (x.map (fun w => if isPinf w then v else 0#32), fl0 ||| fl1, false)
  else if isMinf st.m && (f32 st.n).isZero && (f32 st.q).isZero then (x.map (fun _ => 0#32), fl0 ||| flEMPTY, true)
  else
    let rs := x.map (fun w =>
      if isMinf w then (0#32, 0#32)
      else
        let (e, fa) := expDiff w st.m
        let (v, fb) := rnd32 rne (divF (f32 e) (f32 st.sg))
        (v, fa ||| fb))
    (rs.map (fun r => r.1), rs.foldl (fun a r => a ||| r.2) fl0, false)

/-- VSMXF [13 R340]: the result to DST0, the empty indication to DST1. -/
def execVsmxf (h : NodeHd) (l : LitV) (s : State) : Out :=
  .next (s.fire h (fun f =>
    match f.e.lanes32 f.a with
    | none => f.opfOpen s
    | some ra =>
      match f.smxStates (bitsAt l.md.toNat 0 4) ra.length false with
      | none => f.opfOpen s
      | some sts =>
        let rs := List.zipWith (fun st row => smxfRow st (f.e.const l.kc.toNat) row) sts ra
        let fl := rs.foldl (fun a r => a ||| r.2.1) 0#32
        let cb := f.e.codebook
        let ind := rs.map (fun r =>
          (List.range f.e.cols).map (fun i => (convFmt cb l.ofmt.toNat rne (oneOrZero (r.2.2 && i == 0)))))
        let fli := ind.foldl (fun a r => r.foldl (fun b p => b ||| p.2) a) 0#32
        let (f1, t, z) := (f.withE (f.e.flag (fl ||| fli))).vconv l (vkind f.a) (vaux f.a)
          (rs.map (fun r => r.1.map (fun w => (f32 w, 0#32))))
        let (u, zu) := f1.codesTok l.ofmt.toNat (vkind f.a) (vaux f.a) (ind.map (fun r => r.map (fun p => p.1)))
        ((f1.emitTo 0 t z).emitTo 1 u zu).finish s))

/-- VTRANS [13 R341]. -/
def execVtrans (h : NodeHd) (l : LitV) (s : State) : Out :=
  .next (s.fire h (fun f =>
    match if f.a.kind == .vrow then none else f.e.lanes32 f.a with
    | none => f.opfOpen s
    | some ra =>
      let m := if f.e.rows ≤ f.e.cols then f.e.rows else f.e.cols
      f.vout s l .tile 0 ((List.range f.e.rows).map (fun r => (List.range f.e.cols).map (fun c =>
        (if r < m ∧ c < m then f32 ((ra.getD c []).getD r 0#32) else .fin false 0, 0#32))))))

/-- VBCAST [13 R341]. -/
def execVbcast (h : NodeHd) (l : LitV) (s : State) : Out :=
  .next (s.fire h (fun f =>
    let row : Option (List W32) :=
      if l.md.getLsbD 0 then (f.e.lanes32 f.a).map (fun r => r.headD [])
      else if f.a.kind == .scalar then some (List.replicate f.e.cols (f.a.value.setWidth 32)) else none
    match row with
    | none => f.opfOpen s
    | some r => f.vout s l .tile 0 (List.replicate f.e.rows (r.map (fun w => (f32 w, 0#32))))))

/-- VZERO [13 R341]. -/
def execVzero (h : NodeHd) (l : LitV) (s : State) : Out :=
  .next (s.fire h (fun f =>
    f.vout s l .tile 0 (List.replicate f.e.rows (List.replicate f.e.cols (.fin false 0, 0#32)))))

end Sys2Proof.Machine
end

