-- ==== Sys2Proof/Machine/Matrix.lean ====
section
/-! DEFINITION. Matrix nodes [14 R343 to R355; 10 R236 to R241] and the B broadcast [06 R148]. -/

namespace Sys2Proof.Machine

/-- An operand slot that nothing has claimed [14 R345]. -/
def OpSlot.empty : OpSlot := ⟨[], false, false⟩

/-- An accumulator row that is free [14 R351]. -/
def AccRow.free : AccRow := ⟨[], none, 0⟩

/-- A slot of an ME. -/
def MeSt.slot (m : MeSt) (i : Nat) : OpSlot := tget m.slots OpSlot.empty i

/-- An ME with a slot written. -/
def MeSt.putSlot (m : MeSt) (i : Nat) (x : OpSlot) : MeSt := { m with slots := tset m.slots i x }

/-- An accumulator row of an ME. -/
def MeSt.row (m : MeSt) (r : Nat) : AccRow := tget m.acc AccRow.free r

/-- An ME with an accumulator row written. -/
def MeSt.putRow (m : MeSt) (r : Nat) (x : AccRow) : MeSt := { m with acc := tset m.acc r x }

/-- INFO1 codes of [14 R345]. -/
def iUNCLAIMED : Nat := 0x20
/-- CLAIMED. -/
def iCLAIMED : Nat := 0x21
/-- BRXCLAIM. -/
def iBRXCLAIM : Nat := 0x22
/-- BADROW. -/
def iBADROW : Nat := 0x23
/-- SEREG. -/
def iSEREG : Nat := 0x25

/-- The firing with its ME state changed. -/
def Fire.withMe (f : Fire) (m : MeSt) : Fire := f.withE { f.e with me := m }

/-- The slots that a claim or a release names [14 R346, R347]. -/
def claimRange (l : LitM) : List Nat := (List.range (bitsAt l.md.toNat 0 7 + 1)).map (fun i => l.slot.toNat + i)

/-- MCLAIM [14 R347]. -/
def execMclaim (h : NodeHd) (l : LitM) (s : State) : Out :=
  .next (s.fire h (fun f =>
    if (claimRange l).any (fun i => (f.e.me.slot i).claim) then f.opf s iCLAIMED
    else
      let m := (claimRange l).foldl (fun m i => m.putSlot i { m.slot i with claim := true }) f.e.me
      ((f.withMe m).emitScalar (l.slot.setWidth 64)).finish s))

/-- MREL [14 R347]. -/
def execMrel (h : NodeHd) (l : LitM) (s : State) : Out :=
  .next (s.fire h (fun f =>
    if (claimRange l).any (fun i => !(f.e.me.slot i).claim) then f.opf s iUNCLAIMED
    else
      let m := (claimRange l).foldl (fun m i => m.putSlot i { m.slot i with claim := false, zero := false }) f.e.me
      ((f.withMe m).emitScalar (l.slot.setWidth 64)).finish s))

/-- MSEL [14 R347]. -/
def execMsel (h : NodeHd) (l : LitM) (s : State) : Out :=
  .next (s.fire h (fun f =>
    if h.mm == 1#2 && f.b.kind != .scalar then f.opf s iPAYLOAD
    else
      let (b, t) : BitVec 7 × BitVec 7 :=
        if h.mm == 0#2 then (l.slot, l.md.setWidth 7) else (f.b.value.setWidth 7, (f.b.value >>> 8).setWidth 7)
      ((f.withMe { f.e.me with selB := b, selT := t }).passOn f.a).finish s))

/-- Whether an ME receives the broadcasts of an issuing ME [06 R148]. -/
def Core.receives (c : Core) (issuer i : Nat) : Bool :=
  i == issuer || (i < 16 && (c.elem i).used && bitsAt ((c.elem i).w 6) 0 1 == 1)

/-- Whether an MBCB that an ME receives is pending [06 R148; 14 R349]; `slot` narrows it to one slot. -/
def Core.mbcbPending (c : Core) (i : Nat) (slot : Option (BitVec 7)) : Bool :=
  c.mbcb.any (fun b => c.receives b.elem i && (slot == none || slot == some b.slot))

/-- The bytes of a slot after a tile is written: the payload, then zeros [14 R343, R348]. -/
def slotBytes (b : List Byte) : Memory := mwrite [] 0 (b.take 2048)

/-- MLDB, zero-absorbing [14 R348]: no new local write while a broadcast is pending [06 R148]. -/
def execMldb (h : NodeHd) (l : LitM) (s : State) : Out :=
  .next (s.fire h (fun f =>
    let i := l.slot.toNat
    if f.a.kind != .tile && f.a.kind != .zero then f.opf s iPAYLOAD
    else if !(f.e.me.slot i).claim then f.opf s iUNCLAIMED
    else if f.a.kind == .zero then
      ((f.withMe (f.e.me.putSlot i { f.e.me.slot i with zero := true })).emitScalar (l.slot.setWidth 64)).finish s
    else if (f.r.core f.core).mbcbPending f.elem none then s
    else
      let m := f.e.me.putSlot i { f.e.me.slot i with bytes := slotBytes f.a.bytes, zero := false }
      ((f.withMe m).emitScalar (l.slot.setWidth 64)).finish s))

/-- MBCB: the tile waits for the bus, an outstanding operation of its colour [14 R349; 06 R148]. -/
def execMbcb (h : NodeHd) (l : LitM) (s : State) : Out :=
  .next (s.fire h (fun f =>
    if f.a.kind != .tile && f.a.kind != .zero then f.opf s iPAYLOAD
    else
      let b : Mbcb := { elem := f.elem, slot := l.slot, pay := if f.a.kind == .zero then none else some f.a.bytes,
                        node := f.node, ctx := f.ctx, colour := f.colour, orphan := false }
      let c := f.r.core f.core
      ((f.withR ((f.r.putCore f.core { c with mbcb := c.mbcb ++ [b] }).count f.core f.colour 1)).finish s)))

/-- The pending MBCB of the lowest element [06 R148]. -/
def lowestMbcb : List Mbcb → Option Mbcb
  | [] => none
  | b :: r =>
    match lowestMbcb r with
    | none => some b
    | some c => if c.elem < b.elem then some c else some b

/-- B_BROADCAST [06 R148; 14 R349, R357]: the claim bits of every receiver decide in the broadcast clk; one whose colour has been purged emits
nothing, and an unclaimed receiver faults it all the same. -/
def execBBroadcast (slot core : Nat) (s : State) : Out :=
  .next (match s.region slot with
    | none => s
    | some r =>
      let c := r.core core
      match lowestMbcb c.mbcb with
      | none => s
      | some b =>
        let recv := (List.range 16).filter (fun i => c.receives b.elem i)
        let ok := recv.all (fun i => ((c.elem i).me.slot b.slot.toNat).claim)
        let c0 := { c with mbcb := dropFirst (· == b) c.mbcb }
        let c1 := if !ok then c0 else recv.foldl (fun c i =>
          let e := c.elem i
          let o := e.me.slot b.slot.toNat
          let o1 := match b.pay with
            | none => { o with zero := true }
            | some p => { o with bytes := slotBytes p, zero := false }
          c.putElem i { e with me := e.me.putSlot b.slot.toNat o1 }) c0
        let r1 := r.putCore core c1
        let hd := recHd ((r1.elem core b.elem).rec_ b.node)
        let excess (s : State) : State := s.opFault slot core b.elem b.ctx b.colour (FaultInfo.of 9 iBRXCLAIM)
        if b.orphan then (let s1 := s.putRegion slot r1; if ok then s1 else excess s1)
        else if ok then
          s.putRegion slot ((r1.send2 core b.elem b.node hd (Token.scalarOf b.ctx b.colour (b.slot.setWidth 64)) false).count
            core b.colour (-1))
        else
          let r2 := (r1.send2 core b.elem b.node hd (Token.mk0 .fault b.ctx b.colour 9 .none) false).count core b.colour (-1)
          excess (s.putRegion slot r2))

/-- Elements per row firing by format [06 R136]. -/
def depthOf (fmt : Nat) : Nat := 256 / fmtBits fmt

/-- The values of packed elements with their flags [10 R224 to R229]. -/
def decodeRow (cb : List (BitVec 16)) (fmt : Nat) (b : List Byte) : List FVal × W32 :=
  let vs := (unpackElems (fmtBits fmt) (depthOf fmt) b).map (decodeFmt cb fmt)
  (vs.map (fun p => p.1), vs.foldl (fun a p => a ||| p.2) 0#32)

/-- The exact sum of products of R236; the Bool says that a NaN arose. -/
def dotF (a b : List FVal) : FVal × Bool :=
  if a.any FVal.isNan || b.any FVal.isNan then (.nan, false)
  else
    let ps := List.zipWith mulF a b
    if ps.any (fun p => p.2) then (.nan, true) else sumF rne (ps.map (fun p => p.1))

/-- The exact block-scaled sum [10 R238]: one partial per block, scaled by its A and B scales, then summed. -/
def blockDot (bs : Nat) (a b sa sb : List FVal) : FVal × Bool :=
  if a.any FVal.isNan || b.any FVal.isNan then (.nan, false)
  else
    let qs := (List.range (a.length / bs)).map (fun g =>
      let (p, n1) := dotF ((a.drop (g * bs)).take bs) ((b.drop (g * bs)).take bs)
      let (q, n2) := mulF p (sa.getD g .nan)
      let (z, n3) := mulF q (sb.getD g .nan)
      (z, n1 || n2 || n3))
    if qs.any (fun q => q.2) then (.nan, true) else sumF rne (qs.map (fun q => q.1))

/-- One output of a float row firing [10 R236, R238, R239, R241]: y after the tensor scale, with flags. -/
def rowOut (dot : FVal × Bool) (anyNan : Bool) (t : Option FVal) : W32 × W32 :=
  let (y, fl) := rnd32 rne dot
  match t with
  | none => (y, fl)
  | some tv =>
    let (z, fl2) := rnd32 rne (mulF (f32 y) tv)
    (z, fl ||| fl2 ||| (if tv.isNan && !anyNan then flFNAN else 0#32))

/-- The formats and scales of an ME [06 R136]. -/
structure MeCfg where
  fmtA : Nat
  fmtB : Nat
  blk  : Nat
  bst  : Bool
  t    : Option FVal
  cb   : List (BitVec 16)

/-- The configuration that ECW1 and the tensor scale register give [06 R136; 10 R241]. -/
def Elem.meCfg (e : Elem) : MeCfg :=
  let w := e.w 1
  let k := (e.const (bitsAt w 15 4)).toNat
  { fmtA := bitsAt w 28 4, fmtB := bitsAt w 24 4, blk := bitsAt w 22 2, bst := bitsAt w 21 1 == 1,
    t := if bitsAt w 20 1 == 0 then none
         else some (if bitsAt w 19 1 == 1 then f32 (BitVec.ofNat 32 k) else bf16 (k % 2 ^ 16)),
    cb := e.codebook }

/-- One column of a float row firing: the new accumulator word and its flags. -/
def floatCol (c : MeCfg) (a : List FVal) (sa : List FVal) (col : List FVal) (sb : List FVal) (acc : W32) : W32 × W32 :=
  let bs := if c.blk == 1 then 8 else 32
  let (y, fl) : W32 × W32 :=
    if c.blk != 0 && (sa.any FVal.isNan || sb.any FVal.isNan) then
      ((rowOut (.nan, false) true c.t).1, flBSNAN)
    else
      let d := if c.blk == 0 then dotF a col else blockDot bs a col sa sb
      rowOut d (a.any FVal.isNan || col.any FVal.isNan) c.t
  let (z, fl2) := rnd32 rne (sumF rne [f32 acc, f32 y])
  (z, fl ||| fl2)

/-- One column of an integer row firing [10 R237]. -/
def intCol (a col : List FVal) (acc : W32) : W32 × W32 :=
  let y := (List.zipWith (fun x z => x.val.floor * z.val.floor) a col).foldl (· + ·) 0
  let v := acc.toInt + y
  (BitVec.ofInt 32 v, if v < -(2 ^ 31) || 2 ^ 31 ≤ v then flIOVF else 0#32)

/-- The row flags FOVF FNAN BSNAN IOVF of flag bits [14 R351]. -/
def rowFlags (fl : W32) : BitVec 4 :=
  BitVec.ofBool (fl.getLsbD 5) ++ BitVec.ofBool (fl.getLsbD 12) ++ BitVec.ofBool (fl.getLsbD 1) ++ BitVec.ofBool (fl.getLsbD 0)

/-- The scales of a block-scale column, or of an A scale beat. -/
def scalesOf (bst : Bool) (n : Nat) (b : List Byte) : List FVal := (b.take n).map (fun x => decodeScale bst x.toNat)

/-- All 64 columns of a row firing [14 R352]: the new words of the row and the flags. -/
def rowFiring (c : MeCfg) (a : List FVal) (sa : List FVal) (sl bsl : Memory) (acc : Table W32) : Table W32 × W32 :=
  let g := if c.blk == 0 then 0 else depthOf c.fmtA / (if c.blk == 1 then 8 else 32)
  let outs := (List.range 64).map (fun n =>
    let (col, fl0) := decodeRow c.cb c.fmtB (mread sl (32 * n) 32)
    let old := tget acc 0#32 n
    let (v, fl) := if fmtFloat c.fmtA then
        floatCol c a sa col (scalesOf c.bst g (mread bsl (8 * n) 8)) old
      else intCol a col old
    ((n, v), fl0 ||| fl))
  (outs.map (fun p => p.1), outs.foldl (fun x p => x ||| p.2) 0#32)

/-- Whether a node holds a beat of a tag with a lower row index, at L or at R [14 R352]. -/
def Elem.lowerBeat (e : Elem) (node : Nat) (x : BitVec 12) (c : BitVec 8) (r : BitVec 5) : Bool :=
  e.pool.any (fun y => (y.at_ node 0 || y.at_ node 1) && y.tok.kind == .arow && y.tok.act != 1#2 && y.tok.ctx == x && y.tok.colour == c && y.tok.row.toNat < r.toNat)

/-- MMA and MMAS [14 R350 to R352]. -/
def State.rowFire (s : State) (h : NodeHd) (l : LitM) (scaledA : Bool) : State :=
  s.fire h (fun f =>
    let c := f.e.meCfg
    let (sB, sT) : BitVec 7 × BitVec 7 :=
      if l.md.getLsbD 7 then (f.e.me.selB, f.e.me.selT) else (l.slot, l.md.setWidth 7)
    let useB := scaledA && c.blk != 0
    let r := f.a.row.toNat
    let core := f.r.core f.core
    let sl := f.e.me.slot sB.toNat
    let row := f.e.me.row r
    if f.a.kind != .arow || (useB && f.b.kind != .arow) then f.opf s iPAYLOAD
    else if f.e.rows ≤ r then f.opf s iBADROW
    else if !sl.claim || (c.blk != 0 && !(f.e.me.slot sT.toNat).claim) then f.opf s iUNCLAIMED
    else if core.mbcbPending f.elem (some sB) || (c.blk != 0 && core.mbcbPending f.elem (some sT)) then s
    else if row.owner != none && row.owner != some f.ctx then s
    else if f.a.aux.getLsbD 7 && f.e.lowerBeat f.node f.ctx f.colour f.a.row then s
    else
      let (a, fl0) := decodeRow c.cb c.fmtA f.a.bytes
      let f1 :=
        if sl.zero then
          f.withE (f.e.flag (fl0 ||| (if a.any (fun v => v.isNan || v.isInf) then flZSKIP else 0#32)))
        else
          let g := depthOf c.fmtA / (if c.blk == 1 then 8 else 32)
          let sa := if useB then scalesOf c.bst g f.b.bytes else List.replicate g (.fin false 1)
          let (w, fl) := rowFiring c a sa sl.bytes (f.e.me.slot sT.toNat).bytes row.w
          let e1 := f.e.flag (fl0 ||| fl)
          f.withE { e1 with me := e1.me.putRow r { w := w, owner := some f.ctx, flags := row.flags ||| rowFlags fl } }
      (if f.a.aux.getLsbD 7 then f1.emitScalar (BitVec.ofNat 64 (r + 1)) else f1).finish s)

/-- MMA [14 R352]. -/
def execMma (h : NodeHd) (l : LitM) (s : State) : Out := .next (s.rowFire h l false)

/-- MMAS [14 R352]. -/
def execMmas (h : NodeHd) (l : LitM) (s : State) : Out := .next (s.rowFire h l true)

/-- The accumulator rows of a context zeroed and freed [14 R354, R355]. -/
def MeSt.freeRows (m : MeSt) (x : BitVec 12) : MeSt := { m with acc := m.acc.filter (fun p => p.2.owner != some x) }

/-- MZERO [14 R354]. -/
def execMzero (h : NodeHd) (_l : LitM) (s : State) : Out :=
  .next (s.fire h (fun f => ((f.withMe (f.e.me.freeRows f.ctx)).passOn f.a).finish s))

/-- MDRN [14 R355]. -/
def execMdrn (h : NodeHd) (l : LitM) (s : State) : Out :=
  .next (s.fire h (fun f =>
    let raw := l.md.getLsbD 0
    let float := fmtFloat (bitsAt (f.e.w 1) 28 4)
    if raw && float then f.opf s iPAYLOAD
    else
      let mine (r : Nat) : AccRow := if (f.e.me.row r).owner == some f.ctx then f.e.me.row r else AccRow.free
      let rs := (List.range f.e.rows).map mine
      let word (a : AccRow) (n : Nat) : W32 := tget a.w 0#32 n
      let cell (a : AccRow) (n : Nat) : Nat × W32 :=
        if raw then ((word a n).toNat, 0#32)
        else
          let v := if float then f32 (word a n) else FVal.ofInt (word a n).toInt
          convFmt f.e.codebook l.ofmt.toNat ⟨l.rnd.toNat, 0⟩ v
      let cells := rs.map (fun a => (List.range f.e.cols).map (cell a))
      let fl := cells.foldl (fun x r => r.foldl (fun y p => y ||| p.2) x) 0#32
      let codes := cells.map (fun r => r.map (fun p => p.1))
      let rf := rs.foldl (fun x a => x ||| a.flags) 0#4
      let e1 := f.e.flag fl
      let e2 := if l.md.getLsbD 1 then e1 else { e1 with me := e1.me.freeRows f.ctx }
      let f1 := f.withE e2
      let (t, z) := f1.codesTok l.ofmt.toNat .tile 0 codes
      let z1 := if raw then codes.all (fun r => r.all (· == 0)) else z
      let f2 := f1.emitTo 0 t z1
      (if l.md.getLsbD 2 then f2.emitTo 1 (f.tok .scalar 0 (.word (rf.setWidth 64))) false else f2.emitTo 1 t z1).finish s))

end Sys2Proof.Machine
end

