-- ==== Sys2Proof/Machine/AeXe.lean ====
section
/-! DEFINITION. Accesses of address generators and exchange elements: their tokens, wave ordering, pieces, the range
scoreboard, issue, exchange operations that wait [08 R185 to R191, R204; 15 R369 to R384]. -/

namespace Sys2Proof.Machine

/-- Tokens sent to destinations of a node: 0 or 1, or both for 2. -/
def Region.sendAll (r : Region) (core elem node : Nat) (h : NodeHd) : List (Nat × Token) → Region
  | [] => r
  | (w, t) :: rest =>
    let r1 := match w with
      | 0 => r.send core elem node 0 h.d0 t false
      | 1 => r.send core elem node 1 h.d1 t false
      | _ => r.send2 core elem node h t false
    r1.sendAll core elem node h rest

/-- An outstanding operation of a node emits its tokens and stops counting [07 R164]. -/
def State.endAccess (s : State) (slot core elem node : Nat) (c : BitVec 8) (toks : List (Nat × Token)) : State :=
  s.onRegion slot (fun r =>
    ((r.sendAll core elem node (recHd ((r.elem core elem).rec_ node)) toks).count core c (-1)).alive)

/-- An outstanding operation of a node ends as an operator fault [07 R161; 15 R369]. -/
def State.failAccess (s : State) (slot core elem node : Nat) (x : BitVec 12) (c : BitVec 8) (before : List (Nat × Token)) (f : FaultInfo) :
    State :=
  (s.endAccess slot core elem node c (before ++ [(2, Token.mk0 .fault x c (BitVec.ofNat 8 f.cls) .none)])).opFault slot core elem x c f

/-- A completion token: the count above LATE [15 R369]. -/
def completion (x : BitVec 12) (c : BitVec 8) (n : Nat) (late : Bool) : Token :=
  Token.scalarOf x c (BitVec.ofNat 64 (2 * n + (if late then 1 else 0)))

/-- Row beats from bytes: `w` bytes each, row indices rising, LAST on the last [15 R373]. -/
def rowToks (x : BitVec 12) (c : BitVec 8) (vrow : Bool) (rows : Nat) (b : List Byte) : List Token :=
  mapIdxFrom (fun i d => Token.mk0 (if vrow then .vrow else .arow) x c
    (BitVec.ofNat 8 (i % 32 + (if i + 1 == rows then 128 else 0))) (.bytes d)) 0 (chunks (if vrow then 256 else 32) rows b)

/-- The bytes that one token of a reply holds, for the replies that emit several or one [15 R373]. -/
def ReplyKind.beat (k : ReplyKind) (n : Nat) : Nat :=
  match k with
  | .rows true => 256
  | .rows false => 32
  | _ => n

/-- The data tokens of a reply from the bytes read [15 R373 to R375, R378, R380]. -/
def ReplyKind.tokens (k : ReplyKind) (x : BitVec 12) (c : BitVec 8) (va : Word) (b : List Byte) (late : Bool) : List (Nat × Token) :=
  let scal := Token.scalarOf x c (BitVec.ofNat 64 (leNum b))
  match k with
  | .tile => [(2, Token.mk0 .tile x c 0 (.bytes b))]
  | .rows v => (rowToks x c v (b.length / (if v then 256 else 32)) b).map (fun t => (2, t))
  | .scalar => [(2, scal)]
  | .oneRow v aux => [(2, Token.mk0 (if v then .vrow else .arow) x c aux (.bytes b))]
  | .complete n => [(2, completion x c n late)]
  | .rld xop =>
    let d := match xop.toNat with
      | 4 => Token.mk0 .arow x c 0x80 (.bytes b)
      | 5 => Token.mk0 .vrow x c 0x80 (.bytes b)
      | 6 => Token.mk0 .tile x c 0 (.bytes b)
      | _ => scal
    [(0, d), (1, completion x c 0 late)]
  | .ratom _ => [(0, scal), (1, completion x c 0 late)]
  | .msave | .mrest _ => [(2, Token.scalarOf x c va)]

/-- The tokens of a multi-token reply that are built wholly from pieces before a failing one [15 R373]. -/
def ReplyKind.before (k : ReplyKind) (x : BitVec 12) (c : BitVec 8) (b : List Byte) (total off psz : Nat) : List (Nat × Token) :=
  match k with
  | .rows v =>
    let w := if v then 256 else 32
    let good := off / psz * psz
    ((rowToks x c v (total / w) b).take (good / w)).map (fun t => (2, t))
  | _ => []

/-- The layout port of an AE [06 R138]. -/
def Elem.portNo (e : Elem) : Nat := bitsAt (e.w 6) 0 3

/-- Whether an AE orders its accesses by waves [06 R138]. -/
def Elem.waveOn (e : Elem) : Bool := bitsAt (e.w 6) 8 1 == 1

/-- RTMO of an AE or XE in ns [06 R138; 08 R192]. -/
def Elem.rtmo (e : Elem) : Nat := if bitsAt (e.w 7) 0 16 == 0 then 1000000 else bitsAt (e.w 7) 0 16 * 1000

/-- An outstanding operation begun at an element [07 R164; 15 R371]. -/
def Fire.open (f : Fire) : Fire := f.withR (f.r.count f.core f.colour 1)

/-- Whether an access stores. -/
def AccKind.stores : AccKind → Bool
  | .astore | .ascat | .wst _ => true
  | _ => false

/-- Whether an access goes through the gather unit. -/
def AccKind.gathers : AccKind → Bool
  | .agath _ | .ascat => true
  | _ => false

/-- The reply of an access and the bytes it moves [15 R373 to R375]. -/
def Access.reply (a : Access) (e : Elem) : ReplyKind × Nat :=
  let tile := 4 * e.rows * e.cols
  let row : BitVec 8 := BitVec.ofNat 8 (bitsAt a.a.toNat 32 5 + 128 * bitsAt a.a.toNat 37 1)
  match a.kind with
  | .aload o =>
    (match o.toNat with
      | 0 => (.tile, tile)
      | 1 => (.rows false, 32 * e.rows)
      | 2 => (.rows true, 256 * e.rows)
      | _ => (.scalar, 8))
  | .astore | .ascat => (.complete a.data.length, a.data.length)
  | .agath o =>
    (match o.toNat with
      | 0 => (.scalar, e.ae.lay.piece)
      | 1 => (.oneRow false row, 32)
      | 2 => (.oneRow true row, 256)
      | _ => (.tile, tile))
  | .wld o => (.scalar, 2 ^ o.toNat)
  | .wst o => (.complete (2 ^ o.toNat), 2 ^ o.toNat)
  | .noop | .boundary _ => (.complete 0, 0)

/-- INFO1 PIECE. -/
def iPIECE : Nat := 0x40
/-- INFO1 ALIGN. -/
def iALIGN : Nat := 0x41

/-- The pieces of an access taken from the stream: offset, address, length; or the INFO1 of its fault
[08 R185; 15 R373 to R375]. -/
def Access.take (a : Access) (e : Elem) : Except Nat (List (Nat × Word × Nat) × Nat) :=
  let l := e.ae.lay
  let n := (a.reply e).2
  match a.kind with
  | .aload _ | .astore =>
    if n % l.piece != 0 then .error iPIECE
    else
      let k := n / l.piece
      .ok ((List.range k).map (fun i => (i * l.piece, l.addr (e.ae.pos + i), l.piece)), (e.ae.pos + k) % l.count)
  | .wld o | .wst o =>
    let va := l.lw0 + a.a
    if va.toNat % 2 ^ o.toNat != 0 then .error iALIGN else .ok ([(0, va, n)], e.ae.pos)
  | .agath o =>
    if (if o == 0#2 then 8 < l.piece else n != l.piece) || 2048 < n then .error iPIECE
    else .ok ([(0, l.lw0 + ((a.a.setWidth 32).setWidth 64) * l.stride 0, n)], e.ae.pos)
  | .ascat =>
    if n != l.piece then .error iPIECE
    else .ok ([(0, l.lw0 + ((a.a.setWidth 32).setWidth 64) * l.stride 0, n)], e.ae.pos)
  | .noop | .boundary _ => .ok ([], e.ae.pos)

/-- The range of a copy's runs from a base with two strides: the lowest and one past the highest byte [08 R196, R204]. -/
def runRange (base : Word) (e1 e2 : Nat) (s1 s2 : W32) (len : Nat) : Int × Int :=
  let ext (n : Nat) (s : W32) : Int × Int := let m := (n : Int) * s.toInt; if m < 0 then (m, 0) else (0, m)
  let (a, b) := ext e1 s1
  let (c, d) := ext e2 s2
  ((base.toNat : Int) + a + c, (base.toNat : Int) + b + d + len)

/-- Whether `n` bytes at an address meet a range, addresses taken modulo 2^64. -/
def meets (rg : Int × Int) (va : Word) (n : Nat) : Bool :=
  [(-(2 ^ 64) : Int), 0, 2 ^ 64].any (fun k => (va.toNat : Int) + k < rg.2 && rg.1 < (va.toNat : Int) + k + n)

/-- The scoreboard space of an AE port: 0 W, 1 A, 2 C, 3 tenant memory [08 R204]. -/
def portSpace (p : Nat) : Nat := if p < 3 then p else 3

/-- Whether an owned record makes an access wait [08 R204]. -/
def OwnedRec.blocks (o : OwnedRec) (space : Nat) (store : Bool) (va : Word) (n : Nat) : Bool :=
  (o.xr.dsp.toNat == space && meets (runRange o.xr.dst o.xr.e1 o.xr.e2 o.xr.ds1 o.xr.ds2 o.xr.len) va n) ||
    (store && o.xr.ssp.toNat == space && meets (runRange o.xr.src o.xr.e1 o.xr.e2 o.xr.ss1 o.xr.ss2 o.xr.len) va n)

/-- Whether the core's range scoreboard makes an access wait [08 R204]. -/
def Core.scoreboard (c : Core) (space : Nat) (store : Bool) (parts : List (Nat × Word × Nat)) : Bool :=
  c.chans.any (fun p => p.2.recs.any (fun o => parts.any (fun q => o.blocks space store q.2.1 q.2.2)))

/-- The released state of a wave at an AE. -/
def AeSt.wave (a : AeSt) (x : BitVec 12) (c : BitVec 8) : Option Wave := a.waves.find? (fun w => w.ctx == x && w.colour == c)

/-- The ordering unit after the release of a firing [08 R188]. -/
def AeSt.released (a : AeSt) (x : BitVec 12) (c : BitVec 8) (own succ : BitVec 10) : AeSt :=
  let ended := succ == 1022#10 || (a.wave x c).any (fun w => w.ended)
  { a with waves := a.waves.filter (fun w => !(w.ctx == x && w.colour == c)) ++ [⟨x, c, own, succ, ended⟩] }

/-- Whether the ordering unit may release a firing [08 R188]. -/
def Region.mayRelease (r : Region) (e : Elem) (a : Access) : Bool :=
  match e.ae.wave a.ctx a.colour with
  | none =>
    a.own == 0#10 &&
      (((r.coloursOf a.ctx).takeWhile (fun c => c != a.colour)).all (fun c => (e.ae.wave a.ctx c).any (fun w => w.ended) || r.purged.contains c))
  | some w => (a.pred == w.own && a.pred != 1023#10) || (w.succ == a.own && w.succ != 1023#10)

/-- The state with the AE state of an element changed. -/
def State.onAe (s : State) (slot core elem : Nat) (f : AeSt → AeSt) : State :=
  s.onRegion slot (fun r => let e := r.elem core elem; r.putElem core elem { e with ae := f e.ae })

/-- A RANGE fault of a buffer access; the spec states no INFO1 for it (log 17). -/
def State.bufRange (s : State) (acc : Nat) : State × FaultInfo :=
  let (v, s1) := s.draw
  (s1, { cls := fcRANGE, va := 0, acc := acc, info1 := v, info2 := 0 })

/-- A buffer read of an access, piece by piece, up to a piece beyond the buffer: the bytes and that piece's offset. -/
def State.bufPieces (s : State) (slot core elem i lim : Nat) : List (Nat × Word × Nat) → State × List Byte × Option Nat
  | [] => (s, [], none)
  | (off, va, n) :: r =>
    if lim < va.toNat + n then (s, [], some off)
    else
      let (s1, b) := s.bufReadAs (.ae slot core elem) 0 slot core i va.toNat n
      let (s2, bs, bad) := s1.bufPieces slot core elem i lim r
      (s2, b ++ bs, bad)

/-- A buffer write of an access, piece by piece; pieces beyond the buffer are not written. -/
def State.bufStore (s : State) (slot core i lim : Nat) (d : List Byte) : List (Nat × Word × Nat) → State
  | [] => s
  | (off, va, n) :: r =>
    (if lim < va.toNat + n then s else s.bufWrite slot core i va.toNat ((d.drop off).take n) 1).bufStore slot core i lim d r

/-- An access to a buffer performed, and its tokens emitted [06 R145, R146; 15 R373, R374]. -/
def State.bufAccess (s : State) (slot core elem : Nat) (e : Elem) (sfree : Bool) (a : Access) : State :=
  let i := e.portNo
  let lim := bufLen sfree i
  let (k, n) := a.reply e
  if a.kind.stores then
    let s1 := s.bufStore slot core i lim a.data a.parts
    if a.parts.any (fun p => lim < p.2.1.toNat + p.2.2) then
      let (s2, f) := s1.bufRange 1
      s2.failAccess slot core elem a.node a.ctx a.colour [] f
    else s1.endAccess slot core elem a.node a.colour (k.tokens a.ctx a.colour 0 [] false)
  else
    let (s1, b, bad) := s.bufPieces slot core elem i lim a.parts
    match bad with
    | none => s1.endAccess slot core elem a.node a.colour (k.tokens a.ctx a.colour 0 b false)
    | some off =>
      let (s2, f) := s1.bufRange 0
      s2.failAccess slot core elem a.node a.ctx a.colour (k.before a.ctx a.colour b n off e.ae.lay.piece) f

/-- The parts of pieces: each split at 2 KiB boundaries [08 R185]. -/
def pieceParts (ps : List (Nat × Word × Nat)) : List Part :=
  ps.flatMap (fun p => (rangeParts p.2.1 p.2.2).map (fun q => { q with off := q.off + p.1 }))

/-- A released access that the scoreboard lets pass, issued [08 R190, R204; 15 R372]. -/
def State.issueAccess (s : State) (slot core elem : Nat) (a : Access) : State :=
  match s.region slot with
  | none => s
  | some r =>
    let e := r.elem core elem
    let s0 := if a.waited then s.dropStage (fun b => b.unit == .ae slot core elem || (a.kind.gathers && b.unit == .gather (r.core core).edge)) else s
    let (k, _) := a.reply e
    if e.portNo < 3 && !a.kind.gathers then s0.bufAccess slot core elem e r.sfree a
    else
      let st : Stream := if a.kind.gathers then .gather (r.core core).edge else .ae slot core elem
      let kind : OpKind := if a.kind.stores then .write else .read
      s0.startOp { mkOp (.fire slot core elem a.node a.ctx a.colour k a.num) st r.ten kind a.data (pieceParts a.parts)
        (2 ^ (e.portNo - 3)) with psz := match a.kind with | .aload _ | .astore => e.ae.lay.piece | _ => 2048 }

/-- A firing released: a no-op passes, an access takes its pieces or ends in its fault [08 R188, R189; 15 R372, R373]. -/
def State.releaseAccess (s : State) (slot core elem : Nat) (a : Access) : State :=
  match s.region slot with
  | none => s
  | some r =>
    let e := r.elem core elem
    let ae1 := if e.waveOn then e.ae.released a.ctx a.colour a.own a.succ else e.ae
    match a.kind with
    | .noop => s.onAe slot core elem (fun _ => ae1)
    | _ =>
      match a.take e with
      | .error i =>
        (s.onAe slot core elem (fun _ => ae1)).failAccess slot core elem a.node a.ctx a.colour [] (FaultInfo.of 9 i)
      | .ok (ps, pos) =>
        s.onAe slot core elem (fun _ => { ae1 with pos := pos, atBound := false, ready := ae1.ready ++ [{ a with parts := ps }] })

/-- A boundary that waited takes effect and emits [08 R186; 15 R377]. -/
def State.takeBoundary (s : State) (slot core elem : Nat) (a : Access) (emits : Nat) : State :=
  let s1 := s.boundaryNow slot core elem
  match s1.region slot with
  | none => s1
  | some r =>
    let sbc := (r.elem core elem).ae.sbc
    match emits with
    | 0 => s1
    | 1 => s1.endAccess slot core elem a.node a.colour [(2, Token.mk0 .eos a.ctx a.colour 0 .none)]
    | _ => s1.endAccess slot core elem a.node a.colour [(2, Token.scalarOf a.ctx a.colour (sbc.setWidth 64))]

/-- Whether an entry of the ordering unit is a boundary. -/
def Access.isBound (a : Access) : Bool := match a.kind with | .boundary _ => true | _ => false

/-- One thing that an AE does of its own: issues its oldest released access, takes a boundary before which no access that started earlier has its
pieces to take, or else releases a firing [08 R188, R204; 15 R372, R377]. -/
def State.aeStep (s : State) (slot core elem : Nat) : Option State :=
  match s.region slot with
  | none => none
  | some r =>
    let c := r.core core
    let e := c.elem elem
    let without (a : Access) : State := s.onAe slot core elem (fun x => { x with waiting := dropFirst (· == a) x.waiting })
    let rel : Option State :=
      match e.ae.waiting.find? (fun a => !a.isBound && (!e.waveOn || r.mayRelease e a)) with
      | some a => some ((without a).releaseAccess slot core elem a)
      | none => none
    let rel : Option State :=
      match e.ae.waiting.find? Access.real with
      | some a => (match a.kind with | .boundary n => some ((without a).takeBoundary slot core elem a n) | _ => rel)
      | none => rel
    match e.ae.ready with
    | a :: rest =>
      if c.scoreboard (portSpace e.portNo) a.kind.stores a.parts then
        if a.waited then rel else some (s.onAe slot core elem (fun x => { x with ready := { a with waited := true } :: rest }))
      else some ((s.onAe slot core elem (fun x => { x with ready := rest })).issueAccess slot core elem a)
    | [] => rel

/-- Everything an AE does of its own. -/
def State.settleAe (s : State) (slot core elem : Nat) : Nat → State
  | 0 => s
  | n + 1 =>
    match s.aeStep slot core elem with
    | none => s
    | some s1 => s1.settleAe slot core elem n

/-- Whether an exchange operation is a remote operator. -/
def XKind.remote : XKind → Bool
  | .rld _ | .rst _ | .ratom _ _ => true
  | _ => false

/-- Whether a RATOM is an acquire, and whether one is a release [15 R381]. -/
def XKind.acq : XKind → Bool
  | .ratom _ sem => sem == 1#2 || sem == 3#2
  | _ => false

/-- A release RATOM. -/
def XKind.rel : XKind → Bool
  | .ratom _ sem => sem == 2#2 || sem == 3#2
  | _ => false

/-- Whether an operation in progress is an access of an element. -/
def Op.ofAe (o : Op) (slot core elem : Nat) : Bool :=
  match o.who with
  | .fire sl c el _ _ _ _ _ => sl == slot && c == core && el == elem
  | _ => false

/-- Whether an operation in progress is an access that an element started before a number, on a path (7 is every path). -/
def Op.earlier (o : Op) (slot core elem path num : Nat) : Bool :=
  match o.who with
  | .fire sl c el _ _ _ _ n => sl == slot && c == core && el == elem && n < num && (path == 7 || o.stream.path == path)
  | _ => false

/-- Whether an element has accesses on a path that started before a firing and are not performed; one that the ordering unit has not released
has no edge to the firing, since its order in the AE is that of release [09 R211; 15 R383, R384]. -/
def State.busyBefore (s : State) (slot core elem : Nat) (e : Elem) (path num : Nat) : Bool :=
  e.ae.ready.any (fun a => a.real && !a.isBound && a.num < num && (path == 7 || path == (if a.kind.gathers then 4 else 1))) ||
    e.xe.ops.any (fun x => x.kind.remote && x.num < num && (path == 7 || path == 6)) ||
    s.ms.ops.any (fun o => o.earlier slot core elem path num)

/-- The state with the XE state of an element changed. -/
def State.onXe (s : State) (slot core elem : Nat) (f : XeSt → XeSt) : State :=
  s.onRegion slot (fun r => let e := r.elem core elem; r.putElem core elem { e with xe := f e.xe })

/-- The bytes of a remote operator by XOP [15 R378]. -/
def xopSize (xop : Nat) (e : Elem) : Nat :=
  match xop with
  | 0 => 1
  | 1 => 2
  | 2 => 4
  | 3 => 8
  | 4 => 32
  | 5 => 256
  | _ => 4 * e.rows * e.cols

/-- The bytes of a RATOM [15 R380]. -/
def ratomSize (xop : Nat) : Nat := if [1, 3, 6, 8, 11, 12].contains xop then 8 else 4

/-- The operation of a RATOM [15 R380]. -/
def ratomOp (xop : Nat) (b : Word) : AtomOp :=
  match xop with
  | 0 | 1 => .add
  | 2 | 3 => .swap
  | 4 => .cas (b >>> 32)
  | 5 | 6 => .max
  | 7 | 8 => .min
  | 9 => .fadd
  | 10 => .fmax
  | 11 => .and
  | _ => .or

/-- A remote operator issued [15 R379]. -/
def State.issueRemote (s : State) (slot core elem : Nat) (x : XOp) : State :=
  match s.region slot with
  | none => s
  | some r =>
    let e := r.elem core elem
    let st : Stream := .xe slot core elem
    let who (k : ReplyKind) : Who := .fire slot core elem x.node x.ctx x.colour k x.num
    match x.kind with
    | .rld xop => s.startOp { mkOp (who (.rld xop)) st r.ten .read [] (rangeParts x.addr (xopSize xop.toNat e)) apAll with orphan := x.orphan }
    | .rst _ => s.startOp { mkOp (who (.complete x.data.length)) st r.ten .write x.data (rangeParts x.addr x.data.length) apAll with orphan := x.orphan }
    | .ratom xop _ =>
      let n := ratomSize xop.toNat
      s.startOp { mkOp (who (.ratom n)) st r.ten (.atomic (ratomOp xop.toNat (BitVec.ofNat 64 (leNum x.data)))) (x.data.take n)
        (rangeParts x.addr n) 23 with pa := true, orphan := x.orphan }
    | _ => s

/-- Whether a stream is one of an element [09 R208]. -/
def Stream.ofElem (u : Stream) (slot core elem : Nat) : Bool :=
  u == .ae slot core elem || u == .xe slot core elem || u == .operand slot core elem

/-- The staging that a FENCEX marks stale: of its destination path, whatever may happen after it [09 R214; 15 R383] (log 8). -/
def State.fencexDrop (s : State) (path : Nat) : State := s.dropStage (fun b => path == 7 || b.unit.path == path)

/-- A waiting operation of an element emits its operand and ends. -/
def State.passX (s : State) (slot core elem : Nat) (x : XOp) : State :=
  if x.orphan then s else s.endAccess slot core elem x.node x.colour [(2, x.tok)]

/-- The first waiting operation of an element that can go on of its own [15 R381 to R384]. -/
def State.xeStep (s : State) (slot core elem : Nat) : Option State :=
  match s.region slot with
  | none => none
  | some r =>
    let e := r.elem core elem
    let ops := e.xe.ops
    let early (x : XOp) : List XOp := ops.filter (fun y => y.kind.remote && y.num < x.num)
    let ready (x : XOp) : Bool :=
      x.op.isNone &&
      (match x.kind with
        | .rld _ | .rst _ | .ratom _ _ =>
          !(early x).any (fun y => y.kind.acq) && (!x.kind.rel || (early x).isEmpty)
        | .rfen => (early x).isEmpty
        | .fencex p _ _ => !s.busyBefore slot core elem e p.toNat x.num
        | .tbarv _ _ => !s.busyBefore slot core elem e 1 x.num
        | _ => false)
    match ops.find? ready with
    | none => none
    | some x =>
      let drop (s : State) : State := s.onXe slot core elem (fun q => { q with ops := q.ops.filter (fun y => y.num != x.num) })
      match x.kind with
      | .rfen => some ((drop s).passX slot core elem x)
      | .fencex _ q _ =>
        some (((drop s).fencexDrop q.toNat).passX slot core elem x)
      | .tbarv b off =>
        let o := 16 * off.toNat
        let v := x.tok.value.toNat
        let s1 := drop s
        if bufLen r.sfree b.toNat < o + 16 then
          let (s2, f) := s1.bufRange 2
          some (if x.orphan then s2 else s2.failAccess slot core elem x.node x.ctx x.colour [] f)
        else
          let t := (s1.tbar slot core b.toNat o).arrive (bitsAt v 0 20) (bitsAt v 20 32)
          some ((s1.tbarPut slot core b.toNat o t 1).passX slot core elem x)
      | _ =>
        let s1 := s.onXe slot core elem (fun q => { q with ops := q.ops.map (fun y => if y.num == x.num then { y with op := some s.nextOp } else y) })
        some (s1.issueRemote slot core elem x)

/-- Everything an element's waiting operations do of their own. -/
def State.settleXe (s : State) (slot core elem : Nat) : Nat → State
  | 0 => s
  | n + 1 =>
    match s.xeStep slot core elem with
    | none => s
    | some s1 => s1.settleXe slot core elem n

/-- The elements of a region that may have something to do. -/
def Region.busyElems (r : Region) : List (Nat × Nat) :=
  r.cores.flatMap (fun p => (p.2.elems.filter (fun q => !q.2.ae.waiting.isEmpty || !q.2.ae.ready.isEmpty || !q.2.xe.ops.isEmpty)).map
    (fun q => (p.1, q.1)))

/-- The operation of an element numbered in firing order removed: it has emitted, or was orphaned. -/
def State.endX (s : State) (slot core elem num : Nat) : State :=
  s.onXe slot core elem (fun q => { q with ops := q.ops.filter (fun y => y.num != num) })

/-- The first failing part of an operation [15 R373]. -/
def Op.failed (o : Op) : Option (Nat × FaultInfo) :=
  o.parts.foldl (fun b p =>
    match p.st, b with
    | .bad f, none => some (p.off, f)
    | .bad f, some (off, g) => if p.off < off then some (p.off, f) else some (off, g)
    | _, b => b) none

/-- The bytes that an operation has read. -/
def Op.bytes (o : Op) (n : Nat) : List Byte := mread o.got 0 n

/-- The length of an operation. -/
def Op.size (o : Op) : Nat := o.parts.foldl (fun n p => if n < p.off + p.n then p.off + p.n else n) 0

/-- The address of an operation. -/
def Op.addr (o : Op) : Word :=
  match o.parts.head? with
  | some p => p.va
  | none => 0

/-- A firing's access ends: its tokens or its fault, and nothing for an orphaned one; an acquire RATOM orders itself before what follows
[07 R176; 09 R209; 14 R356; 15 R371, R373]. -/
def State.finishFire (s : State) (o : Op) (slot core elem node : Nat) (x : BitVec 12) (c : BitVec 8) (k : ReplyKind) (num : Nat) : State :=
  let acq := match s.region slot with
    | some r => (r.elem core elem).xe.ops.any (fun y => y.num == num && y.kind.acq)
    | none => false
  let s1 := (if acq then s.unitAcquire 6 else s).endX slot core elem num
  if o.orphan then s1.onRegion slot Region.alive
  else
    let n := o.size
    let b := o.bytes n
    match o.failed with
    | some (off, f) => s1.failAccess slot core elem node x c (k.before x c b n off o.psz) f
    | none =>
      match k with
      | .mrest slotNo =>
        (match s1.region slot with
          | none => s1
          | some r =>
            let e := r.elem core elem
            if !(e.me.slot slotNo.toNat).claim then s1.failAccess slot core elem node x c [] (FaultInfo.of 9 iUNCLAIMED)
            else
              let m := e.me.putSlot slotNo.toNat { e.me.slot slotNo.toNat with bytes := slotBytes b, zero := false }
              (s1.putRegion slot (r.putElem core elem { e with me := m })).endAccess slot core elem node c (k.tokens x c o.addr b o.late))
      | .ratom _ =>
        let s2 := s1.onRegion slot (fun r => r.putElem core elem ((r.elem core elem).flag
          ((if o.flags.getLsbD 0 then flFOVF else 0#32) ||| (if o.flags.getLsbD 1 then flFNAN else 0#32))))
        s2.endAccess slot core elem node c (k.tokens x c o.addr b o.late)
      | _ => s1.endAccess slot core elem node c (k.tokens x c o.addr b o.late)

end Sys2Proof.Machine
end

