-- ==== Sys2Proof/Machine/Copies.lean ====
section
/-! DEFINITION. The copy engine: records, sectors, completion, channel states [08 R195 to R201]. -/

namespace Sys2Proof.Machine

/-- A channel of a core. -/
def Core.chan (c : Core) (ch : Nat) : Chan := tget c.chans Chan.idle ch

/-- A core with a channel written. -/
def Core.putChan (c : Core) (ch : Nat) (x : Chan) : Core := { c with chans := tset c.chans ch x }

/-- A channel of a region's core changed. -/
def State.onChan (s : State) (slot core ch : Nat) (f : Chan → Chan) : State :=
  s.onRegion slot (fun r => let c := r.core core; r.putCore core (c.putChan ch (f (c.chan ch))))

/-- The records owned by a core's engine [08 R195]. -/
def Core.owned (c : Core) : Nat := c.chans.foldl (fun n p => n + p.2.recs.length) 0

/-- Records that channels of a core are reading. -/
def Core.readings (c : Core) : Nat := (c.chans.filter (fun p => p.2.reading)).length

/-- ERRC codes [08 R200]. -/
def erBADREC : Nat := 1
/-- XLFAULT. -/
def erXLFAULT : Nat := 2
/-- MEMERR. -/
def erMEMERR : Nat := 3
/-- TIMEOUT. -/
def erTIMEOUT : Nat := 4

/-- The ERRC of a failure [08 R197]. -/
def errcOf (f : FaultInfo) : Nat := if f.cls == fcTIMEOUT then erTIMEOUT else if f.mem then erMEMERR else erXLFAULT

/-- A record from its 64 bytes [08 R196]. -/
def XferRec.ofBytes (addr : Word) (b : List Byte) : XferRec :=
  let f (o n : Nat) : Nat := leNum ((b.drop o).take n)
  { addr := addr, next := BitVec.ofNat 64 (f 0 8), ctl := BitVec.ofNat 8 (f 8 1), ssp := BitVec.ofNat 8 (f 9 1), dsp := BitVec.ofNat 8 (f 10 1),
    len := f 12 4, src := BitVec.ofNat 64 (f 16 8), dst := BitVec.ofNat 64 (f 24 8), e1 := f 32 2, e2 := f 34 2,
    ss1 := BitVec.ofNat 32 (f 36 4), ss2 := BitVec.ofNat 32 (f 40 4), ds1 := BitVec.ofNat 32 (f 44 4), ds2 := BitVec.ofNat 32 (f 48 4),
    tbar := BitVec.ofNat 64 (f 56 8) }

/-- Whether a record passes its check [08 R197]; `b` are its bytes. -/
def XferRec.ok (x : XferRec) (sfree : Bool) (b : List Byte) : Bool :=
  let t := x.tbar.toNat
  let sel := bitsAt t 30 2
  x.ctl.toNat / 4 == 0 && x.ssp.toNat ≤ 3 && x.dsp.toNat ≤ 3 && (b.drop 11).take 1 == [0#8] && ((b.drop 52).take 4).all (· == 0#8) &&
    x.len != 0 && x.next.toNat % 64 == 0 && bitsAt t 0 4 == 0 && bitsAt t 23 7 == 0 && t / 2 ^ 32 == 0 &&
    (sel == 3 || bitsAt t 4 19 * 16 + 16 ≤ bufLen sfree sel)

/-- A fault record of a copy [08 R197]. -/
def State.copyRecord (s : State) (slot : Nat) (f : FaultInfo) : State :=
  match s.region slot with
  | none => s
  | some r => s.record r.ten slot 0xFFFF 0 0 f

/-- The fault of a copy that reaches beyond a buffer [08 R197]; its INFO1 is open (log 17). -/
def State.copyRange (s : State) (acc : Nat) : State × FaultInfo := s.bufRange acc

/-- A record at the head as the engine read it [08 R195, R197, R198]: not owned ends the walk, a failing check ends it in
error, else the record is owned and the walk goes on; a channel that has stopped reading takes nothing. -/
def State.takeRecord (s : State) (slot core ch : Nat) (b : List Byte) : State :=
  match s.region slot with
  | none => s
  | some r =>
    s.onChan slot core ch (fun c0 =>
      let c := { c0 with reading := false }
      let x := XferRec.ofBytes c.head b
      if c0.st != .walk then c
      else if x.ctl.getLsbD 0 == false then { c with st := .drain }
      else if !x.ok r.sfree b then { c with st := .drain, errc := BitVec.ofNat 4 erBADREC }
      else
        let o : OwnedRec := { num := c.num, xr := x, started := false, run := 0, sec := 0, flying := 0, ready := [], err := 0 }
        let c1 := { c with recs := c.recs ++ [o], num := c.num + 1 }
        if x.next == 0#64 then { c1 with st := .drain } else { c1 with head := x.next })

/-- A record that could not be read ends the walk; a channel that has stopped reading takes nothing [08 R197]. -/
def State.badRecord (s : State) (slot core ch : Nat) (f : FaultInfo) : State :=
  match s.region slot with
  | none => s
  | some r =>
    if ((r.core core).chan ch).st != .walk then s.onChan slot core ch (fun c => { c with reading := false })
    else
      (s.onChan slot core ch (fun c => { c with reading := false, st := .drain, errc := BitVec.ofNat 4 (errcOf f) })).copyRecord slot f

/-- RECORD_READ: the channel reads the record at its head, in a buffer at once, in tenant memory by an operation
[08 R195]. -/
def State.readRecord (s : State) (slot core ch : Nat) : State :=
  match s.region slot with
  | none => s
  | some r =>
    let c := r.core core
    let k := c.chan ch
    if !r.acts || k.st != .walk || k.reading || 512 ≤ c.owned + c.readings then s
    else if isWindow k.head then
      match r.window k.head 64 with
      | none =>
        let (s1, f) := s.copyRange 0
        s1.badRecord slot core ch f
      | some (i, off) => s.takeRecord slot core ch (s.bufRead slot core i off 64)
    else
      (s.onChan slot core ch (fun c => { c with reading := true })).startOp
        (mkOp (.copyRec slot core ch) (.copy slot core ch) r.ten .read [] (rangeParts k.head 64) apAll)

/-- The number of runs of a record. -/
def XferRec.runs (x : XferRec) : Nat := (x.e1 + 1) * (x.e2 + 1)

/-- Source and destination of a run [08 R196]. -/
def XferRec.run (x : XferRec) (i : Nat) : Word × Word :=
  let i1 := BitVec.ofNat 64 (i % (x.e1 + 1))
  let i2 := BitVec.ofNat 64 (i / (x.e1 + 1))
  (x.src + i1 * x.ss1.signExtend 64 + i2 * x.ss2.signExtend 64, x.dst + i1 * x.ds1.signExtend 64 + i2 * x.ds2.signExtend 64)

/-- The sectors of a run at a destination [08 R199]. -/
def sectorsOf (d : Word) (len : Nat) : Nat := (d.toNat + len - 1) / 64 - d.toNat / 64 + 1

/-- Sector `k` of a run: source address, destination address and length [08 R199]. -/
def XferRec.sector (x : XferRec) (run k : Nat) : Word × Word × Nat :=
  let (a, d) := x.run run
  let lo := if k = 0 then 0 else (d.toNat / 64 + k) * 64 - d.toNat
  let hi := (d.toNat / 64 + k + 1) * 64 - d.toNat
  let n := (if hi < x.len then hi else x.len) - lo
  (a + BitVec.ofNat 64 lo, d + BitVec.ofNat 64 lo, n)

/-- The owned record of a channel with a number. -/
def Chan.recNo (c : Chan) (num : Nat) : Option OwnedRec := c.recs.find? (fun o => o.num == num)

/-- A channel with an owned record replaced. -/
def Chan.putRec (c : Chan) (o : OwnedRec) : Chan := { c with recs := c.recs.map (fun p => if p.num == o.num then o else p) }

/-- A record moved past its next sector. -/
def OwnedRec.step (o : OwnedRec) : OwnedRec :=
  if o.sec + 1 < sectorsOf (o.xr.run o.run).2 o.xr.len then { o with sec := o.sec + 1 } else { o with sec := 0, run := o.run + 1 }

/-- Whether an owned record has sectors that have not begun. -/
def OwnedRec.more (o : OwnedRec) : Bool := o.started && o.err == 0 && o.run < o.xr.runs

/-- A record that fails: its error, the channel's error and the fault record, for its first failure only [08 R197]. -/
def State.failRec (s : State) (slot core ch num : Nat) (f : FaultInfo) : State :=
  match s.region slot with
  | none => s
  | some r =>
    match ((r.core core).chan ch).recNo num with
    | none => s
    | some o =>
      if o.err != 0 then s
      else
        (s.onChan slot core ch (fun c =>
          let c1 := c.putRec { o with err := errcOf f, ready := [] }
          { c1 with st := .drain, errc := if c1.errc == 0#4 then BitVec.ofNat 4 (errcOf f) else c1.errc })).copyRecord slot f

/-- A channel whose record has a number of sector operations in flight changed. -/
def State.flyRec (s : State) (slot core ch num : Nat) (f : OwnedRec → OwnedRec) : State :=
  s.onChan slot core ch (fun c =>
    match c.recNo num with
    | none => c
    | some o => c.putRec (f o))

/-- LAND(1) on a record's barrier [08 R199, R203]. -/
def State.landBar (s : State) (slot core : Nat) (x : XferRec) : State :=
  let sel := bitsAt x.tbar.toNat 30 2
  let off := bitsAt x.tbar.toNat 4 19 * 16
  if sel == 3 then s else s.tbarPut slot core sel off ((s.tbar slot core sel off).land 1) 2

/-- FAIL on a record's barrier [08 R203]. -/
def State.failBar (s : State) (slot core : Nat) (x : XferRec) : State :=
  let sel := bitsAt x.tbar.toNat 30 2
  let off := bitsAt x.tbar.toNat 4 19 * 16
  if sel == 3 then s else s.tbarPut slot core sel off (s.tbar slot core sel off).fail 2

/-- The next sector of a record begins: its source bytes are read from a buffer, or by an operation [08 R195, R197]. -/
def State.beginSector (s : State) (slot core ch : Nat) (o : OwnedRec) : State :=
  match s.region slot with
  | none => s
  | some r =>
    let (a, d, n) := o.xr.sector o.run o.sec
    let o1 := o.step
    if o.xr.ssp.toNat < 3 then
      let i := o.xr.ssp.toNat
      if bufLen r.sfree i < a.toNat + n then
        let (s1, f) := s.copyRange 0
        s1.failRec slot core ch o.num f
      else
        let (s1, b) := s.bufReadAs (.copy slot core ch) 0 slot core i a.toNat n
        s1.onChan slot core ch (fun c => c.putRec { o1 with ready := o1.ready ++ [(d, b)] })
    else
      (s.onChan slot core ch (fun c => c.putRec { o1 with flying := o1.flying + 1 })).startOp
        (mkOp (.copySrc slot core ch o.num d) (.copy slot core ch) r.ten .read [] (rangeParts a n) apAll)

/-- A record that has ended completes: CTL is written with OWN = 0, DONE counts it, FAIL when it ended in error
[08 R197 to R200]. -/
def State.completeRec (s : State) (slot core ch : Nat) (o : OwnedRec) : State :=
  match s.region slot with
  | none => s
  | some r =>
    let s1 := s.onChan slot core ch (fun c => { c with recs := c.recs.filter (fun p => p.num != o.num), done := c.done + 1 })
    let s2 := if o.err != 0 then s1.failBar slot core o.xr else s1
    let ctl := o.xr.ctl &&& ~~~1#8
    let a := o.xr.addr + 8
    if isWindow a then
      (match r.window a 1 with
        | some (i, off) => s2.bufWrite slot core i off [ctl] 2
        | none => s2)
    else s2.startOp (mkOp (.copyCtl slot core ch) (.copy slot core ch) r.ten .write [ctl] (rangeParts a 1) apAll)

/-- Whether an owned record has ended: every sector landed, or an error and nothing in flight. -/
def OwnedRec.ended (o : OwnedRec) : Bool := o.started && o.flying == 0 && o.ready.isEmpty && (o.err != 0 || o.xr.runs ≤ o.run)

/-- Sector operations of a channel in flight or ready; at most 8 (log 11). -/
def Chan.busy (c : Chan) : Nat := c.recs.foldl (fun n o => n + o.flying + o.ready.length) 0

/-- One thing that a channel does of its own: starts a record, begins a sector, completes a record, ends its walk
[08 R195, R197, R200]. -/
def State.chanStep (s : State) (slot core ch : Nat) : Option State :=
  match s.region slot with
  | none => none
  | some r =>
    let c := (r.core core).chan ch
    let serOk (o : OwnedRec) : Bool := o.xr.ctl.getLsbD 1 == false || c.recs.head?.any (fun p => p.num == o.num)
    match c.recs.find? (fun o => !o.started) with
    | some o =>
      if serOk o then some (s.onChan slot core ch (fun c => c.putRec { o with started := true })) else chanGo s slot core ch c
    | none => chanGo s slot core ch c
where
  /-- A sector, a completion or the end of a walk. -/
  chanGo (s : State) (slot core ch : Nat) (c : Chan) : Option State :=
    match c.recs.find? OwnedRec.ended with
    | some o => some (s.completeRec slot core ch o)
    | none =>
      match c.recs.find? OwnedRec.more with
      | some o => if c.busy < 8 then some (s.beginSector slot core ch o) else none
      | none =>
        if c.st == .drain && c.recs.isEmpty && !c.reading then
          some (s.onChan slot core ch (fun c => { c with st := if c.errc == 0#4 then .idle else .err }))
        else none

/-- Everything a channel does of its own. -/
def State.settleChan (s : State) (slot core ch : Nat) : Nat → State
  | 0 => s
  | n + 1 =>
    match s.chanStep slot core ch with
    | none => s
    | some s1 => s1.settleChan slot core ch n

/-- SECTOR_LAND: a sector whose bytes are read is written: into a buffer, where it lands, or by an operation [08 R199]. -/
def State.landSector (s : State) (slot core ch idx : Nat) : State :=
  match s.region slot with
  | none => s
  | some r =>
    let c := (r.core core).chan ch
    let all := c.recs.flatMap (fun o => o.ready.map (fun q => (o, q)))
    match all[idx]? with
    | none => s
    | some (o, (d, b)) =>
      if !r.acts && (s.slot slot).reset.isNone then s else
      let s1 := s.flyRec slot core ch o.num (fun o => { o with ready := dropFirst (· == (d, b)) o.ready })
      if o.xr.dsp.toNat < 3 then
        let i := o.xr.dsp.toNat
        if bufLen r.sfree i < d.toNat + b.length then
          let (s2, f) := s1.copyRange 1
          s2.failRec slot core ch o.num f
        else (s1.bufWrite slot core i d.toNat b 2).landBar slot core o.xr
      else
        (s1.flyRec slot core ch o.num (fun o => { o with flying := o.flying + 1 })).startOp
          (mkOp (.copyDst slot core ch o.num) (.copy slot core ch) r.ten .write b (rangeParts d b.length) apAll)

/-- The end of a sector's source read: its bytes are ready, or the record fails. -/
def State.endCopySrc (s : State) (o : Op) (slot core ch num : Nat) (dst : Word) : State :=
  let s1 := s.flyRec slot core ch num (fun x => { x with flying := x.flying - 1 })
  match o.failed with
  | some (_, f) => s1.failRec slot core ch num f
  | none => s1.flyRec slot core ch num (fun x => if x.err == 0 then { x with ready := x.ready ++ [(dst, o.bytes o.size)] } else x)

/-- The end of a sector's write: it lands, or the record fails [08 R199]. -/
def State.endCopyDst (s : State) (o : Op) (slot core ch num : Nat) : State :=
  let s1 := s.flyRec slot core ch num (fun x => { x with flying := x.flying - 1 })
  match o.failed with
  | some (_, f) => s1.failRec slot core ch num f
  | none =>
    match s1.region slot with
    | none => s1
    | some r =>
      match ((r.core core).chan ch).recNo num with
      | none => s1
      | some x => s1.landBar slot core x.xr

/-- The end of the read of a record. -/
def State.endCopyRec (s : State) (o : Op) (slot core ch : Nat) : State :=
  match o.failed with
  | some (_, f) => s.badRecord slot core ch f
  | none => s.takeRecord slot core ch (o.bytes 64)

end Sys2Proof.Machine
end

