-- ==== Sys2Proof/Machine/Landing.lean ====
section
/-! DEFINITION. Tokens at their element: landing, placement, the talon [07 R158, R159, R166, R168, R180; 08 R186;
12 R298, R301; 14 R343]. -/

namespace Sys2Proof.Machine

/-- A SINK record with MM 0, no destinations and LIT 0: a padding record, unless an arc targets it [07 R160]. -/
def recPad (r : BitVec 96) : Bool :=
  let h := recHd r
  r.toNat / 2 ^ 87 == 4 && h.mm == 0#2 && noDest h.d0 && noDest h.d1 && r.toNat % 2 ^ 32 == 0

/-- Whether a destination names a node. -/
def destNames (d : Dest) (core elem node : Nat) : Bool :=
  !noDest d && d.core.toNat == core && d.elem.toNat == elem && d.node.toNat == node

/-- Whether an arc of the region's image targets a node [07 R160]. -/
def Region.aimed (r : Region) (core elem node : Nat) : Bool :=
  r.cores.any (fun c => c.2.elems.any (fun e => e.2.used && e.2.recs.any (fun p =>
    destNames (recHd p.2).d0 core elem node || destNames (recHd p.2).d1 core elem node)))

/-- Whether an element takes tokens at a port of a node: a configured port of a record that is no padding [07 R160; 12 R301]. -/
def Region.takes (r : Region) (core elem node : Nat) (p : BitVec 2) : Bool :=
  let e := r.elem core elem
  e.used && node < e.nrec && (mmPorts (recHd (e.rec_ node)).mm).contains p && !(recPad (e.rec_ node) && !r.aimed core elem node)

/-- Whether a port's widow slot is held. -/
def Elem.widowUsed (e : Elem) (node : Nat) (p : BitVec 2) : Bool := e.pool.any (fun x => x.at_ node p && x.place == .widow)

/-- The place for a token by the first rule that applies; none when it spills [07 R166]. -/
def Elem.place (e : Elem) (t : Token) : Option Place :=
  if t.act != 1#2 && t.colour == e.lead && !e.widowUsed t.node.toNat t.port then some .widow
  else if e.generalUsed t.node.toNat t.port + 1 < e.pcap then some .general
  else none

/-- The beat positions in use at an ME. -/
def Elem.beats (e : Elem) : List Nat := e.pool.filterMap (fun x => match x.land with | .beat p => some p | _ => none)

/-- The start of the first gap of `len` in a range: its start or the end of an entry (start and length). -/
def firstFit (used : List (Nat × Nat)) (lo hi len : Nat) : Option Nat :=
  ((lo :: used.map (fun x => x.1 + x.2)).filter (fun g => g + len ≤ hi && used.all (fun x => x.1 + x.2 ≤ g || g + len ≤ x.1))).foldl
    (fun b g => match b with | none => some g | some h => some (if g < h then g else h)) none

/-- The landing places of a scratchpad, first and end byte: 128 KiB at a VE, above its VSMX state slots, 64 KiB at an SE and at an XE,
above its packet buffers [00 R1; 06 R133; 13 R339; 15 R385] (log 49). -/
def padRange (elem : Nat) : Nat × Nat :=
  match elemClass elem with
  | 1 => (0x2000, 0x20000)
  | 2 => (0, 0x10000)
  | _ => (0x2000, 0x10000)

/-- The bytes of a token's payload that land outside its pool entry, in whole granules of 32. -/
def Token.landed (t : Token) : Nat :=
  match t.kind with
  | .arow | .vrow | .tile => (t.bytes.length + 31) / 32 * 32
  | _ => 0

/-- The places of a scratchpad in use. -/
def Elem.pads (e : Elem) : List (Nat × Nat) := e.pool.filterMap (fun x => match x.land with | .pad o => some (o, x.tok.landed) | _ => none)

/-- Where a payload lands: at an ME a beat position or a tile landing slot, the reserved one for the lead colour only; at a VE, SE or XE a
free place of its scratchpad; none where there is no place [06 R133; 14 R343]. -/
def Elem.landAt (e : Elem) (elem : Nat) (t : Token) : Option Landing :=
  if elemClass elem != 0 then
    if t.landed == 0 || elemClass elem == 3 then some .none
    else (firstFit e.pads (padRange elem).1 (padRange elem).2 t.landed).map Landing.pad
  else match t.kind with
    | .arow =>
      (match (List.range 63).find? (fun p => !e.beats.contains p) with
        | some p => some (.beat p)
        | none => if t.colour == e.lead && !e.beats.contains 63 then some (.beat 63) else none)
    | .tile | .vrow =>
      let used (b : Bool) : Bool := e.pool.any (fun x => x.land == .slot b)
      if !used false then some (.slot false) else if t.colour == e.lead && !used true then some (.slot true) else none
    | _ => some .none

/-- A token held at an element. -/
def Elem.hold (e : Elem) (t : Token) (p : Place) (l : Landing) : Elem := { e with pool := e.pool ++ [⟨t, p, l⟩] }

/-- The sticky token that a token replaces: the one of its context at its port [07 R159]. -/
def Elem.stickyOf (e : Elem) (t : Token) : Option Held :=
  e.pool.find? (fun x => x.at_ t.node.toNat t.port && x.tok.act == 1#2 && x.tok.ctx == t.ctx)

/-- An element without a held token. -/
def Elem.release (e : Elem) (x : Held) : Elem := { e with pool := dropFirst (· == x) e.pool }

/-- The virtual zeros of a token at its port delivered: live colours wait there, others are dropped [07 R180]. -/
def Region.deliverZeros (r : Region) (t : Token) (taken : Bool) : Region :=
  let tc := t.core.toNat
  let cs := ((List.range t.skip.toNat).map (fun i => t.colour - BitVec.ofNat 8 (t.skip.toNat - i))) ++
    (if t.kind == .zero then [t.colour] else [])
  cs.foldl (fun r c =>
    if taken && r.isLive c then
      let e := r.elem tc t.elem.toNat
      r.putElem tc t.elem.toNat { e with vzeros := e.vzeros ++ [⟨t.node.toNat, t.port, t.ctx, c⟩] }
    else r.count tc c (-1)) r

/-- The granules of a token in the talon: its entry, and its payload rounded up [07 R168]. -/
def Token.granules (t : Token) : Nat :=
  1 + t.landed / 32

/-- Spilled tokens of a core, those on their way back included. -/
def Core.inTalon (c : Core) : List Spilled := c.talon ++ c.refetch

/-- Talon granules in use. -/
def Core.talonUsed (c : Core) : Nat := c.inTalon.foldl (fun n x => n + x.len) 0

/-- The first fit for a token in the talon's 4,096 granules [07 R168]. -/
def Core.talonFit (c : Core) (len : Nat) : Option Nat := firstFit (c.inTalon.map (fun x => (x.granule, x.len))) 0 4096 len

/-- An element as it is once the tokens on their way back from the talon have come [07 R168]. -/
def Core.withBack (c : Core) (elem : Nat) : Elem :=
  (c.refetch.filter (fun x => x.tok.elem.toNat == elem)).foldl (fun e x => e.hold x.tok x.back x.land) (c.elem elem)

/-- The address of a granule of a core's talon [07 R168]. -/
def Region.talonVa (r : Region) (core granule : Nat) : Word :=
  r.savek + BitVec.ofNat 64 (0x1600000 * (core + 1) - 0x20000 + 32 * granule)

/-- The header of a token as 64 bits [07 R156, R157]. -/
def Token.header (t : Token) : Nat :=
  (match t.kind with
    | .scalar => 0 | .arow => 1 | .vrow => 2 | .tile => 3 | .nil => 4 | .eos => 5 | .fault => 6 | .marker => 7 | .cfg => 8 | .zero => 9) * 2 ^ 60 +
  t.act.toNat * 2 ^ 58 + t.port.toNat * 2 ^ 56 + t.node.toNat * 2 ^ 44 + t.core.toNat * 2 ^ 38 + t.elem.toNat * 2 ^ 32 +
  t.ctx.toNat * 2 ^ 20 + t.colour.toNat * 2 ^ 12 + t.skip.toNat * 2 ^ 8 + t.aux.toNat

/-- The bytes of a spilled token: header, scalar payload, 16 bytes of state that the spec does not lay out (log 12), and
the payload [07 R166, R168]. -/
def State.spillBytes (s : State) (t : Token) : State × List Byte :=
  let w := match t.pay with | .word v => v.toNat | _ => 0
  let data := match t.pay with | .bytes b => b | _ => []
  ({ s with freeCount := s.freeCount + 1 },
    leOf 8 t.header ++ leOf 8 w ++ freeBytes s.freeCount 16 ++ data ++ List.replicate ((32 - data.length % 32) % 32) 0#8)

/-- A token written to the talon [07 R168]. -/
def State.spill (s : State) (slot core : Nat) (r : Region) (t : Token) (g : Nat) : State :=
  let c := r.core core
  let s1 := s.putRegion slot (r.putCore core { c with talon := c.talon ++ [{ tok := t, granule := g, len := t.granules }] })
  let (s2, b) := s1.spillBytes t
  s2.startOp (mkOp (.spill slot core g) (.talon slot core) r.ten .write b (rangeParts (r.talonVa core g) b.length) 1)

/-- A discarded token: its count goes, a record of class OPFAULT with INFO1 2 and OPFAULT in the core that sent it
[12 R301]. -/
def State.discard (s : State) (slot : Nat) (r : Region) (f : Flight) : State :=
  let t := f.tok
  let tc := t.core.toNat
  let r1 := r.deliverZeros t false
  let r2 := if t.counted then r1.count tc t.colour (-1) else r1
  (s.putRegion slot (r2.raise f.sender 3 (opTval t.ctx t.colour))).record r.ten slot (elemField (r.core tc) t.elem.toNat) t.ctx.toNat
    t.colour.toNat (FaultInfo.of 9 2)

/-- A TILE payload above 2,048 bytes at an ME: a FAULT token takes its place [14 R343]. -/
def State.oversize (s : State) (slot : Nat) (t : Token) : State × Token :=
  (s.opFault slot t.core.toNat t.elem.toNat t.ctx t.colour (FaultInfo.of 9 iPAYLOAD),
   { t with kind := .fault, aux := 9, pay := .none })

/-- A token that lands at a port that takes it, its virtual zeros delivered: it is held, or spills, or waits (none), the places of tokens on
their way back from the talon kept free [07 R159, R166, R168] (log 49). -/
def State.placeToken (s : State) (slot : Nat) (t : Token) : Option State :=
  match s.region slot with
  | none => none
  | some r =>
    let tc := t.core.toNat
    let te := t.elem.toNat
    let c := r.core tc
    let e := c.elem te
    let w := c.withBack te
    let put (e : Elem) (p : Place) (l : Landing) : Option State := some (s.putRegion slot (r.putElem tc te (e.hold t p l)))
    let spill : Option State :=
      if c.inTalon.length < 1024 then (c.talonFit t.granules).map (fun g => s.spill slot tc r t g) else none
    if t.kind == .zero then some s
    else if t.act == 1#2 then
      match (if (recHd (e.rec_ t.node.toNat)).mm == 0#2 then none else e.stickyOf t) with
      | some y => ((w.release y).landAt te t).bind (put (e.release y) y.place)
      | none => if w.generalUsed t.node.toNat t.port + 1 < w.pcap then (w.landAt te t).bind (put e .general) else none
    else match w.place t, w.landAt te t with
      | some p, some l => put e p l
      | some _, none => if elemClass te == 0 then none else spill
      | none, _ => spill

/-- Whether a token that waits at landing waits for the talon [07 R168]. -/
def Region.talonWait (r : Region) (t : Token) : Bool :=
  let c := r.core t.core.toNat
  let w := c.withBack t.elem.toNat
  t.act != 1#2 && t.kind != .zero && t.kind != .marker &&
    ((w.place t).isNone || (elemClass t.elem.toNat != 0 && (w.landAt t.elem.toNat t).isNone)) &&
    (1024 ≤ c.inTalon.length || c.talonFit t.granules == none)

/-- A token of a flight lands, or waits (none) [07 R166; 06 R143; 08 R186; 12 R298, R301]. -/
def State.landFlight (s : State) (slot idx : Nat) (f : Flight) : Option State :=
  match s.region slot with
  | none => none
  | some r0 =>
    let r := { r0 with flight := ldel r0.flight idx }.alive
    let t := f.tok
    let tc := t.core.toNat
    let te := t.elem.toNat
    let e := r.elem tc te
    if t.kind == .marker then
      if !(tc < r.ncore && e.used && t.node.toNat < e.nrec) then some (s.putRegion slot r)
      else if 4 ≤ e.markers.length then none
      else some (s.putRegion slot (r.putElem tc te { e with markers := e.markers ++ [f] }))
    else if !(tc < r.ncore && r.takes tc te t.node.toNat t.port) then some (s.discard slot r f)
    else
      let r1 := r.deliverZeros t true
      if t.kind == .cfg && elemClass te == 3 then
        if 16 ≤ e.ae.queue.length && !(e.ae.atBound && !e.ae.waiting.any Access.real) then none
        else
          let r2 := if t.counted then r1.count tc t.colour (-1) else r1
          some ((s.putRegion slot r2).enqueueWord slot tc te
            { num := t.aux, v := t.value, tag := some (t.ctx, t.colour), node := t.node.toNat })
      else
        let big := elemClass te == 0 && t.kind == .tile && 2048 < t.bytes.length
        let (s1, u) := if big then (s.putRegion slot r1).oversize slot { t with skip := 0 } else (s.putRegion slot r1, { t with skip := 0 })
        s1.placeToken slot u

/-- The end of a refetch: the token, or a FAULT token when the read failed [07 R168; 08 R193]. -/
def State.endRefetch (s : State) (o : Op) (slot core granule : Nat) : State :=
  s.onRegion slot (fun r =>
    let c := r.core core
    match c.refetch.find? (fun x => x.granule == granule) with
    | none => r
    | some x =>
      let t := match o.failed with
        | none => x.tok
        | some (_, f) => { x.tok with kind := .fault, aux := BitVec.ofNat 8 f.cls, pay := .none }
      let c1 := { c with refetch := dropFirst (· == x) c.refetch }
      let el := t.elem.toNat
      (r.putCore core (c1.putElem el ((c1.elem el).hold t x.back x.land))).alive)

/-- The operands that a unit still lacks at an element, the spilled ones not counted. -/
def Elem.unitPorts (e : Elem) (t : Token) : List (BitVec 2) :=
  (mmPorts (recHd (e.rec_ t.node.toNat)).mm).filter (fun p => (e.operand t.node.toNat p t.ctx t.colour t.row).isNone)

/-- Where a spilled token may come back to: as the oldest of its port to a free entry, or, when it completes a unit or is a FAULT that fires
alone, to the refill buffer of four, one entry kept for the lead colour [07 R161, R168]; a payload for an ME takes a landing place all the same, and
waits while none is free [14 R343]. -/
def Core.backPlace (c : Core) (x : Spilled) : Option (Place × Landing) :=
  let el := x.tok.elem.toNat
  let e := c.elem el
  let w := c.withBack el
  let age (t : Token) : Nat := (t.colour - e.lead).toNat
  let same := c.talon.filter (fun y => y.tok.elem == x.tok.elem && y.tok.node == x.tok.node && y.tok.port == x.tok.port)
  let spilledAt (p : BitVec 2) : Bool := c.inTalon.any (fun y => y.tok.elem == x.tok.elem && y.tok.node == x.tok.node && y.tok.port == p &&
    y.tok.ctx == x.tok.ctx && y.tok.colour == x.tok.colour && y.tok.row == x.tok.row)
  let lacks := e.unitPorts x.tok
  let refill := (w.pool.filter (fun y => y.place == .refill)).length
  let buffer : Option (Place × Landing) :=
    if (x.tok.kind == .fault || (lacks.all spilledAt && !lacks.isEmpty)) && (refill < 3 || (refill < 4 && x.tok.colour == e.lead)) then
      (if elemClass el == 0 then (w.landAt el x.tok).map (fun l => (.refill, l)) else some (.refill, .none))
    else none
  if same.all (fun y => age x.tok ≤ age y.tok) then
    match w.place x.tok, w.landAt el x.tok with
    | some p, some l => some (p, l)
    | _, _ => buffer
  else buffer

/-- Whether a spilled token may come back [07 R168]. -/
def Core.mayRefetch (c : Core) (x : Spilled) : Bool := (c.backPlace x).isSome

/-- TALON_REFETCH: a spilled token is read back [07 R168]. -/
def State.refetch (s : State) (slot core idx : Nat) : State :=
  match s.region slot with
  | none => s
  | some r =>
    let c := r.core core
    match c.talon[idx]? with
    | none => s
    | some x =>
      match (if r.acts then c.backPlace x else none) with
      | none => s
      | some (p, l) =>
        (s.putRegion slot (r.putCore core { c with talon := ldel c.talon idx, refetch := c.refetch ++ [{ x with back := p, land := l }] })).startOp
          (mkOp (.refetch slot core x.granule) (.talon slot core) r.ten .read [] (rangeParts (r.talonVa core x.granule) (32 * x.len)) 1)

end Sys2Proof.Machine
end

