-- ==== Sys2Proof/Machine/MemRun.lean ====
section
/-! DEFINITION. The end of memory operations by who waits for them, and everything that follows of its own
[08 R191 to R199; 12 R278; 15 R371 to R384]. -/

namespace Sys2Proof.Machine

/-- A control-core access ends: the thread goes on with the value, or traps [12 R277, R278]. -/
def State.endCc (s0 : State) (o : Op) (slot core thr : Nat) (rd : BitVec 5) (v : Word) : State :=
  match s0.region slot with
  | none => s0
  | some r =>
    let c := r.core core
    let t := c.thread thr
    if t.st != .block (.op o.id) then s0
    else
      let s := s0.ccPeerEnd (slot, core, thr)
      match o.failed with
      | some (_, f) => s.ccFault slot core thr o.addr f
      | none => s.putThread slot core thr { (t.wr rd c.clk v).advance with st := .run }

/-- The value that a load writes [12 R282]. -/
def loadValue (sx : Bool) (b : List Byte) : Word :=
  if sx then sext64 (8 * b.length) (leNum b) else BitVec.ofNat 64 (leNum b)

/-- The end of a read of a load: its bytes, or the first failure [05 R113, R115; 08 R193]. -/
def State.endLoad (s : State) (o : Op) (slot : Nat) (p : Piece) : State :=
  let x := s.slot slot
  match x.load with
  | none => s
  | some l =>
    let l1 := match o.failed with
      | some (_, f) => { l with err := some (l.err.getD f) }
      | none => { l with got := l.got ++ [{ p with b := o.bytes o.size }] }
    s.putSlot slot { x with load := some l1 }

/-- The end of a staging read: its bytes lie in the staging buffer, unless it failed or the buffer has gone to another image [05 R124]. -/
def State.endStage (s : State) (o : Op) (die place : Nat) (img : W32) (p : Piece) : State :=
  if o.failed.isSome then s
  else { s with wk := { s.wk with staged := s.wk.staged.map (fun x =>
    if x.die == die && x.pos == place && x.img == img then { x with pieces := x.pieces ++ [{ p with b := o.bytes o.size }] } else x) } }

/-- The end of a walker's read from a peer: its answer waits for the walker [05 R121, R123; 08 R182]. -/
def State.endWalkRead (s : State) (o : Op) (ten num : Nat) : State :=
  { s with wk := { s.wk with reads := s.wk.reads.map (fun x =>
    if x.ten == ten && x.num == num then
      (match o.failed with | some (_, f) => { x with bad := some f } | none => { x with data := some (o.bytes o.size) })
    else x) } }

/-- The end of a host window access at a peer: a read's bytes reach the host, a fault gives 0xFF bytes and a record [04 R79]. -/
def State.endBar2 (s : State) (o : Op) (vf : Nat) : State :=
  match o.failed with
  | some (_, f) =>
    let s1 := s.record (vf - 1) 0xFFFF 0xFFFF 0 0 f
    if o.kind == .read then { s1 with hostData := List.replicate o.size 0xFF#8 } else s1
  | none => if o.kind == .read then { s with hostData := o.bytes o.size } else s

/-- The end of a command's access to a peer: the command goes on with the bytes it asked for, its result written, or the fault
[04 R85, R95]. -/
def State.endCmd (s : State) (o : Op) (run : Nat) : State :=
  { s with hs := { s.hs with runs := s.hs.runs.map (fun r =>
    if r.id == run then
      (match o.failed with
        | some (_, f) => { r with stage := 0, bad := some f }
        | none => if o.kind == .read then { r with stage := 0, input := some (o.bytes o.size) } else { r with stage := 0, wrote := true })
    else r) } }

/-- The end of an operation. -/
def State.finishOp (s0 : State) (o : Op) : State :=
  let s := s0.dropOp o.id
  match o.who with
  | .ccLoad sl c t rd sx => s.endCc o sl c t rd (loadValue sx (o.bytes o.size))
  | .ccStore sl c t => s.endCc o sl c t 0 0
  | .ccAtomic sl c t rd => s.endCc o sl c t rd (loadValue true (o.bytes o.size))
  | .fire sl c el node x k kind num => s.finishFire o sl c el node x k kind num
  | .copyRec sl c ch => s.endCopyRec o sl c ch
  | .copySrc sl c ch num dst => s.endCopySrc o sl c ch num dst
  | .copyDst sl c ch num => s.endCopyDst o sl c ch num
  | .copyCtl _ _ _ => s
  | .spill _ _ _ => s
  | .refetch sl c g => s.endRefetch o sl c g
  | .load sl c off len pos => s.endLoad o sl ⟨c, off, len, pos, []⟩
  | .stage die place img c off len pos => s.endStage o die place img ⟨c, off, len, pos, []⟩
  | .walk ten num => s.endWalkRead o ten num
  | .bar2 vf => s.endBar2 o vf
  | .cmd run => s.endCmd o run

/-- Whether an operation has ended and may act: a gather access after those of its AE that issued before it, an MREST while no
broadcast to its ME is pending [06 R148; 08 R191]. -/
def State.mayFinish (s : State) (o : Op) : Bool :=
  o.parts.all (fun p => p.st.ended) &&
  (match o.who with
    | .fire sl c el _ _ _ k _ =>
      (match o.stream with
        | .gather _ => !(s.ms.ops.takeWhile (fun p => p.id != o.id)).any (fun p => p.stream == o.stream && p.ofAe sl c el)
        | _ => true) &&
      (match k with
        | .mrest _ => !(match s.region sl with
            | some r => (r.core c).mbcbPending el none
            | none => false) || o.orphan
        | _ => true)
    | _ => true)

/-- Every element and channel of a region carried forward; of a region in reset, the channels with records that have started [03 R70]. -/
def State.settleSlot (s : State) (slot : Nat) : State :=
  match s.region slot with
  | none => s
  | some r =>
    if !r.acts && (s.slot slot).reset.isNone then s
    else
      let s1 := if !r.acts then s else r.busyElems.foldl (fun s p => (s.settleAe slot p.1 p.2 256).settleXe slot p.1 p.2 256) s
      (r.cores.flatMap (fun p => (p.2.chans.filter (fun q => q.2.st == .walk || q.2.st == .drain)).map (fun q => (p.1, q.1)))).foldl
        (fun s p => s.settleChan slot p.1 p.2 64) s1

/-- Every region carried forward. -/
def State.settle (s : State) : State := (s.slots.map (fun p => p.1)).foldl (fun s i => s.settleSlot i) s

/-- What follows of itself: released accesses issue, operations are carried forward, and those that have ended act. -/
def State.runN (s : State) : Nat → State
  | 0 => s
  | n + 1 =>
    let s1 := s.settle.pump
    match s1.ms.ops.find? s1.mayFinish with
    | none => s1
    | some o => (s1.finishOp o).runN n

/-- What follows of itself after an event. -/
def State.run (s : State) : State := s.runN 4096

/-- An operation begun, and what follows. -/
def State.begin (s : State) (o : Op) : State := (s.startOp o).run

end Sys2Proof.Machine
end

