-- ==== Sys2Proof/Machine/AeNode.lean ====
section
/-! DEFINITION. Address-generator nodes [15 R372 to R377] and the ordering unit's release [08 R188, R189]. -/

namespace Sys2Proof.Machine

/-- The wave numbers of a literal A: OWN, PRED, SUCC [08 R187]. -/
def waveOwn (l : LitA) : BitVec 10 := l.wave.extractLsb' 20 10
/-- PRED. -/
def wavePred (l : LitA) : BitVec 10 := l.wave.extractLsb' 10 10
/-- SUCC. -/
def waveSucc (l : LitA) : BitVec 10 := l.wave.extractLsb' 0 10

/-- An entry of the ordering unit for a firing, numbered in firing order [08 R188]. -/
def Fire.access (f : Fire) (s : State) (l : LitA) (k : AccKind) (a : Word) (d : List Byte) : Access :=
  { kind := k, node := f.node, ctx := f.ctx, colour := f.colour, a := a, data := d, own := waveOwn l, pred := wavePred l, succ := waveSucc l,
    num := s.nextOp, waited := false }

/-- A firing's entry put into the ordering unit. -/
def Fire.order (f : Fire) (s : State) (a : Access) : State :=
  { (f.finish s).onAe f.slot f.core f.elem (fun x => { x with waiting := x.waiting ++ [a] }) with nextOp := s.nextOp + 1 }

/-- A firing that accesses no memory still passes its wave numbers, when its AE orders by waves [08 R189]. -/
def Fire.passWave (f : Fire) (s : State) (l : LitA) : State :=
  if f.e.waveOn then
    { s.onAe f.slot f.core f.elem (fun x => { x with waiting := x.waiting ++ [f.access s l .noop 0 []] }) with nextOp := s.nextOp + 1 }
  else s

/-- Whether an operation is an element request of an AE [08 R191]. -/
def Op.elementOf (o : Op) (slot core elem : Nat) : Bool :=
  match o.stream with
  | .gather _ => o.earlier slot core elem 7 (o.id + 1)
  | _ => false

/-- Element requests of an AE outstanding [08 R191]. -/
def State.elementsOut (s : State) (slot core elem : Nat) (e : Elem) : Nat :=
  ((e.ae.waiting ++ e.ae.ready).filter (fun a => a.kind.gathers)).length + (s.ms.ops.filter (fun o => o.elementOf slot core elem)).length

/-- Whether a memory firing of the focus may begin: room among the 64 firings that wait in the ordering unit, and for an element request fewer than 256
outstanding [08 R188, R191]. -/
def State.mayBegin (s : State) (gathers : Bool) : Bool :=
  match s.region s.focus.slot with
  | none => false
  | some r =>
    let e := r.elem s.focus.core s.focus.elem
    (e.ae.waiting.filter (fun a => !a.isBound)).length < 64 && (!gathers || s.elementsOut s.focus.slot s.focus.core s.focus.elem e < 256)

/-- A memory firing of an AE: NIL, EOS and FAULT operands pass as no-ops [08 R189; 15 R369]; an operand of a kind it does not
take faults before any access; else its access enters the ordering unit, and what follows of itself follows. -/
def State.aeFire (s : State) (h : NodeHd) (l : LitA) (gathers : Bool) (g : Fire → Option (AccKind × Word × List Byte)) : Out :=
  .next (if !s.mayBegin gathers then s
    else match s.startFiring h with
      | none => s
      | some (.normal, f) =>
        (match g f with
          | none => (f.passWave (f.opf s iPAYLOAD) l).run
          | some (k, a, d) => (f.open.order s (f.access s l k a d)).run)
      | some (.fault aux, f) => (f.bound (f.passWave ((f.emit (f.tok .fault aux .none) false).finish s) l)).run
      | some (.nil, f) => (f.bound (f.passWave ((f.emit (f.tok .nil 0 .none) false).finish s) l)).run
      | some (.eos, f) => (f.bound (f.passWave ((f.emit (f.tok .eos 0 .none) false).finish s) l)).run)

/-- The payload bytes of a data operand: a SCALAR, a row beat or a tile [15 R373]. -/
def Elem.dataBytes (e : Elem) (t : Token) : Option (List Byte) :=
  let u := e.zeroTok t
  match u.kind with
  | .scalar | .arow | .vrow | .tile => some u.bytes
  | _ => none

/-- ALOAD [15 R373]. -/
def execAload (h : NodeHd) (l : LitA) (s : State) : Out := s.aeFire h l false (fun _ => some (.aload l.opm, 0, []))

/-- ASTORE [15 R373]. -/
def execAstore (h : NodeHd) (l : LitA) (s : State) : Out :=
  s.aeFire h l false (fun f => (f.e.dataBytes f.a).map (fun d => (.astore, 0, d)))

/-- AGATH [15 R375]. -/
def execAgath (h : NodeHd) (l : LitA) (s : State) : Out :=
  s.aeFire h l true (fun f => if f.a.kind == .scalar then some (.agath l.opm, f.a.value, []) else none)

/-- ASCAT [15 R375]. -/
def execAscat (h : NodeHd) (l : LitA) (s : State) : Out :=
  s.aeFire h l true (fun f =>
    if f.a.kind == .scalar then (f.e.dataBytes f.b).map (fun d => (.ascat, f.a.value, d)) else none)

/-- WLD [15 R374]. -/
def execWld (h : NodeHd) (l : LitA) (s : State) : Out :=
  s.aeFire h l false (fun f => if f.a.kind == .scalar then some (.wld l.opm, f.a.value, []) else none)

/-- WST [15 R374]. -/
def execWst (h : NodeHd) (l : LitA) (s : State) : Out :=
  s.aeFire h l false (fun f =>
    if f.a.kind == .scalar && f.b.kind == .scalar then some (.wst l.opm, f.a.value, leOf (2 ^ l.opm.toNat) f.b.value.toNat) else none)

/-- ACFG: a CFG token with the layout word's number [15 R376]. -/
def execAcfg (h : NodeHd) (l : LitA) (s : State) : Out :=
  .next (s.fire h (fun f =>
    if f.a.kind == .scalar then (f.emit (f.tok .cfg (l.opm.setWidth 8) (.word f.a.value)) false).finish s else f.opf s iPAYLOAD)).run

/-- AEOS: one stream boundary, then an EOS, or the boundary count; an EOS operand does the same. It does not pass the ordering unit
[15 R372, R377]. -/
def execAeos (h : NodeHd) (l : LitA) (s : State) : Out :=
  let go (f : Fire) : State := (f.open.order s (f.access s l (.boundary (if l.opm == 0#2 then 1 else 2)) 0 [])).run
  .next (match s.startFiring h with
    | none => s
    | some (.fault aux, f) => (f.emit (f.tok .fault aux .none) false).finish s
    | some (.nil, f) => (f.emit (f.tok .nil 0 .none) false).finish s
    | some (.eos, f) => go f
    | some (.normal, f) => go f)

/-- WAVE_RELEASE: the ordering unit releases the next firing that may be released [08 R188]. -/
def execWaveRelease (slot core elem : Nat) (s : State) : Out := .next ((s.aeStep slot core elem).getD s).run

end Sys2Proof.Machine
end

