-- ==== Sys2Proof/Machine/CcAlu.lean ====
section
/-! DEFINITION. Integer arithmetic and immediate forms of the control core [12 R280, R281]. -/

namespace Sys2Proof.Machine

/-- An ALU instruction of two registers. -/
def State.alu (s : State) (d a b : BitVec 5) (lat : Nat) (op : Word → Word → Word) : Out :=
  s.cc (fun k => k.fixed s d lat (op (k.t.rd a) (k.t.rd b)))

/-- An instruction of a register and an extended immediate. -/
def State.aluImm (s : State) (d a : BitVec 5) (i : Word) (op : Word → Word → Word) : Out :=
  s.cc (fun k => k.fixed s d 2 (op (k.t.rd a) i))

/-- The high 64 bits of the signed product [12 R280]. -/
def mulhW (a b : Word) : Word := BitVec.ofInt 64 (a.toInt * b.toInt / 2 ^ 64)

/-- The high 64 bits of the unsigned product [12 R280]. -/
def mulhuW (a b : Word) : Word := BitVec.ofNat 64 (a.toNat * b.toNat / 2 ^ 64)

/-- ADD [12 R280]. -/
def execAdd (_h : CcHd) (d a b : BitVec 5) (s : State) : Out := s.alu d a b 2 (fun a b => a + b)
/-- SUB [12 R280]. -/
def execSub (_h : CcHd) (d a b : BitVec 5) (s : State) : Out := s.alu d a b 2 (fun a b => a - b)
/-- AND [12 R280]. -/
def execAnd (_h : CcHd) (d a b : BitVec 5) (s : State) : Out := s.alu d a b 2 (fun a b => a &&& b)
/-- OR [12 R280]. -/
def execOr (_h : CcHd) (d a b : BitVec 5) (s : State) : Out := s.alu d a b 2 (fun a b => a ||| b)
/-- XOR [12 R280]. -/
def execXor (_h : CcHd) (d a b : BitVec 5) (s : State) : Out := s.alu d a b 2 (fun a b => a ^^^ b)
/-- SLL [12 R280]. -/
def execSll (_h : CcHd) (d a b : BitVec 5) (s : State) : Out := s.alu d a b 2 (fun a b => a <<< (b.toNat % 64))
/-- SRL [12 R280]. -/
def execSrl (_h : CcHd) (d a b : BitVec 5) (s : State) : Out := s.alu d a b 2 (fun a b => a >>> (b.toNat % 64))
/-- SRA [12 R280]. -/
def execSra (_h : CcHd) (d a b : BitVec 5) (s : State) : Out := s.alu d a b 2 (fun a b => a.sshiftRight (b.toNat % 64))
/-- SLT [12 R280]. -/
def execSlt (_h : CcHd) (d a b : BitVec 5) (s : State) : Out := s.alu d a b 2 (fun a b => if a.slt b then 1 else 0)
/-- SLTU [12 R280]. -/
def execSltu (_h : CcHd) (d a b : BitVec 5) (s : State) : Out := s.alu d a b 2 (fun a b => if a.ult b then 1 else 0)
/-- MUL [12 R280]. -/
def execMul (_h : CcHd) (d a b : BitVec 5) (s : State) : Out := s.alu d a b 4 (fun a b => a * b)
/-- MULH [12 R280]. -/
def execMulh (_h : CcHd) (d a b : BitVec 5) (s : State) : Out := s.alu d a b 4 (fun a b => mulhW a b)
/-- MULHU [12 R280]. -/
def execMulhu (_h : CcHd) (d a b : BitVec 5) (s : State) : Out := s.alu d a b 4 (fun a b => mulhuW a b)
/-- MIN [12 R280]. -/
def execMin (_h : CcHd) (d a b : BitVec 5) (s : State) : Out := s.alu d a b 2 (fun a b => if b.slt a then b else a)
/-- MAX [12 R280]. -/
def execMax (_h : CcHd) (d a b : BitVec 5) (s : State) : Out := s.alu d a b 2 (fun a b => if a.slt b then b else a)
/-- ADDI [12 R281]. -/
def execAddi (_h : CcHd) (d a : BitVec 5) (i : BitVec 13) (s : State) : Out :=
  s.aluImm d a (i.signExtend 64) (fun a b => a + b)
/-- ANDI [12 R281]. -/
def execAndi (_h : CcHd) (d a : BitVec 5) (i : BitVec 13) (s : State) : Out :=
  s.aluImm d a (i.setWidth 64) (fun a b => a &&& b)
/-- ORI [12 R281]. -/
def execOri (_h : CcHd) (d a : BitVec 5) (i : BitVec 13) (s : State) : Out :=
  s.aluImm d a (i.setWidth 64) (fun a b => a ||| b)
/-- XORI [12 R281]. -/
def execXori (_h : CcHd) (d a : BitVec 5) (i : BitVec 13) (s : State) : Out :=
  s.aluImm d a (i.setWidth 64) (fun a b => a ^^^ b)
/-- SLLI [12 R281]. -/
def execSlli (_h : CcHd) (d a : BitVec 5) (i : BitVec 6) (s : State) : Out :=
  s.aluImm d a (i.setWidth 64) (fun a b => a <<< b.toNat)
/-- SRLI [12 R281]. -/
def execSrli (_h : CcHd) (d a : BitVec 5) (i : BitVec 6) (s : State) : Out :=
  s.aluImm d a (i.setWidth 64) (fun a b => a >>> b.toNat)
/-- SRAI [12 R281]. -/
def execSrai (_h : CcHd) (d a : BitVec 5) (i : BitVec 6) (s : State) : Out :=
  s.aluImm d a (i.setWidth 64) (fun a b => a.sshiftRight b.toNat)
/-- SLTI [12 R281]. -/
def execSlti (_h : CcHd) (d a : BitVec 5) (i : BitVec 13) (s : State) : Out :=
  s.aluImm d a (i.signExtend 64) (fun a b => if a.slt b then 1 else 0)
/-- SLTIU [12 R281]. -/
def execSltiu (_h : CcHd) (d a : BitVec 5) (i : BitVec 13) (s : State) : Out :=
  s.aluImm d a (i.signExtend 64) (fun a b => if a.ult b then 1 else 0)
/-- LUI: the sign-extended immediate times 2^13 [12 R281]. -/
def execLui (_h : CcHd) (d : BitVec 5) (i : BitVec 18) (s : State) : Out :=
  s.cc (fun k => k.fixed s d 2 (i.signExtend 64 <<< 13))

end Sys2Proof.Machine
end

