-- ==== Sys2Proof/Machine/Atomic.lean ====
section
/-! DEFINITION. Read-modify-write operations [12 R288; 15 R380]. -/

namespace Sys2Proof.Machine

/-- A number of `n` bytes read as signed. -/
def signedOf (n v : Nat) : Int := sInt (8 * n) v

/-- What an atomic writes from the old value and its operand, none for no write, and its flags: bit 0 a sum that rounded to
an infinity from finite operands, bit 1 a NaN that arose [12 R288; 15 R380]. -/
def AtomOp.eval (o : AtomOp) (n old v : Nat) : Option Nat × BitVec 2 :=
  let a := old % 2 ^ (8 * n)
  let b := v % 2 ^ (8 * n)
  match o with
  | .add => (some ((a + b) % 2 ^ (8 * n)), 0)
  | .swap => (some b, 0)
  | .cas c => (if c.toNat % 2 ^ (8 * n) == a then some b else none, 0)
  | .max => (some (if signedOf n a < signedOf n b then b else a), 0)
  | .min => (some (if signedOf n b < signedOf n a then b else a), 0)
  | .fadd =>
    let (y, fl) := add32 (BitVec.ofNat 32 a) (BitVec.ofNat 32 b)
    (some y.toNat, (if fl &&& flFOVF != 0#32 then 1#2 else 0#2) ||| (if fl &&& flFNAN != 0#32 then 2#2 else 0#2))
  | .fmax => (some ((toF32 rne (maxF (f32 (BitVec.ofNat 32 a)) (f32 (BitVec.ofNat 32 b)))).1.toNat), 0)
  | .and => (some (a &&& b), 0)
  | .or => (some (a ||| b), 0)

end Sys2Proof.Machine
end

