-- ==== Sys2Proof/Machine/CcMem.lean ====
section
/-! DEFINITION. Loads, stores, atomics and fences of the control core [12 R277, R278, R282, R283, R288 to R291]. -/

namespace Sys2Proof.Machine

/-- The stream of a core's control-core port. -/
def Cc.stream (k : Cc) : Stream := .cc k.slot k.core

/-- A tenant access begun: the thread blocks until it ends [12 R278]. -/
def Cc.access (k : Cc) (s : State) (who : Who) (kind : OpKind) (data : List Byte) (a : Word) (n : Nat) : State :=
  (k.put s { k.t with st := .block (.op s.nextOp) }).begin (mkOp who k.stream k.r.ten kind data (rangeParts a n) apAll)

/-- A load of `n` bytes: MISALIGN, then a buffer, whose data returns 4 clk after the grant, or tenant memory
[12 R277, R278, R282]. -/
def State.load (s : State) (d a : BitVec 5) (i : BitVec 13) (n : Nat) (sx : Bool) : Out :=
  s.cc (fun k =>
    let va := k.t.rd a + i.signExtend 64
    if va.toNat % n != 0 then k.trap s trMISALIGN va
    else if isWindow va then
      match k.r.window va n with
      | none => k.trap s trLACCESS va
      | some (b, off) =>
        let (s1, v) := s.bufReadAs k.stream k.thr k.slot k.core b off n
        k.put s1 { (k.t.wr d (k.c.clk + 4) (loadValue sx v)).advance with st := .block (.till (k.c.clk + 4)) }
    else k.access s (.ccLoad k.slot k.core k.thr d sx) .read [] va n)

/-- A store of the low `n` bytes of a register: a buffer at once, or tenant memory [12 R277, R278, R283]. -/
def State.store (s : State) (b a : BitVec 5) (i : BitVec 13) (n : Nat) : Out :=
  s.cc (fun k =>
    let va := k.t.rd a + i.signExtend 64
    let data := leOf n (k.t.rd b).toNat
    if va.toNat % n != 0 then k.trap s trMISALIGN va
    else if isWindow va then
      match k.r.window va n with
      | none => k.trap s trLACCESS va
      | some (j, off) => k.put (s.ccBufStore k j off data) k.t.advance
    else k.access s (.ccStore k.slot k.core k.thr) .write data va n)

/-- LD1 [12 R282]. -/
def execLd1 (_h : CcHd) (d a : BitVec 5) (i : BitVec 13) (s : State) : Out := s.load d a i 1 true
/-- LD2 [12 R282]. -/
def execLd2 (_h : CcHd) (d a : BitVec 5) (i : BitVec 13) (s : State) : Out := s.load d a i 2 true
/-- LD4 [12 R282]. -/
def execLd4 (_h : CcHd) (d a : BitVec 5) (i : BitVec 13) (s : State) : Out := s.load d a i 4 true
/-- LD8 [12 R282]. -/
def execLd8 (_h : CcHd) (d a : BitVec 5) (i : BitVec 13) (s : State) : Out := s.load d a i 8 false
/-- LD1Z [12 R282]. -/
def execLd1z (_h : CcHd) (d a : BitVec 5) (i : BitVec 13) (s : State) : Out := s.load d a i 1 false
/-- LD2Z [12 R282]. -/
def execLd2z (_h : CcHd) (d a : BitVec 5) (i : BitVec 13) (s : State) : Out := s.load d a i 2 false
/-- LD4Z [12 R282]. -/
def execLd4z (_h : CcHd) (d a : BitVec 5) (i : BitVec 13) (s : State) : Out := s.load d a i 4 false
/-- ST1 [12 R283]. -/
def execSt1 (_h : CcHd) (b a : BitVec 5) (i : BitVec 13) (s : State) : Out := s.store b a i 1
/-- ST2 [12 R283]. -/
def execSt2 (_h : CcHd) (b a : BitVec 5) (i : BitVec 13) (s : State) : Out := s.store b a i 2
/-- ST4 [12 R283]. -/
def execSt4 (_h : CcHd) (b a : BitVec 5) (i : BitVec 13) (s : State) : Out := s.store b a i 4
/-- ST8 [12 R283]. -/
def execSt8 (_h : CcHd) (b a : BitVec 5) (i : BitVec 13) (s : State) : Out := s.store b a i 8

/-- An atomic: in a buffer at its port in one grant, elsewhere at its memory, with its semantics at its place
[09 R209, R212, R216, R217; 12 R288, R289]. -/
def State.atomic (s0 : State) (d a b : BitVec 5) (e o : BitVec 3) (z : BitVec 2) (op : Word → AtomOp) : Out :=
  s0.cc (fun k =>
    let n := 2 ^ z.toNat
    let va := k.t.rd a
    let v := (k.t.rd b).toNat % 2 ^ (8 * n)
    let f := op (k.t.rd d)
    let s := s0.setSem k.id (if e == 0#3 then none else some (e, o.toNat))
    if va.toNat % n != 0 then k.trap s0 trMISALIGN va
    else if isWindow va then
      match k.r.window va n with
      | none => k.trap s0 trLACCESS va
      | some (j, off) =>
        let old := leNum (s.bufRead k.slot k.core j off n)
        let s1 := s.ccAtomicRead k.id j off n
        let s2 := match (f.eval n old v).1 with
          | some w => s1.ccBufAtomic k j off (leOf n w) (s1.ownRel k.id)
          | none => s1.fillStage k.stream k.thr j off (leOf n old)
        k.put (s2.endSem k.id) { (k.t.wr d (k.c.clk + 4) (sext64 (8 * n) old)).advance with st := .block (.till (k.c.clk + 4)) }
    else k.access s (.ccAtomic k.slot k.core k.thr d) (.atomic f) (leOf n v) va n)

/-- AMADD [12 R288]. -/
def execAmadd (_h : CcHd) (d a b : BitVec 5) (e o : BitVec 3) (z : BitVec 2) (s : State) : Out := s.atomic d a b e o z (fun _ => .add)
/-- AMSWP [12 R288]. -/
def execAmswp (_h : CcHd) (d a b : BitVec 5) (e o : BitVec 3) (z : BitVec 2) (s : State) : Out := s.atomic d a b e o z (fun _ => .swap)
/-- AMCAS: compares the low bytes of RD [12 R288]. -/
def execAmcas (_h : CcHd) (d a b : BitVec 5) (e o : BitVec 3) (z : BitVec 2) (s : State) : Out := s.atomic d a b e o z (fun c => .cas c)
/-- AMMAX [12 R288]. -/
def execAmmax (_h : CcHd) (d a b : BitVec 5) (e o : BitVec 3) (z : BitVec 2) (s : State) : Out := s.atomic d a b e o z (fun _ => .max)
/-- AMMIN [12 R288]. -/
def execAmmin (_h : CcHd) (d a b : BitVec 5) (e o : BitVec 3) (z : BitVec 2) (s : State) : Out := s.atomic d a b e o z (fun _ => .min)

/-- FENCE: every earlier access of the thread is performed, since it blocked for it; what it orders is that of its semantics and scope. It
completes in 2 clk [09 R209, R211, R212, R217; 12 R290]. -/
def execFence (_h : CcHd) (e o : BitVec 3) (s : State) : Out :=
  s.cc (fun k =>
    k.put (s.fenceCc k.id e o.toNat) { k.t.advance with st := .block (.till (k.c.clk + 2)) })

/-- XFENCE: every access that happens before it is performed; the staging of the destination path is marked stale for what happens after it
[09 R214; 12 R291]. -/
def execXfence (_h : CcHd) (_p q _o : BitVec 3) (s : State) : Out := s.cc (fun k => k.answer (s.crossFence k.id q.toNat) 0 0)

end Sys2Proof.Machine
end

