-- ==== Sys2Proof/Machine/EcwCheck.lean ====
section
/-! DEFINITION. The check of an element's configuration words [06 R135, R136, R138, R140]. -/

namespace Sys2Proof.Machine

/-- What the check of a block knows beside the words: the element, its rounded NPOOL, whether it holds AGATH or ASCAT
records, which elements of the core are used, deterministic mode. -/
structure EcwEnv where
  elem   : Nat
  npool  : Nat
  gather : Bool
  used   : Nat → Bool
  det    : Bool

/-- The group of a format: 32, 16, 8 or 4 bits [06 R136]. -/
def fmtGroup (c : Nat) : Nat := fmtBits c

/-- Formats that go together, and block scales only for narrow floats [06 R136]. -/
def ecw1Ok (w : Nat) : Bool :=
  let a := bitsAt w 28 4
  let b := bitsAt w 24 4
  let blk := bitsAt w 22 2
  bitsAt w 0 15 == 0 && fmtGroup a == fmtGroup b && fmtFloat a == fmtFloat b && blk != 3 &&
    (blk == 0 || (fmtFloat a && fmtGroup a ≤ 8))

/-- The check of the sixteen words, LCOL taken as 0 [06 R140]. -/
def ecwOk (v : EcwEnv) (ecw : Table W32) : Bool :=
  let w (i : Nat) : Nat := (tget ecw 0#32 i).toNat
  let cls := elemClass v.elem
  let w6 := w 6
  bitsAt (w 0) 29 3 == cls && bitsAt (w 0) 22 6 == 0 && bitsAt (w 0) 16 6 == 0 && bitsAt (w 0) 0 8 == 0 &&
  (if cls == 0 then ecw1Ok (w 1) else w 1 == 0) &&
  (cls ≤ 2 || (w 2 == 0 && w 3 == 0)) &&
  w 4 / 2 ^ 12 == 0 && 2 ≤ w 4 && w 4 ≤ 2048 && w 4 ≤ v.npool &&
  (cls == 1 || w 5 == 0) &&
  (match cls with
    | 0 | 1 => w6 / 2 == 0
    | 3 => w6 / 2 ^ 9 == 0 && bitsAt w6 3 1 == 0 && bitsAt w6 7 1 == 0 &&
        (bitsAt w6 0 3 != 7 || v.used (56 + bitsAt w6 4 3)) && (3 ≤ bitsAt w6 0 3 || !v.gather)
    | _ => w6 == 0) &&
  (if 3 ≤ cls then w 7 / 2 ^ 16 == 0 else w 7 == 0) &&
  (cls ≤ 1 || (List.range 8).all (fun i => w (8 + i) == 0))

/-- In a DET image a VE may not allow stochastic rounding [05 R130; 06 R140]. -/
def sreOk (v : EcwEnv) (ecw : Table W32) : Bool := !(v.det && elemClass v.elem == 1 && (tget ecw 0#32 6).toNat % 2 == 1)

/-- Whether a record is an AGATH or ASCAT. -/
def recGather (r : BitVec 96) : Bool := r.toNat / 2 ^ 87 == 0x142 || r.toNat / 2 ^ 87 == 0x143

/-- What the check knows of an element of a running region. -/
def Region.ecwEnv (r : Region) (core elem : Nat) : EcwEnv :=
  let e := r.elem core elem
  { elem := elem, npool := e.npool, gather := e.recs.any (fun p => p.1 < e.nrec && recGather p.2),
    used := fun i => (r.elem core i).used, det := r.det }

/-- Whether a word that CFGW writes is accepted: no RO field of ECW0 changes, and the block passes its check [06 R141]. -/
def Region.cfgwOk (r : Region) (core elem n : Nat) (v : W32) : Bool :=
  let e := r.elem core elem
  let old := (tget e.ecw 0#32 0).toNat
  let x := v.toNat
  let ro := n != 0 || (bitsAt x 22 6 == bitsAt old 22 6 && bitsAt x 16 6 == bitsAt old 16 6 && bitsAt x 0 8 == bitsAt old 0 8)
  let noL (w : W32) : W32 := w &&& ~~~0x0FC00000#32
  let ecw := tset (tset e.ecw 0 (noL (tget e.ecw 0#32 0))) n (if n == 0 then noL v else v)
  ro && ecwOk (r.ecwEnv core elem) ecw && sreOk (r.ecwEnv core elem) ecw

end Sys2Proof.Machine
end

