-- ==== Sys2Proof/Machine/Mesh.lean ====
section
/-! DEFINITION. The links that tokens pass and their flit credit [06 R149; 07 R167] (log 49). -/

namespace Sys2Proof.Machine

/-- A link input with flit slots of its own [06 R149; 07 R167]: where a core's control core enters its mesh, a mesh link between two
elements of a core (by die and core position), a router input between two cores of a die, a direction of a UCIe boundary for a slot's region. -/
inductive Link where
  | entry (die pos : Nat)
  | mesh (die pos a b : Nat)
  | router (die a b : Nat)
  | ucie (slot a b : Nat)
deriving DecidableEq, Repr

/-- The flit slots of a link input [07 R167]. -/
def Link.slots : Link → Nat
  | .entry _ _ | .mesh _ _ _ _ => 64
  | .router _ _ _ => 128
  | .ucie _ _ _ => 256

/-- The next place toward `b` on a grid `w` wide, along the row first [06 R149]. -/
def gridStep (w b a : Nat) : Nat :=
  if a % w < b % w then a + 1 else if b % w < a % w then a - 1 else if a / w < b / w then a + w else a - w

/-- The hops from `a` to `b` on a grid, at most the given number [06 R149]. -/
def gridPath (w b : Nat) : Nat → Nat → List (Nat × Nat)
  | 0, _ => []
  | n + 1, a => if a == b then [] else (a, gridStep w b a) :: gridPath w b n (gridStep w b a)

/-- The UCIe boundaries between two dies, by way of h (die 4) between opposite ones [01 R10]. -/
def dieLinks (slot a b : Nat) : List Link :=
  if (a + 2) % 4 == b % 4 then [.ucie slot a 4, .ucie slot 4 b] else [.ucie slot a b]

/-- The links between two cores of a region [01 R10; 07 R167]. -/
def corePath (slot : Nat) (a b : Core) : List Link :=
  if a.die == b.die then (gridPath 8 b.pos 12 a.pos).map (fun p => .router a.die p.1 p.2)
  else .router a.die a.pos a.pos :: dieLinks slot a.die b.die ++ [.router b.die b.pos b.pos]

/-- The links of a token's path; none between nodes of one element [07 R167]. -/
def Region.pathOf (r : Region) (slot : Nat) (f : Flight) : List Link :=
  let tc := f.tok.core.toNat
  match f.arc with
  | .node c e _ _ =>
    let src := r.core c
    if c == tc then (gridPath 8 f.tok.elem.toNat 14 e).map (fun p => .mesh src.die src.pos p.1 p.2) else corePath slot src (r.core tc)
  | .inject c _ _ _ =>
    let src := r.core c
    .entry src.die src.pos :: (if c == tc then [] else corePath slot src (r.core tc))

/-- The flits of a token: 32 bytes of payload each, the header beside the first [07 R167]. -/
def Token.flits (t : Token) : Nat := let n := (t.bytes.length + 31) / 32; if n == 0 then 1 else n

/-- The flits that a region's tokens hold at a link. -/
def Region.flitsAt (r : Region) (slot : Nat) (l : Link) : Nat :=
  (r.flight.filter (fun f => f.entered && (r.pathOf slot f)[f.hop]? == some l)).foldl (fun n f => n + f.tok.flits) 0

/-- The tokens of a region that have yet to enter the first link of their path, where it is this one. -/
def Region.queuedAt (r : Region) (slot : Nat) (l : Link) : Nat :=
  (r.flight.filter (fun f => !f.entered && (r.pathOf slot f).head? == some l)).length

/-- A sum over the regions of the machine. -/
def State.overRegions (s : State) (g : Nat → Region → Nat) : Nat :=
  s.slots.foldl (fun n p => n + (match p.2.region with | some r => g p.1 r | none => 0)) 0

/-- The free flit slots of a link [07 R167]. -/
def State.room (s : State) (l : Link) : Nat := l.slots - s.overRegions (fun slot r => r.flitsAt slot l)

/-- The flit slots of a link that a new token may take: the free ones, less one for each token that waits to enter [07 R167]. -/
def State.credit (s : State) (l : Link) : Nat := s.room l - s.overRegions (fun slot r => r.queuedAt slot l)

/-- Whether every token that is put on its arc has credit for its first flit [07 R167]. -/
def State.hasCredit (s : State) (r : Region) (slot : Nat) (fs : List Flight) : Bool :=
  let ls := fs.filterMap (fun f => (r.pathOf slot f).head?)
  ls.all (fun l => (ls.filter (· == l)).length ≤ s.credit l)

/-- Whether every flit of a token can be sent, or fills its first link [12 R299, R300]. -/
def State.mayEnter (s : State) (r : Region) (slot : Nat) (f : Flight) : Bool :=
  match (r.pathOf slot f).head? with
  | none => true
  | some l => (if f.tok.flits < l.slots then f.tok.flits else l.slots) ≤ s.credit l

/-- The number of links of its path that a token has entered. -/
def Flight.place (f : Flight) : Nat := if f.entered then f.hop + 1 else 0

/-- Whether a token has room at every link that it has yet to enter. -/
def State.mayArrive (s : State) (r : Region) (slot : Nat) (f : Flight) : Bool :=
  ((r.pathOf slot f).drop f.place).all (fun l => 0 < s.room l)

/-- A token moves into the next link of its path, behind the earlier tokens of its arc [06 R149; 07 R167, R173]. -/
def State.hopToken (s : State) (slot idx : Nat) : State :=
  match s.region slot with
  | none => s
  | some r =>
    match r.flight[idx]? with
    | none => s
    | some f =>
      match (r.pathOf slot f)[f.place]? with
      | some l =>
        if s.room l == 0 || (r.flight.take idx).any (fun g => g.arc == f.arc && g.place ≤ f.place) then s
        else s.putRegion slot ({ r with flight := lset r.flight idx { f with entered := true, hop := f.place } } : Region).alive
      | none => s

end Sys2Proof.Machine
end

