-- ==== Sys2Proof/Machine/Purge.lean ====
section
/-! DEFINITION. Purge by colour [07 R176, R177; 08 R189; 09 R223; 13 R319; 14 R357; 15 R371]. -/

namespace Sys2Proof.Machine

/-- The colours of the virtual zeros that a token in flight carries [07 R180]. -/
def Token.zeroColours (t : Token) : List (BitVec 8) :=
  ((List.range t.skip.toNat).map (fun i => t.colour - BitVec.ofNat 8 (t.skip.toNat - i))) ++ (if t.kind == .zero then [t.colour] else [])

/-- Whether a token belongs to a colour and is removed with it: not sticky, not a marker. -/
def Token.ofColour (t : Token) (c : BitVec 8) : Bool := t.colour == c && t.act != 1#2 && t.kind != .marker

/-- A virtual zero as a token of its own on an arc. -/
def zeroFlight (f : Flight) (k : BitVec 8) : Flight := { f with tok := { f.tok with kind := .zero, act := 0, colour := k, skip := 0, aux := 0, pay := .none } }

/-- A token in flight without what belongs to a colour: what stays, and the number removed.  A token that carries virtual
zeros of the colour leaves its other virtual zeros as tokens of their own. -/
def Flight.purge (f : Flight) (c : BitVec 8) : List Flight × Nat :=
  let t := f.tok
  let zs := t.zeroColours
  if t.kind == .marker || (!zs.contains c && !t.ofColour c) then ([f], 0)
  else
    let keep := (zs.filter (· != c)).map (zeroFlight f)
    let own := t.kind != .zero && !t.ofColour c
    (keep ++ (if own then [{ f with tok := { t with skip := 0 } }] else []),
      (zs.filter (· == c)).length + (if t.kind != .zero && t.ofColour c then 1 else 0))

/-- A list without the entries of a test, and how many there were. -/
def dropCount (p : α → Bool) (l : List α) : List α × Nat := (l.filter (fun x => !p x), (l.filter p).length)

/-- The skip entries of an element that cover a colour removed: the tokens of the other colours they cover, and the number of
elided tiles of the colour [07 R179]. -/
def Elem.purgeSkips (e : Elem) (core elem : Nat) (c : BitVec 8) : Elem × List Flight × Nat :=
  let covers (k : Skip) : Bool := (k.last - c).toNat < k.cnt
  let hit := e.skips.filter covers
  let fl := hit.flatMap (fun k =>
    let h := recHd (e.rec_ k.node)
    let d := if k.which == 0 then h.d0 else h.d1
    (((List.range k.cnt).map (fun i => k.last - BitVec.ofNat 8 (k.cnt - 1 - i))).filter (· != c)).map (fun v =>
      ({ arc := .node core elem k.node k.which, sender := core, tok := (Token.mk0 .zero k.ctx v 0 .none).to d } : Flight)))
  ({ e with skips := e.skips.filter (fun k => !covers k) }, fl, hit.length)

/-- The address generator without a colour: waiting and released accesses go, boundaries stay and emit nothing, layout words
go, its wave has ended [08 R189; 15 R371]. -/
def AeSt.purge (a : AeSt) (x : Option (BitVec 12)) (c : BitVec 8) : AeSt × Nat :=
  let mine (y : Access) : Bool := y.colour == c
  let counted (y : Access) : Bool := mine y && (match y.kind with | .noop => false | .boundary n => n != 0 | _ => true)
  let n := (a.waiting.filter counted).length + (a.ready.filter mine).length
  let (q, m) := dropCount (fun (w : LayoutWord) => match w.tag with | some (_, k) => k == c | none => false) a.queue
  let ws := a.waves.filter (fun w => w.colour != c)
  ({ a with
      waiting := (a.waiting.filter (fun y => !(mine y) || y.isBound)).map (fun y => if mine y then { y with kind := .boundary 0 } else y),
      ready := a.ready.filter (fun y => !mine y), queue := q,
      waves := match x with
        | some x => ws ++ [⟨x, c, 1023, 1022, true⟩]
        | none => ws }, n + m)

/-- Whether an exchange operation has issued: its access is in the memory system, or its launch is at the sequencer [15 R371, R388]. -/
def XOp.issued (o : XOp) : Bool := o.op.isSome || (match o.kind with | .claunch _ => true | _ => false)

/-- The exchange operations of a colour: those not issued are withdrawn, those issued are orphaned [15 R371]. -/
def XeSt.purge (x : XeSt) (c : BitVec 8) : XeSt × Nat :=
  let mine (o : XOp) : Bool := o.colour == c && !o.orphan
  let ends (q : SendStream) : Bool := q.busy.any (fun b => b == c) && !q.orphan
  ({ x with
      ops := (x.ops.filter (fun o => !(mine o && !o.issued))).map (fun o => if mine o then { o with orphan := true } else o),
      sends := x.sends.map (fun q => if ends q then { q with orphan := true } else q) },
   (x.ops.filter mine).length + (x.sends.filter ends).length)

/-- An element without a colour: held tokens and virtual zeros, activations, held arrivals, accesses [07 R176]. -/
def Elem.purge (e0 : Elem) (core elem : Nat) (x : Option (BitVec 12)) (c : BitVec 8) : Elem × List Flight × Nat :=
  let (e, fl, n0) := e0.purgeSkips core elem c
  let (pool, n1) := dropCount (fun (y : Held) => y.tok.ofColour c) e.pool
  let (vz, n2) := dropCount (fun (z : VZero) => z.colour == c) e.vzeros
  let (lp, n3) := dropCount (fun (a : LoopAct) => a.k == c) e.loops
  let held (b : BarHeld) : Bool := b.tok.colour == c && !b.orphan
  let (ae, n4) := e.ae.purge x c
  let (xe, n5) := e.xe.purge c
  ({ e with pool := pool, vzeros := vz, loops := lp, barv := e.barv.map (fun b => if held b then { b with orphan := true } else b),
            ae := ae, xe := xe }, fl, n0 + n1 + n2 + n3 + n4 + n5 + (e.barv.filter held).length)

/-- A core without a colour. -/
def Core.purge (k : Core) (core : Nat) (x : Option (BitVec 12)) (c : BitVec 8) : Core × List Flight × Nat :=
  let es := k.elems.map (fun p => (p.1, p.2.purge core p.1 x c))
  let (ta, n1) := dropCount (fun (y : Spilled) => y.tok.ofColour c) k.talon
  let (re, n2) := dropCount (fun (y : Spilled) => y.tok.ofColour c) k.refetch
  let mine (b : Mbcb) : Bool := b.colour == c && !b.orphan
  ({ k with elems := es.map (fun p => (p.1, p.2.1)), talon := ta, refetch := re,
            mbcb := k.mbcb.map (fun b => if mine b then { b with orphan := true } else b),
            counts := tdel k.counts c.toNat },
   es.flatMap (fun p => p.2.2.1), es.foldl (fun n p => n + p.2.2.2) 0 + n1 + n2 + (k.mbcb.filter mine).length)

/-- Whether an operation in progress belongs to a colour of a slot. -/
def Op.ofColour (o : Op) (slot : Nat) (c : BitVec 8) : Bool :=
  match o.who with
  | .fire sl _ _ _ _ k _ _ => sl == slot && k == c && !o.orphan
  | _ => false

/-- Whether an operation belongs to an exchange operation, which counts it. -/
def Op.exchange (o : Op) : Bool :=
  match o.stream with
  | .xe _ _ _ => true
  | _ => false

/-- Whether nothing of an operation has issued. -/
def Op.unissued (o : Op) : Bool := o.parts.all (fun p => p.st.pending)

/-- A core whose exchange operations with a dropped memory operation are gone. -/
def Core.dropDead (k : Core) (ids : List Nat) : Core :=
  { k with elems := k.elems.map (fun p => (p.1, { p.2 with xe := { p.2.xe with
      ops := p.2.xe.ops.filter (fun o => !(match o.op with | some i => ids.contains i | none => false)) } })) }

/-- PURGE of a colour [07 R176]; of one that is not live, or has finished, nothing is removed [12 R302]; ZERO flits that it sends are tokens that move
[07 R173, R179]: the state, and the number of tokens and operations removed. -/
def State.purge (s : State) (slot : Nat) (c : BitVec 8) : State × Nat :=
  match s.region slot with
  | none => (s, 0)
  | some r =>
    if !r.isLive c || (r.done.contains c && r.sum c == 0) then (s, 0)
    else
      let x := r.owner c
      let fs := r.flight.map (fun f => f.purge c)
      let cs := r.cores.map (fun p => (p.1, p.2.purge p.1 x c))
      let mine := s.ms.ops.filter (fun o => o.ofColour slot c)
      let dead := (mine.filter Op.unissued).map (fun o => o.id)
      let qw := s.wk.qwaits.filter (fun (w : QWait) =>
        !(!w.push && w.slot == slot && (r.elem w.core w.unit).xe.ops.any (fun o => o.num == w.num && o.colour == c)))
      let n := fs.foldl (fun n p => n + p.2) 0 + cs.foldl (fun n p => n + p.2.2.2) 0 + (mine.filter (fun o => !o.exchange)).length
      let r1 := { r with
        flight := fs.flatMap (fun p => p.1) ++ cs.flatMap (fun p => p.2.2.1), cores := cs.map (fun p => (p.1, p.2.1.dropDead dead)),
        done := if r.done.contains c then r.done else r.done ++ [c],
        purged := if r.purged.contains c then r.purged else r.purged ++ [c], snap := r.snap.filter (fun p => p.1 != c) }
      let s1 := s.putRegion slot (if cs.any (fun p => !p.2.2.1.isEmpty) then r1.alive else r1)
      let s2 := { s1 with wk := { s1.wk with qwaits := qw } }
      let s3 := s2.withMs (fun m => { m with
        ops := (m.ops.filter (fun o => !dead.contains o.id)).map (fun o => if o.ofColour slot c then { o with orphan := true } else o) })
      (s3, n)

/-- Every live colour purged in turn [05 R114]. -/
def State.purgeAll (s : State) (slot : Nat) : State :=
  match s.region slot with
  | none => s
  | some r => ((List.range r.live).map (fun i => r.lead + BitVec.ofNat 8 i)).foldl (fun s c => (s.purge slot c).1) s

end Sys2Proof.Machine
end

