-- ==== Sys2Proof/Machine/CcElem.lean ====
section
/-! DEFINITION. Control-core commands to elements and injection [06 R141 to R143; 12 R292 to R304]. -/

namespace Sys2Proof.Machine

/-- The element that a command names: its core and element, or the trap value of LACCESS [12 R292]. -/
def Cc.target (k : Cc) (v : Word) (cls : Option Nat) : Except Word (Nat × Nat) :=
  let e := bitsAt v.toNat 0 12
  let c := e / 64
  let i := e % 64
  if c < k.r.ncore && (k.r.elem c i).used && (match cls with | some n => elemClass i == n | none => true) then .ok (c, i)
  else .error (BitVec.ofNat 64 e)

/-- A command to an element: LACCESS, or what it does. -/
def Cc.command (k : Cc) (s : State) (v : Word) (cls : Option Nat) (g : Nat → Nat → Elem → State) : State :=
  match k.target v cls with
  | .error e => k.trap s trLACCESS e
  | .ok (c, i) => g c i (k.r.elem c i)

/-- The answer of a unit that has changed the state: it reaches the issuing thread. -/
def State.answerTo (s : State) (k : Cc) (rd : BitVec 5) (v : Word) : State :=
  s.putThread k.slot k.core k.thr ((s.thread k.slot k.core k.thr).answer k.c.clk rd v)

/-- What GLOAD reads of an element [12 R293]; none for an item above 0x23. -/
def Elem.gload (e : Elem) (item : Nat) : Option Word :=
  if item < 0x10 then some ((e.const item).setWidth 64)
  else if item < 0x20 then some (BitVec.ofNat 64 (e.w (item - 0x10)))
  else match item with
    | 0x20 => some (e.estat.setWidth 64)
    | 0x21 => some (BitVec.ofNat 64 e.entries)
    | 0x22 => some (BitVec.ofNat 64 e.pendK.length)
    | 0x23 => some (BitVec.ofNat 64 e.markers.length)
    | _ => none

/-- GLOAD [12 R293]. -/
def execGload (_h : CcHd) (d a : BitVec 5) (f : BitVec 8) (s : State) : Out :=
  s.cc (fun k =>
    if 0x24 ≤ f.toNat then k.illegal s
    else k.command s (k.t.rd a) none (fun _ _ e => k.answer s d ((e.gload f.toNat).getD 0)))

/-- CLRSET: ESTAT read, and the named flags cleared [12 R294]. -/
def execClrset (_h : CcHd) (d a b : BitVec 5) (s : State) : Out :=
  s.cc (fun k => k.command s (k.t.rd a) none (fun c i e =>
    (s.onRegion k.slot (fun r => r.putElem c i { e with estat := e.estat &&& ~~~((k.t.rd b).setWidth 13 |>.setWidth 32) })).answerTo k d
      (e.estat.setWidth 64)))

/-- Whether a meld reduction of a tenant runs: its route is entered and the end of its output has not come [05 R128]. -/
def State.reducing (s : State) (ten : Nat) (red : BitVec 16) : Bool :=
  s.fb.routes.any (fun x => x.ten.toNat == ten && x.red == red && !x.isOver)

/-- Whether an operand waits at an SMSEND node of a send stream [15 R385]. -/
def Elem.sendWaits (e : Elem) (y : SendStream) : Bool :=
  e.pool.any (fun x => match decodeOp (e.rec_ x.tok.node.toNat).toNat with
    | .ok (.smsend _ l) => l.red == y.red && l.lin == y.lin
    | _ => false)

/-- Whether a wait that suspends detection is in progress: a QPOP on an open queue, an exchange operation on an instance of the region or on a
reduction that runs here, a send that waits for packet credit or for the acknowledgement of its end packet [05 R103, R128]. -/
def State.suspended (s : State) (slot : Nat) (r : Region) : Bool :=
  s.wk.qwaits.any (fun w => !w.push && w.slot == slot) ||
  r.cores.any (fun p => p.2.elems.any (fun q =>
    q.2.xe.ops.any (fun o => !o.orphan && (match o.kind with
      | .smrecv red _ => s.reducing r.ten red
      | .crecv cl => s.fb.colls.any (fun k => k.ten == r.ten && k.num == cl.toNat && k.running.any (fun i => i.region == slot))
      | _ => false)) ||
    q.2.xe.sends.any (fun x => !x.orphan && s.reducing r.ten x.red && (x.busy.isSome || (x.full && q.2.sendWaits x)))))

/-- Whether a region's idle count holds at zero: a wait of R128 in progress, or a region that is not in RUN [07 R173]. -/
def State.countHeld (s : State) (slot : Nat) (r : Region) : Bool := s.suspended slot r || !r.running || (s.slot slot).st != 2#8

/-- The idle count of a region in clk [07 R173]. -/
def State.idleCount (s : State) (slot : Nat) (r : Region) : Nat := if s.countHeld slot r then 0 else r.now - r.idleAt

/-- Time comes to a ns: every region stands at it, and an idle count that is held starts anew [00 R1; 07 R173]. -/
def State.setTime (s : State) (t : Nat) : State :=
  { s with time := t, slots := s.slots.map (fun p => (p.1, { p.2 with region := p.2.region.map (fun r =>
      let r1 := r.atTime t
      if s.countHeld p.1 r1 then r1.restart else r1) })) }

/-- LIVE as a residency report counts it, and the other retirement items [12 R295]. -/
def State.dlqItem (s : State) (k : Cc) (item : Nat) (a : Word) : Word :=
  match item with
  | 0 => let n := s.idleCount k.slot k.r; BitVec.ofNat 64 (if n < 2 ^ 32 then n else 2 ^ 32 - 1)
  | 1 => BitVec.ofNat 64 (k.r.lead.toNat + k.r.next.toNat * 2 ^ 8 + k.r.live % 256 * 2 ^ 16 + k.r.l % 256 * 2 ^ 24)
  | 2 => let c : BitVec 8 := a.setWidth 8; if k.r.isLive c then BitVec.ofInt 64 (k.r.sum c) else 0
  | _ => BitVec.ofNat 64 k.c.talonUsed

/-- DLQ [12 R295]: RA must be 0 but for item 2. -/
def execDlq (_h : CcHd) (d a : BitVec 5) (f : BitVec 2) (s : State) : Out :=
  s.cc (fun k => if f != 2#2 && a != 0#5 then k.illegal s else k.answer s d (s.dlqItem k f.toNat (k.t.rd a)))

/-- A CFGW applied at its element, or refused: the thread goes on, or traps CSRBAD with TVAL n [06 R141; 12 R296]. -/
def State.cfgwApplyAt (s : State) (slot core elem : Nat) (w : CfgWait) : State :=
  match s.region slot with
  | none => s
  | some r =>
    let t := (r.core w.core).thread w.thr
    if r.cfgwOk core elem w.n.toNat w.v then
      let e := r.elem core elem
      let s1 := s.putRegion slot (r.putElem core elem { e with ecw := tset e.ecw w.n.toNat w.v })
      s1.putThread slot w.core w.thr { t.advance with st := .block .answer }
    else s.trapAt slot w.core w.thr trCSRBAD (w.n.setWidth 64) t.pc

/-- CFGW: applied when no colour is live, else it waits at the element [06 R141; 12 R296]. -/
def execCfgw (_h : CcHd) (a b : BitVec 5) (n : BitVec 4) (s : State) : Out :=
  s.cc (fun k => k.command s (k.t.rd a) none (fun c i e =>
    let w : CfgWait := ⟨k.core, k.thr, n, (k.t.rd b).setWidth 32⟩
    if k.r.live == 0 && e.cfgWait.isEmpty then s.cfgwApplyAt k.slot c i w
    else
      let s1 := s.onRegion k.slot (fun r => r.putElem c i { e with cfgWait := e.cfgWait ++ [w] })
      s1.putThread k.slot k.core k.thr { k.t with st := .block .cfgw }))

/-- CFGW_APPLY: the first write that waits at an element, once no colour of the region is live [06 R141]. -/
def execCfgwApply (slot core elem : Nat) (s : State) : Out :=
  .next (match s.region slot with
    | none => s
    | some r =>
      let e := r.elem core elem
      match e.cfgWait with
      | [] => s
      | w :: rest =>
        if r.live != 0 then s
        else (s.putRegion slot (r.putElem core elem { e with cfgWait := rest })).cfgwApplyAt slot core elem w)

/-- KSET: an entry in the pending-constant queue of 8 [06 R142; 12 R297]. -/
def execKset (_h : CcHd) (a b : BitVec 5) (m : BitVec 8) (s : State) : Out :=
  s.cc (fun k =>
    let o := k.opnd a b 0
    k.command s o.1 none (fun c i e =>
      if 8 ≤ e.pendK.length then k.wait s o
      else
        let q : PendK := ⟨BitVec.ofNat 4 (bitsAt o.1.toNat 12 4), o.2.1.setWidth 32, m⟩
        (s.onRegion k.slot (fun r => r.putElem c i { e with pendK := e.pendK ++ [q] })).answerTo k 0 0))

/-- MARK: a MARKER token, once it has credit, on the thread's arc to the element; the thread's earlier KSETs are in their queues, since it
blocked for them [06 R142; 12 R298]. -/
def execMark (_h : CcHd) (a : BitVec 5) (m : BitVec 8) (s : State) : Out :=
  s.cc (fun k =>
    let o := k.opnd a 0 0
    let v := o.1.toNat
    let c := bitsAt v 6 6
    let e := bitsAt v 0 6
    if k.r.ncore ≤ c then k.trap s trLACCESS (BitVec.ofNat 64 (bitsAt v 0 12))
    else
      let t := { Token.mk0 .marker 0 0 m .none with port := 3, node := BitVec.ofNat 12 (v / 2 ^ 12), core := BitVec.ofNat 6 c, elem := BitVec.ofNat 6 e }
      let f : Flight := { arc := .inject k.core k.thr c e, sender := k.core, tok := t, entered := true }
      if s.mayEnter k.r k.slot f then (s.onRegion k.slot (fun r => r.launch f)).answerTo k 0 0 else k.wait s o)

/-- The kind of a token header's KIND field [07 R157]. -/
def kindOf (n : Nat) : Option TokKind :=
  match n with
  | 0 => some .scalar
  | 1 => some .arow
  | 2 => some .vrow
  | 3 => some .tile
  | 4 => some .nil
  | 5 => some .eos
  | 6 => some .fault
  | 7 => some .marker
  | 8 => some .cfg
  | 9 => some .zero
  | _ => none

/-- A token from a 64-bit header [07 R156]. -/
def tokenOf (k : TokKind) (v : Word) (p : Payload) : Token :=
  let n := v.toNat
  { kind := k, act := BitVec.ofNat 2 (n / 2 ^ 58), port := BitVec.ofNat 2 (n / 2 ^ 56), node := BitVec.ofNat 12 (n / 2 ^ 44),
    core := BitVec.ofNat 6 (n / 2 ^ 38), elem := BitVec.ofNat 6 (n / 2 ^ 32), ctx := BitVec.ofNat 12 (n / 2 ^ 20),
    colour := BitVec.ofNat 8 (n / 2 ^ 12), skip := BitVec.ofNat 4 (n / 2 ^ 8), aux := BitVec.ofNat 8 n, pay := p }

/-- Whether a number is a fault class [04 R99]. -/
def faultClass (n : Nat) : Bool := 1 ≤ n && n ≤ 0x11

/-- The checks of an injected header but for its kind [12 R299, step 1]. -/
def Token.injectable (t : Token) : Bool :=
  t.act != 3#2 && t.port != 3#2 && t.skip == 0#4 && (t.kind != .fault || faultClass t.aux.toNat)

/-- What step 3 of an injection finds [12 R299; 07 R163]: a token that may go, a token of NEXT that may go once it is admitted, one that waits
for admission, or a colour that is neither live and of this context nor NEXT. -/
inductive Inject where
  | go
  | opens
  | wait
  | bad
deriving DecidableEq, Repr

/-- The colour of a token that a thread injects; only the first of the threads that wait for NEXT may have it admitted [07 R163; 12 R299]. -/
def Region.inject (r : Region) (who : Nat × Nat) (t : Token) : Inject :=
  if t.act == 1#2 then .go
  else if t.colour == r.next && r.live < 256 && !r.isLive t.colour then
    (if r.live < r.l && r.injq.head?.all (fun w => w == who) then .opens else .wait)
  else if r.isLive t.colour && r.owner t.colour == some t.ctx then .go
  else .bad

/-- A region without a thread among those that wait for NEXT. -/
def Region.unqueue (r : Region) (who : Nat × Nat) : Region := { r with injq := r.injq.filter (fun w => w != who) }

/-- A region with a thread among those that wait for NEXT, at the place where it came. -/
def Region.enqueue (r : Region) (who : Nat × Nat) : Region := if r.injq.contains who then r else { r with injq := r.injq ++ [who] }

/-- The steps of an injection after its first check, in their order; a token is admitted when it has the credit to enter [12 R299]. -/
def Cc.inject (k : Cc) (s : State) (o : Word × Word × Word) (t : Token) : State :=
  let who := (k.core, k.thr)
  let f : Flight := { arc := .inject k.core k.thr t.core.toNat t.elem.toNat, sender := k.core, tok := t, entered := true }
  let waits (s : State) : State := s.putThread k.slot k.core k.thr { k.t with st := .block (.retry o.1 o.2.1 o.2.2) }
  let sends (r : Region) : State := ((s.putRegion k.slot (r.launch f)).answerTo k 0 0)
  if k.r.ncore ≤ t.core.toNat then k.trap s trLACCESS (BitVec.ofNat 64 (bitsAt o.1.toNat 32 12))
  else if k.r.stalled then k.wait s o
  else match k.r.inject who t with
    | .bad => k.illegal (s.putRegion k.slot (k.r.unqueue who))
    | .wait => waits (s.putRegion k.slot (k.r.enqueue who))
    | .go => if s.mayEnter k.r k.slot f then sends (k.r.unqueue who) else waits (s.putRegion k.slot (k.r.unqueue who))
    | .opens =>
      if s.mayEnter k.r k.slot f then sends ((k.r.unqueue who).bringIn t.ctx) else waits (s.putRegion k.slot (k.r.enqueue who))

/-- INJ [12 R299]. -/
def execInj (_h : CcHd) (a b : BitVec 5) (s : State) : Out :=
  s.cc (fun k =>
    let o := k.opnd a b 0
    match kindOf (o.1.toNat / 2 ^ 60) with
    | some .scalar =>
      let t := tokenOf .scalar o.1 (.word o.2.1)
      if t.injectable then k.inject s o t else k.illegal s
    | some .cfg =>
      let t := tokenOf .cfg o.1 (.word o.2.1)
      if t.injectable then k.inject s o t else k.illegal s
    | some .nil | some .eos | some .fault =>
      let t := tokenOf ((kindOf (o.1.toNat / 2 ^ 60)).getD .nil) o.1 .none
      if t.injectable then k.inject s o t else k.illegal s
    | _ => k.illegal s)

/-- The payload bytes of INJT; none for a kind or field it does not take [12 R300]. -/
def injtBytes (kind : Nat) (c : BitVec 3) (r : BitVec 5) : Option Nat :=
  match kind with
  | 1 => if c == 0#3 && r == 0#5 then some 32 else none
  | 2 => if c == 0#3 && r == 0#5 then some 256 else none
  | 3 => some (4 * (r.toNat + 1) * ((c.toNat + 1) * 8))
  | _ => none

/-- INJT: the payload is read through path CC from the buffer window [12 R300]. -/
def execInjt (_h : CcHd) (a b : BitVec 5) (c : BitVec 3) (r : BitVec 5) (s : State) : Out :=
  s.cc (fun k =>
    let o := k.opnd a b 0
    let kind := o.1.toNat / 2 ^ 60
    match injtBytes kind c r, kindOf kind with
    | some n, some kd =>
      let t := tokenOf kd o.1 .none
      if !t.injectable then k.illegal s
      else if k.r.ncore ≤ t.core.toNat then k.trap s trLACCESS (BitVec.ofNat 64 (bitsAt o.1.toNat 32 12))
      else if o.2.1.toNat % 32 != 0 then k.trap s trMISALIGN o.2.1
      else match k.r.window o.2.1 n with
        | none => k.trap s trLACCESS o.2.1
        | some (i, off) =>
          let (s1, d) := s.bufReadAs k.stream k.thr k.slot k.core i off n
          k.inject s1 o { t with pay := .bytes d }
    | _, _ => k.illegal s)

/-- PURGE: the number of tokens and operations removed, saturating [07 R176; 12 R302]. -/
def execPurge (_h : CcHd) (d a : BitVec 5) (s : State) : Out :=
  s.cc (fun k =>
    let c : BitVec 8 := (k.t.rd a).setWidth 8
    let (s1, n) := s.purge k.slot c
    (s1.run).answerTo k d (BitVec.ofNat 64 (if n < 2 ^ 32 then n else 2 ^ 32 - 1)))

/-- SBIND: a layout word in the layout queue of an AE [08 R186; 12 R303]. -/
def execSbind (_h : CcHd) (a b : BitVec 5) (n : BitVec 3) (s : State) : Out :=
  s.cc (fun k =>
    let o := k.opnd a b 0
    if 5 ≤ n.toNat || !layoutOk n.toNat o.2.1 then k.illegal s
    else k.command s o.1 (some 3) (fun c i e =>
      if 16 ≤ e.ae.queue.length && !(e.ae.atBound && !e.ae.waiting.any Access.real) then k.wait s o
      else (s.enqueueWord k.slot c i { num := n.setWidth 8, v := o.2.1, tag := none, node := 0 }).answerTo k 0 0))

/-- SBAR: the boundary count and the words queued [12 R304]. -/
def execSbar (_h : CcHd) (d a : BitVec 5) (s : State) : Out :=
  s.cc (fun k => k.command s (k.t.rd a) (some 3) (fun _ _ e =>
    k.answer s d (BitVec.ofNat 64 (e.ae.sbc.toNat + e.ae.queue.length % 32 * 2 ^ 16))))

/-- SWAIT: waits until the boundary count has reached the target read at issue [12 R304]. -/
def execSwait (_h : CcHd) (d a : BitVec 5) (i : BitVec 13) (s : State) : Out :=
  s.cc (fun k =>
    let o := k.opnd a 0 d
    let g : BitVec 16 := (o.2.2 + i.signExtend 64).setWidth 16
    k.command s o.1 (some 3) (fun _ _ e =>
      if (e.ae.sbc - g).toNat < 2 ^ 15 then k.answer s d (e.ae.sbc.setWidth 64) else k.wait s o))

end Sys2Proof.Machine
end

