-- ==== Sys2Proof/Machine/CcFlow.lean ====
section
/-! DEFINITION. Branches, jumps, hardware loops, the SYS group, special registers, traps of the control core
[12 R284 to R287, R312, R313; 06 R155]. -/

namespace Sys2Proof.Machine

/-- A conditional branch: taken, to its own address plus 4 times the immediate; else past it [12 R284, R287]. -/
def State.branch (s : State) (b a : BitVec 5) (i : BitVec 13) (cond : Word → Word → Bool) : Out :=
  s.cc (fun k => k.put s (if cond (k.t.rd a) (k.t.rd b) then { k.t with pc := k.t.pc + 4 * i.signExtend 64 } else k.t.advance))

/-- BEQ [12 R284]. -/
def execBeq (_h : CcHd) (b a : BitVec 5) (i : BitVec 13) (s : State) : Out := s.branch b a i (fun a b => a == b)
/-- BNE [12 R284]. -/
def execBne (_h : CcHd) (b a : BitVec 5) (i : BitVec 13) (s : State) : Out := s.branch b a i (fun a b => a != b)
/-- BLT [12 R284]. -/
def execBlt (_h : CcHd) (b a : BitVec 5) (i : BitVec 13) (s : State) : Out := s.branch b a i (fun a b => a.slt b)
/-- BGE [12 R284]. -/
def execBge (_h : CcHd) (b a : BitVec 5) (i : BitVec 13) (s : State) : Out := s.branch b a i (fun a b => !a.slt b)
/-- BLTU [12 R284]. -/
def execBltu (_h : CcHd) (b a : BitVec 5) (i : BitVec 13) (s : State) : Out := s.branch b a i (fun a b => a.ult b)
/-- BGEU [12 R284]. -/
def execBgeu (_h : CcHd) (b a : BitVec 5) (i : BitVec 13) (s : State) : Out := s.branch b a i (fun a b => !a.ult b)

/-- JAL [12 R285]. -/
def execJal (_h : CcHd) (d : BitVec 5) (i : BitVec 18) (s : State) : Out :=
  s.cc (fun k => k.put s { k.t.wr d (k.c.clk + 2) (k.t.pc + 4) with pc := k.t.pc + 4 * i.signExtend 64 })

/-- JALR: a target that is not 4-byte aligned traps MISALIGN [12 R285]. -/
def execJalr (_h : CcHd) (d a : BitVec 5) (i : BitVec 13) (s : State) : Out :=
  s.cc (fun k =>
    let t := k.t.rd a + i.signExtend 64
    if t.toNat % 4 != 0 then k.trap s trMISALIGN t
    else k.put s { k.t.wr d (k.c.clk + 2) (k.t.pc + 4) with pc := t })

/-- A hardware loop begun with a count and a body length; a body length of 0 traps ILLEGAL [12 R286]. -/
def Cc.loop (k : Cc) (s : State) (count : Word) (i : BitVec 13) : State :=
  if i == 0#13 then k.illegal s
  else
    let b := k.t.pc + 4
    let e := b + 4 * i.setWidth 64
    k.put s { k.t with lbeg := b, lend := e, lcnt := count, pc := if count == 0#64 then e else b }

/-- LOOPI [12 R286]. -/
def execLoopi (_h : CcHd) (c : BitVec 10) (i : BitVec 13) (s : State) : Out := s.cc (fun k => k.loop s (c.setWidth 64) i)

/-- LOOPR [12 R286]. -/
def execLoopr (_h : CcHd) (a : BitVec 5) (i : BitVec 13) (s : State) : Out :=
  s.cc (fun k => k.loop s ((k.t.rd a).setWidth 32 |>.setWidth 64) i)

/-- TRAP: TRAPI with EPC at the next word [12 R312]. -/
def execTrap (_h : CcHd) (c : BitVec 10) (s : State) : Out :=
  s.cc (fun k => s.trapAt k.slot k.core k.thr trTRAPI (c.setWidth 64) (k.t.pc + 4))

/-- ERET [12 R312]. -/
def execEret (_h : CcHd) (s : State) : Out := s.cc (fun k => k.put s k.t.eret)

/-- WFE: goes on when the event bit is set and clears it, else waits for it [12 R312]. -/
def execWfe (_h : CcHd) (s : State) : Out :=
  s.cc (fun k =>
    if k.t.event then k.put s { k.t.advance with event := false }
    else k.put s { k.t with st := .wfe false })

/-- YIELD: the current thread advances as for SW = 1 [12 R312]. -/
def execYield (_h : CcHd) (s : State) : Out :=
  s.cc (fun k => (k.put s k.t.advance).onRegion k.slot (fun r => r.putCore k.core ((r.core k.core).yield k.thr)))

/-- CSRR [12 R313]. -/
def execCsrr (_h : CcHd) (d : BitVec 5) (c : BitVec 12) (s : State) : Out :=
  s.cc (fun k => k.csr s d c (fun _ => none) false)

/-- CSRW [12 R313]. -/
def execCsrw (_h : CcHd) (d a : BitVec 5) (c : BitVec 12) (s : State) : Out :=
  s.cc (fun k => k.csr s d c (fun _ => some (k.t.rd a)) true)

/-- CSRS: sets bits; on EVPEND it clears the bits that are 1 in the operand [12 R313]. -/
def execCsrs (_h : CcHd) (d a : BitVec 5) (c : BitVec 12) (s : State) : Out :=
  s.cc (fun k => k.csr s d c (fun old => some (if c == 0x104#12 then k.t.rd a else old ||| k.t.rd a)) true)

/-- CSRC: clears bits; on EVPEND it writes nothing [12 R313]. -/
def execCsrc (_h : CcHd) (d a : BitVec 5) (c : BitVec 12) (s : State) : Out :=
  s.cc (fun k => k.csr s d c (fun old => if c == 0x104#12 then none else some (old &&& ~~~k.t.rd a)) true)

/-- The waits of a thread undone where units outside it hold them: a CFGW at an element, a push in the queue unit, an EXIT
of the region [12 R314]. -/
def State.cancelWait (s : State) (slot core thr : Nat) : State :=
  let s1 := s.onRegion slot (fun r =>
    { r with
      cores := r.cores.map (fun p => (p.1, { p.2 with elems := p.2.elems.map (fun q =>
        (q.1, { q.2 with cfgWait := q.2.cfgWait.filter (fun w => !(w.core == core && w.thr == thr)) })) })),
      injq := r.injq.filter (fun w => w != (core, thr)),
      exit := match r.exit with
        | some (c, t, x) => if c == core && t == thr then none else some (c, t, x)
        | none => none })
  { s1 with wk := { s1.wk with qwaits := s1.wk.qwaits.filter (fun w => !(w.push && w.slot == slot && w.core == core && w.unit == thr)) } }

/-- ASYNCHRONOUS_TRAP: the lowest pending trap is taken by thread CCFG.ATH; a thread in WFE wakes, a wait is cancelled
[06 R155; 12 R314]. -/
def execAsynchronousTrap (slot core : Nat) (s : State) : Out :=
  .next (match s.region slot with
    | none => s
    | some r =>
      let c := r.core core
      match c.asyncNow with
      | none => s
      | some (i, b) =>
        let t := c.thread i
        let next := match t.st with
          | .wfe false => t.advance.pc
          | _ => t.pc
        let t0 := match t.st with
          | .wfe false => t.advance
          | _ => t
        let s1 := s.cancelWait slot core i
        let s2 := s1.onRegion slot (fun r => r.putCore core { r.core core with evpend := (r.core core).evpend &&& ~~~(1#4 <<< b) })
        s2.putThread slot core i (t0.asyncTrap b (tget c.evval 0 b) next))

/-- ILLEGAL: a word that is not an instruction, or a fetch without one, traps ILLEGAL; TVAL holds the word, or the fetch
address [06 R155; 11 R272]. -/
def execIllegal (w : Option (BitVec 32)) (s : State) : Out :=
  s.cc (fun k => k.trap s trILLEGAL (match w with
    | some x => x.setWidth 64
    | none => k.t.pc))

end Sys2Proof.Machine
end

