-- ==== Sys2Proof/Machine/QueueUnit.lean ====
section
/-! DEFINITION. The queue unit: persistent work queues [05 R125 to R127; 12 R309; 13 R328]. -/

namespace Sys2Proof.Machine

/-- A queue descriptor [05 R125]. -/
structure QDesc where
  base   : Word
  head   : W32
  tail   : W32
  log2n  : Nat
  closed : Byte

/-- A descriptor from its 64 bytes; none when it fails [05 R127]. -/
def QDesc.ofBytes (b : List Byte) : Option QDesc :=
  let f (o n : Nat) : Nat := leNum ((b.drop o).take n)
  if 1 ≤ f 16 1 && f 16 1 ≤ 20 && (b.drop 18).all (· == 0#8) then
    some { base := BitVec.ofNat 64 (f 0 8), head := BitVec.ofNat 32 (f 8 4), tail := BitVec.ofNat 32 (f 12 4), log2n := f 16 1,
           closed := BitVec.ofNat 8 (f 17 1) }
  else none

/-- The 64 bytes of a descriptor. -/
def QDesc.bytes (q : QDesc) : List Byte :=
  leOf 8 q.base.toNat ++ leOf 4 q.head.toNat ++ leOf 4 q.tail.toNat ++ leOf 1 q.log2n ++ [q.closed] ++ List.replicate 46 0#8

/-- The address of an item of the ring. -/
def QDesc.item (q : QDesc) (i : W32) : Word := q.base + BitVec.ofNat 64 (16 * (i.toNat % 2 ^ q.log2n))

/-- Whether the ring is full, and whether it is empty [05 R126]. -/
def QDesc.full (q : QDesc) : Bool := (q.tail - q.head).toNat == 2 ^ q.log2n
/-- Empty. -/
def QDesc.empty (q : QDesc) : Bool := q.tail == q.head

/-- What a queue operation gives: a fault, a bad descriptor, a wait, or an answer. -/
inductive QRes where
  | fault (f : FaultInfo)
  | badDesc
  | wait
  | done (v : Nat)
  | item (b : List Byte)
  | ended

/-- The descriptor at an address of a tenant, read by the queue unit [05 R125, R127]. -/
def State.qdesc (s : State) (ten : Nat) (va : Word) : Except QRes QDesc :=
  match s.vget ten needRW apLocal va 64 with
  | .error f => .error (.fault f)
  | .ok b =>
    match QDesc.ofBytes b with
    | none => .error .badDesc
    | some q => .ok q

/-- The descriptor written back. -/
def State.putDesc (s : State) (ten : Nat) (va : Word) (q : QDesc) : State := (s.vput ten apLocal va q.bytes).1

/-- A push: discarded on a closed queue (1), waits on a full ring, else the item and then TAIL are written (0)
[05 R125, R126]. -/
def State.qpush (s : State) (ten : Nat) (va : Word) (item : List Byte) : State × QRes :=
  let s := s.counted ten needR va 64
  match s.qdesc ten va with
  | .error e => (s, e)
  | .ok q =>
    if q.closed != 0#8 then (s, .done 1)
    else if q.full then (s, .wait)
    else
      match s.vput ten apLocal (q.item q.tail) item with
      | (s1, some f) => (s1, .fault f)
      | (s1, none) => (s1.putDesc ten va { q with tail := q.tail + 1 }, .done 0)

/-- A pop: an item and then HEAD, the end of a closed queue, or a wait [05 R125, R126]. -/
def State.qpop (s : State) (ten : Nat) (va : Word) : State × QRes :=
  let s := s.counted ten needR va 64
  match s.qdesc ten va with
  | .error e => (s, e)
  | .ok q =>
    if q.empty then (s, if q.closed != 0#8 then .ended else .wait)
    else
      match s.uget ten needR apLocal (q.item q.head) 16 with
      | (s, .error f) => (s, .fault f)
      | (s, .ok b) => (s.putDesc ten va { q with head := q.head + 1 }, .item b)

/-- A close: its previous value [12 R309]. -/
def State.qclose (s : State) (ten : Nat) (va : Word) : State × QRes :=
  let s := s.counted ten needR va 64
  match s.qdesc ten va with
  | .error e => (s, e)
  | .ok q => (s.putDesc ten va { q with closed := 1 }, .done q.closed.toNat)

/-- The tokens of a QPOP or QTRY that has been served: to DST0 and DST1 [13 R328]. -/
def qpopToks (x : BitVec 12) (c : BitVec 8) (b : List Byte) : List (Nat × Token) :=
  [(0, Token.scalarOf x c (BitVec.ofNat 64 (leNum (b.take 8)))), (1, Token.scalarOf x c (BitVec.ofNat 64 (leNum (b.drop 8))))]

/-- The end of a QPOP or QTRY that counts as outstanding. -/
def State.endPop (s : State) (slot core elem node : Nat) (x : BitVec 12) (c : BitVec 8) (q : QRes) : State :=
  let s1 := s.dropPath slot core 7 3
  match q with
  | .fault f => s1.failAccess slot core elem node x c [] f
  | .badDesc =>
    let (v, s2) := s1.draw
    s2.failAccess slot core elem node x c [] { FaultInfo.of 9 0 with info1 := v }
  | .item b => s1.endAccess slot core elem node c (qpopToks x c b)
  | .ended => s1.endAccess slot core elem node c [(2, Token.mk0 .eos x c 0 .none)]
  | .wait | .done _ => s1.endAccess slot core elem node c [(2, Token.mk0 .nil x c 0 .none)]

/-- The answer of a queue operation to a control-core thread that is past its issue: a value, or a trap
[12 R309; 05 R127]. -/
def State.endPush (s : State) (slot core thr : Nat) (rd : BitVec 5) (va : Word) (q : QRes) : State :=
  let s1 := s.dropPath slot core 7 3
  match s1.region slot with
  | none => s1
  | some r =>
    let c := r.core core
    match q with
    | .fault f => s1.ccFault slot core thr va f
    | .done v => s1.putThread slot core thr ((c.thread thr).answer c.clk rd (BitVec.ofNat 64 v))
    | _ =>
      let (v, s2) := s1.draw
      s2.ccFault slot core thr va { FaultInfo.of 9 0 with info1 := v, mem := true }

/-- A waiting queue operation looked at again: served and gone, or it stays [05 R126]. -/
def State.serveWait (s : State) (w : QWait) : Option State :=
  match s.region w.slot with
  | none => none
  | some r =>
    let drop (s : State) : State := { s with wk := { s.wk with qwaits := dropFirst (· == w) s.wk.qwaits } }
    if w.push then
      match s.qpush r.ten w.va w.item with
      | (_, .wait) => none
      | (s1, q) =>
        let c := r.core w.core
        let rd : BitVec 5 := match c.fetch (c.thread w.unit).pc with
          | some x => BitVec.ofNat 5 (bitsAt x.toNat 18 5)
          | none => 0
        some ((drop s1).endPush w.slot w.core w.unit rd w.va q)
    else
      match (r.elem w.core w.unit).xe.ops.find? (fun o => o.num == w.num) with
      | none => some (drop s)
      | some o =>
        match s.qpop r.ten w.va with
        | (_, .wait) => none
        | (s1, q) => some (((drop s1).endX w.slot w.core w.unit w.num).endPop w.slot w.core w.unit o.node o.ctx o.colour q)

/-- The waiting operations that an action lets go on, in order of arrival [05 R126]. -/
def State.serveWaits (s : State) : Nat → State
  | 0 => s
  | n + 1 =>
    match s.wk.qwaits.findSome? s.serveWait with
    | none => s
    | some s1 => s1.serveWaits n

/-- What follows a queue operation. -/
def State.queueRun (s : State) : State := s.serveWaits (s.wk.qwaits.length + 1)

/-- The window address of a barrier or item checked: MISALIGN, then LACCESS [12 R307, R309]. -/
def Cc.slot16 (k : Cc) (s : State) (a : Word) (g : Nat → Nat → State) : State :=
  if a.toNat % 16 != 0 then k.trap s trMISALIGN a
  else match k.r.window a 16 with
    | none => k.trap s trLACCESS a
    | some (i, off) => g i off

/-- QPUSHC [12 R309; 05 R126]. -/
def execQpushc (_h : CcHd) (d a b : BitVec 5) (s : State) : Out :=
  s.cc (fun k =>
    let va := k.t.rd a
    if va.toNat % 64 != 0 then k.trap s trMISALIGN va
    else k.slot16 s (k.t.rd b) (fun i off =>
      let item := s.bufRead k.slot k.core i off 16
      match s.qpush k.r.ten va item with
      | (_, .wait) =>
        let s1 := s.putThread k.slot k.core k.thr { k.t with st := .block .queue }
        { s1 with wk := { s1.wk with qwaits := s1.wk.qwaits ++ [⟨true, k.slot, k.core, k.thr, 0, va, item⟩] } }
      | (s1, q) => (s1.endPush k.slot k.core k.thr d va q).queueRun))

/-- QCLOSE [12 R309]. -/
def execQclose (_h : CcHd) (d a : BitVec 5) (s : State) : Out :=
  s.cc (fun k =>
    let va := k.t.rd a
    if va.toNat % 64 != 0 then k.trap s trMISALIGN va
    else
      let (s1, q) := s.qclose k.r.ten va
      (s1.endPush k.slot k.core k.thr d va q).queueRun)

end Sys2Proof.Machine
end

