-- ==== Sys2Proof/Machine/CcUnit.lean ====
section
/-! DEFINITION. Copy channels and transaction barriers as the control core commands them, signals MSI and WAKE
[08 R195, R200, R203; 12 R305 to R308, R310]. -/

namespace Sys2Proof.Machine

/-- The number of a channel state [08 R200]. -/
def ChState.code : ChState → Nat
  | .idle => 0
  | .walk => 1
  | .drain => 2
  | .err => 3

/-- The status word of a channel [08 R200]. -/
def Chan.word (c : Chan) : Word :=
  BitVec.ofNat 64 (c.st.code + c.errc.toNat * 2 ^ 8 + c.recs.length % 1024 * 2 ^ 22 + c.done.toNat * 2 ^ 32)

/-- CHSTART: the head is taken in IDLE or ERR; the thread's stores come before the channel's reads of the chain
[08 R195; 12 R305]. -/
def execChstart (_h : CcHd) (d a : BitVec 5) (c : BitVec 4) (s : State) : Out :=
  s.cc (fun k =>
    let head := k.t.rd a
    let ch := k.c.chan c.toNat
    let done (s : State) (v : Word) : State :=
      s.putThread k.slot k.core k.thr { (k.t.wr d (k.c.clk + 4) v).advance with st := .block (.till (k.c.clk + 4)) }
    if head.toNat % 64 != 0 then k.trap s trMISALIGN head
    else if ch.st == .idle || ch.st == .err then
      done ((s.dropPath k.slot k.core 2 3).onChan k.slot k.core c.toNat (fun x => { x with st := .walk, head := head, done := 0, errc := 0 })) 1
    else done s 0)

/-- CHSTAT [08 R200; 12 R306]. -/
def execChstat (_h : CcHd) (d : BitVec 5) (e : BitVec 1) (c : BitVec 4) (s : State) : Out :=
  s.cc (fun k => k.answer s d (if e == 1#1 then (k.c.chan c.toNat).head else (k.c.chan c.toNat).word))

/-- TBINIT [08 R203; 12 R307]. -/
def execTbinit (_h : CcHd) (a b : BitVec 5) (s : State) : Out :=
  s.cc (fun k => k.slot16 s (k.t.rd a) (fun i off =>
    let v := (k.t.rd b).toNat
    (s.tbarCc k i off (TBar.init (bitsAt v 0 20) (bitsAt v 20 32)) []).putThread k.slot k.core k.thr (k.t.answer k.c.clk 0 0)))

/-- TBARR [08 R203; 12 R307]. -/
def execTbarr (_h : CcHd) (a b : BitVec 5) (s : State) : Out :=
  s.cc (fun k => k.slot16 s (k.t.rd a) (fun i off =>
    let v := (k.t.rd b).toNat
    (s.tbarCc k i off ((s.tbar k.slot k.core i off).arrive (bitsAt v 0 20) (bitsAt v 20 32)) (s.relOf k.id 1)).putThread k.slot k.core k.thr
      (k.t.answer k.c.clk 0 0)))

/-- What TBWAIT writes, from one state of the barrier [12 R308]. -/
def TBar.seen (b : TBar) : Word :=
  BitVec.ofNat 64 (b.phase + b.flags * 2 ^ 4 + b.parr * 2 ^ 8 + b.psect * 2 ^ 28)

/-- TBWAIT: until PHASE differs from the operand or FLAGS.ERR is set; an acquire at core scope [12 R308]. -/
def execTbwait (_h : CcHd) (d a b : BitVec 5) (s : State) : Out :=
  s.cc (fun k =>
    let o := k.opnd a b 0
    k.slot16 s o.1 (fun i off =>
      let t := s.tbar k.slot k.core i off
      if t.phase != bitsAt o.2.1.toNat 0 4 || t.flags % 2 == 1 then 
        let l := s.ms.learnt (some (k.slot, k.core)) i off 16
        k.answer ((s.learns k.id l).join k.id 1 l.2) d t.seen
      else k.wait s o))

/-- TSIG MSI: vector 66 + v of the tenant's VF; v of 6 or 7 traps ILLEGAL [12 R310]. -/
def execTsigMsi (_h : CcHd) (v : BitVec 3) (s : State) : Out :=
  s.cc (fun k => if 6 ≤ v.toNat then k.illegal s else (k.put s k.t.advance).msi (k.r.ten + 1) (66 + v.toNat))

/-- TSIG WAKE: the event bit of thread t of a core is set [12 R310 to R312]. -/
def execTsigWake (_h : CcHd) (a : BitVec 5) (t : BitVec 2) (s : State) : Out :=
  s.cc (fun k =>
    let c := bitsAt (k.t.rd a).toNat 0 6
    if k.r.ncore ≤ c then k.trap s trLACCESS (BitVec.ofNat 64 c)
    else
      let s1 := k.put s k.t.advance
      s1.putThread k.slot c t.toNat (s1.thread k.slot c t.toNat).wake)

end Sys2Proof.Machine
end

