-- ==== Sys2Proof/Machine/XeNode.lean ====
section
/-! DEFINITION. Remote operators, fences, barrier arrivals and queue operations of the exchange elements, operand saves of the
matrix elements [13 R328; 14 R356; 15 R378 to R384]. -/

namespace Sys2Proof.Machine

/-- An exchange operation of a firing, numbered in firing order. -/
def Fire.xop (f : Fire) (s : State) (k : XKind) (a : Word) (d : List Byte) (t : Token) : XOp :=
  { num := s.nextOp, kind := k, node := f.node, ctx := f.ctx, colour := f.colour, addr := a, data := d, tok := t, op := none,
    orphan := false }

/-- A firing's exchange operation begun [15 R371]. -/
def Fire.beginX (f : Fire) (s : State) (x : XOp) : State :=
  { (f.open.finish s).onXe f.slot f.core f.elem (fun q => { q with ops := q.ops ++ [x] }) with nextOp := s.nextOp + 1 }

/-- The access address of a remote operator [15 R378]. -/
def xAddr (l : LitX) (a : Word) : Word := a + l.disp.signExtend 64

/-- Whether a range is not aligned as a remote operator needs, or crosses a 2 KiB boundary [15 R378]. -/
def xMisaligned (a : Word) (n : Nat) : Bool :=
  a.toNat % (if n < 32 then n else 32) != 0 || 2048 < a.toNat % 2048 + n

/-- RLD [15 R378, R379]. -/
def execRld (h : NodeHd) (l : LitX) (s : State) : Out :=
  .next (s.fire h (fun f =>
    let a := xAddr l f.a.value
    if f.a.kind != .scalar then f.opf s iPAYLOAD
    else if xMisaligned a (xopSize l.xop.toNat f.e) then f.opf s iALIGN
    else f.beginX s (f.xop s (.rld l.xop) a [] f.a))).run

/-- The bytes that an RST writes from its data operand [15 R378]. -/
def rstBytes (xop : Nat) (e : Elem) (t : Token) : Option (List Byte) :=
  let u := e.zeroTok t
  let n := xopSize xop e
  match u.kind with
  | .scalar => if xop < 4 then some (u.bytes.take n) else none
  | .arow => if xop == 4 then some u.bytes else none
  | .vrow => if xop == 5 then some u.bytes else none
  | .tile => if xop == 6 && u.bytes.length == n then some u.bytes else none
  | _ => none

/-- RST [15 R378, R379]. -/
def execRst (h : NodeHd) (l : LitX) (s : State) : Out :=
  .next (s.fire h (fun f =>
    let a := xAddr l f.a.value
    match (if f.a.kind == .scalar then rstBytes l.xop.toNat f.e f.b else none) with
    | none => f.opf s iPAYLOAD
    | some d =>
      if xMisaligned a (xopSize l.xop.toNat f.e) then f.opf s iALIGN
      else f.beginX s (f.xop s (.rst l.xop) a d f.a))).run

/-- RATOM [15 R380, R381]. -/
def execRatom (h : NodeHd) (l : LitX) (s : State) : Out :=
  .next (s.fire h (fun f =>
    let a := xAddr l f.a.value
    if f.a.kind != .scalar || f.b.kind != .scalar then f.opf s iPAYLOAD
    else if xMisaligned a (ratomSize l.xop.toNat) then f.opf s iALIGN
    else f.beginX s (f.xop s (.ratom l.xop l.sem) a (leOf 8 f.b.value.toNat) f.a))).run

/-- RFEN [15 R382]. -/
def execRfen (h : NodeHd) (s : State) : Out :=
  .next (s.fire h (fun f => f.beginX s (f.xop s .rfen 0 [] (f.copy (f.e.zeroTok f.a))))).run

/-- FENCEX [09 R214; 15 R383]. -/
def execFencex (h : NodeHd) (l : LitF) (s : State) : Out :=
  .next (s.fire h (fun f => f.beginX s (f.xop s (.fencex l.spath l.dpath l.scope) 0 [] (f.copy (f.e.zeroTok f.a))))).run

/-- TBARV [08 R203; 15 R384]. -/
def execTbarv (h : NodeHd) (l : LitT) (s : State) : Out :=
  .next (s.fire h (fun f =>
    if f.a.kind != .scalar then f.opf s iPAYLOAD else f.beginX s (f.xop s (.tbarv l.buf l.off) 0 [] (f.copy f.a)))).run

/-- QPOP: an item, the end of the queue, or a wait [05 R126; 13 R328]. -/
def execQpop (h : NodeHd) (s : State) : Out :=
  .next (s.fire h (fun f =>
    let va := f.a.value
    if f.a.kind != .scalar || va.toNat % 64 != 0 then f.opfOpen s
    else
      match s.qpop f.r.ten va with
      | (_, .wait) =>
        let s1 := f.beginX s (f.xop s .qpop va [] f.a)
        { s1 with wk := { s1.wk with qwaits := s1.wk.qwaits ++ [⟨false, f.slot, f.core, f.elem, s.nextOp, va, []⟩] } }
      | (s1, q) => ((f.open.finish s1).endPop f.slot f.core f.elem f.node f.ctx f.colour q).queueRun))

/-- QTRY: as QPOP, but NIL from an empty open queue [13 R328]. -/
def execQtry (h : NodeHd) (s : State) : Out :=
  .next (s.fire h (fun f =>
    let va := f.a.value
    if f.a.kind != .scalar || va.toNat % 64 != 0 then f.opfOpen s
    else
      let (s1, q) := s.qpop f.r.ten va
      ((f.open.finish s1).endPop f.slot f.core f.elem f.node f.ctx f.colour q).queueRun))

/-- A slot's access to tenant memory begun [14 R356]. -/
def Fire.slotAccess (f : Fire) (s : State) (k : ReplyKind) (kind : OpKind) (d : List Byte) : State :=
  (f.open.finish s).begin (mkOp (.fire f.slot f.core f.elem f.node f.ctx f.colour k s.nextOp) (.operand f.slot f.core f.elem) f.r.ten kind d
    (rangeParts f.a.value 2048) apLocal)

/-- MSAVE [14 R356]. -/
def execMsave (h : NodeHd) (l : LitM) (s : State) : Out :=
  .next (s.fire h (fun f =>
    let o := f.e.me.slot l.slot.toNat
    if f.a.kind != .scalar || f.a.value.toNat % 2048 != 0 then f.opf s iPAYLOAD
    else if !o.claim then f.opf s iUNCLAIMED
    else f.slotAccess s .msave .write (if o.zero then List.replicate 2048 0#8 else mread o.bytes 0 2048)))

/-- MREST [14 R356]. -/
def execMrest (h : NodeHd) (l : LitM) (s : State) : Out :=
  .next (s.fire h (fun f =>
    let o := f.e.me.slot l.slot.toNat
    if f.a.kind != .scalar || f.a.value.toNat % 2048 != 0 then f.opf s iPAYLOAD
    else if !o.claim then f.opf s iUNCLAIMED
    else f.slotAccess s (.mrest l.slot) .read [] ))

end Sys2Proof.Machine
end

