-- ==== Sys2Proof/Machine/Meld.lean ====
section
/-! DEFINITION. Meld units, send streams and receive streams of the exchange elements [02 R47 to R54; 15 R385 to R387; 18 R407]. -/

namespace Sys2Proof.Machine

/-- INFO1 STREAMS [15 R370]. -/
def iSTREAMS : Nat := 0x43
/-- INFO1 NORED. -/
def iNORED : Nat := 0x44
/-- INFO1 NOCOLL. -/
def iNOCOLL : Nat := 0x45
/-- INFO1 MELDSTAT. -/
def iMELDSTAT : Nat := 0x46

/-- A segment header [02 R48]; `ok` says that its reserved fields are 0. -/
structure MHead where
  seg    : Nat
  cnt    : Nat
  enc    : Nat
  vt     : Bool
  lastp  : Bool
  status : Nat
  lin    : Nat
  red    : Nat
  pseq   : Nat
  off    : Nat
  movf   : Bool := false
  mnan   : Bool := false
  ok     : Bool := true
deriving DecidableEq, Repr

/-- A segment header from the first 16 bytes of a packet [02 R48]. -/
def MHead.ofBytes (b : List Byte) : MHead :=
  let w := leNum (b.take 8)
  let v := leNum ((b.drop 8).take 8)
  { seg := bitsAt w 44 20, cnt := bitsAt w 32 12, enc := bitsAt w 30 2, vt := bitsAt w 29 1 == 1, lastp := bitsAt w 28 1 == 1,
    status := bitsAt w 24 4, lin := bitsAt w 19 5, red := bitsAt w 0 16, pseq := bitsAt v 48 16, off := bitsAt v 36 12,
    movf := bitsAt v 35 1 == 1, mnan := bitsAt v 34 1 == 1, ok := bitsAt w 16 3 == 0 && bitsAt v 0 34 == 0 }

/-- The 16 bytes of a segment header [02 R48]. -/
def MHead.bytes (h : MHead) : List Byte :=
  leOf 8 (h.seg * 2 ^ 44 + h.cnt * 2 ^ 32 + h.enc * 2 ^ 30 + h.vt.toNat * 2 ^ 29 + h.lastp.toNat * 2 ^ 28 + h.status * 2 ^ 24 +
    h.lin * 2 ^ 19 + h.red) ++
  leOf 8 (h.pseq * 2 ^ 48 + h.off * 2 ^ 36 + h.movf.toNat * 2 ^ 35 + h.mnan.toNat * 2 ^ 34)

/-- The bytes of a value: FP32 or BF16. -/
def meldVal (vt : Bool) : Nat := if vt then 2 else 4

/-- The entries of a full sparse packet [02 R48]. -/
def meldFull (vt : Bool) : Nat := if vt then 338 else 254

/-- The values of a dense piece [02 R48]. -/
def meldPiece (vt : Bool) : Nat := if vt then 512 else 256

/-- The bytes that follow a header. -/
def MHead.body (h : MHead) : Nat :=
  match h.enc with
  | 0 => h.cnt * (4 + meldVal h.vt)
  | 1 => h.cnt / 8 + h.cnt * meldVal h.vt
  | _ => 0

/-- The entries of a packet: index and value [02 R48]. -/
def MHead.entries (h : MHead) (b : List Byte) : List (Nat × Nat) :=
  match h.enc with
  | 0 => (chunks (4 + meldVal h.vt) h.cnt b).map (fun e => (leNum (e.take 4), leNum (e.drop 4)))
  | 1 =>
    let mask := leNum (b.take (h.cnt / 8))
    let vals := chunks (meldVal h.vt) h.cnt (b.drop (h.cnt / 8))
    ((List.range h.cnt).filter (fun j => mask.testBit j)).map (fun j => (4096 * h.seg + h.off + j, leNum (vals.getD j [])))
  | _ => []

/-- Statuses of an input [02 R48]. -/
def mdOK : Nat := 0
/-- ORDER. -/
def mdORDER : Nat := 1
/-- FORMAT. -/
def mdFORMAT : Nat := 2
/-- ABORT. -/
def mdABORT : Nat := 3

/-- An input of which nothing has come. -/
def MeldIn.start : MeldIn :=
  { seg := none, idx := none, off := none, segEnd := false, pseq := 0, ents := [], pend := [], ended := none, src := 0, acked := false }

/-- Whether a header is malformed for an input [02 R49]. -/
def MeldIn.format (i : MeldIn) (vti : Bool) (h : MHead) (body : Nat) : Bool :=
  !h.ok || h.enc == 3 || h.vt != vti || body != h.body || h.pseq != i.pseq.toNat ||
    (match h.enc with
      | 0 => h.cnt == 0 || meldFull h.vt < h.cnt
      | 1 => h.cnt != meldPiece h.vt || h.off % h.cnt != 0
      | _ => h.cnt != 0 || 3 < h.status)

/-- Whether indices rise strictly above a bound. -/
def risesFrom (lo : Option Nat) : List Nat → Bool
  | [] => true
  | x :: r => (match lo with | none => true | some y => decide (y < x)) && risesFrom (some x) r

/-- Whether a packet breaks the order of its input [02 R49]. -/
def MeldIn.order (i : MeldIn) (h : MHead) (es : List (Nat × Nat)) : Bool :=
  let same := i.seg == some h.seg
  let segOk := match i.seg with
    | none => true
    | some x => x < h.seg || (x == h.seg && !i.segEnd)
  let inner := match h.enc with
    | 0 => es.all (fun e => e.1 / 4096 == h.seg) && risesFrom (if same then i.idx else none) (es.map (fun e => e.1))
    | _ => !same || (match i.off with | none => true | some o => decide (o < h.off))
  h.enc != 2 && !(segOk && inner)

/-- An input after a packet that it accepts.  The flags MOVF and MNAN of an end packet that comes from another unit belong to that unit's
reduction and are not taken over (log 14). -/
def MeldIn.accept (i : MeldIn) (h : MHead) (es : List (Nat × Nat)) (src : BitVec 8) (p : Option Packet) : MeldIn :=
  if h.enc == 2 then { i with pseq := i.pseq + 1, ended := some h.status, src := src, acked := true }
  else
    let same := i.seg == some h.seg
    { i with
      seg := some h.seg, segEnd := h.lastp, pseq := i.pseq + 1, src := src,
      idx := (match h.enc, es.getLast? with | 0, some e => some e.1 | _, _ => if same then i.idx else none),
      off := if h.enc == 1 then some h.off else if same then i.off else none,
      ents := i.ents ++ es.map (fun e => (BitVec.ofNat 32 e.1, BitVec.ofNat 32 e.2)), pend := i.pend ++ [(h.seg, p)] }

/-- An input of a reduction. -/
def Meld.input (m : Meld) (lin : Nat) : MeldIn := tget m.ins MeldIn.start lin

/-- A reduction of a tenant at a unit. -/
def State.meldAt (s : State) (unit ten red : Nat) : Option Meld :=
  (tget s.fb.melds [] unit).find? (fun m => m.ten.toNat == ten && m.red.toNat == red)

/-- The reductions of a unit changed where they belong to a tenant and identifier. -/
def State.onMeld (s : State) (unit ten red : Nat) (f : Meld → Meld) : State :=
  s.withFb (fun b => { b with melds := tset b.melds unit ((tget b.melds [] unit).map (fun m =>
    if m.ten.toNat == ten && m.red.toNat == red then f m else m)) })

/-- The route of a reduction [15 before R385]. -/
def State.route (s : State) (ten : Nat) (red : BitVec 16) : Option Route :=
  s.fb.routes.find? (fun x => x.ten.toNat == ten && x.red == red)

/-- Where the send streams of a reduction's input stand. -/
def State.sendSites (s : State) (ten red lin : Nat) : List (Nat × Nat × Nat × SendStream) :=
  s.slots.flatMap (fun p =>
    match p.2.region with
    | none => []
    | some r => if r.ten != ten then [] else r.cores.flatMap (fun q => q.2.elems.flatMap (fun e =>
        (e.2.xe.sends.filter (fun x => x.red.toNat == red && x.lin.toNat == lin)).map (fun x => (p.1, q.1, e.1, x)))))

/-- Send streams of an input changed, or taken away, in an exchange element. -/
def XeSt.onSends (x : XeSt) (red lin : Nat) (f : SendStream → Option SendStream) : XeSt :=
  { x with sends := x.sends.filterMap (fun y => if y.red.toNat == red && y.lin.toNat == lin then f y else some y) }

/-- Every stream of an input changed in a region. -/
def Region.onSends (r : Region) (red lin : Nat) (f : SendStream → Option SendStream) : Region :=
  { r with cores := r.cores.map (fun p => (p.1, { p.2 with elems := p.2.elems.map (fun q => (q.1, { q.2 with xe := q.2.xe.onSends red lin f })) })) }

/-- Every stream of an input of a tenant changed, those of frozen regions too [02 R61; 15 R386]. -/
def State.onSends (s : State) (ten red lin : Nat) (f : SendStream → Option SendStream) : State :=
  let g (r : Region) : Region := if r.ten == ten then r.onSends red lin f else r
  { s with slots := s.slots.map (fun p => (p.1, { p.2 with region := p.2.region.map g, saved := p.2.saved.map (fun v => { v with region := g v.region }) })) }

/-- A fault of class UNREACH; the spec states no INFO1 for it (log 17). -/
def State.unreach (s : State) (acc : Nat) : State × FaultInfo :=
  let (v, s1) := s.draw
  (s1, { cls := fcUNREACH, va := 0, acc := acc, info1 := v, info2 := 0 })

/-- The fault MELDSTAT with the status of an input [15 R370]. -/
def meldFault (st : Nat) : FaultInfo := { FaultInfo.of 9 iMELDSTAT with info2 := BitVec.ofNat 64 (st % 16) }

/-- The end of an EOS firing that waits at a stream, and with it the stream [15 R386]. -/
def State.endEos (s : State) (site : Nat × Nat × Nat × SendStream) (f : Option FaultInfo) : State :=
  let (sl, c, el, y) := site
  let s1 := s.onXe sl c el (fun x => x.onSends y.red.toNat y.lin.toNat (fun _ => none))
  match y.ending with
  | none => s1
  | some (node, x, k) =>
    if y.orphan then s1
    else match f with
      | none => s1.endAccess sl c el node k [(2, Token.mk0 .eos x k 0 .none)]
      | some fi => s1.failAccess sl c el node x k [] fi

/-- The acknowledgement of an end packet reaches its stream [15 R386]. -/
def State.gotEndAck (s : State) (ten red lin status : Nat) : State :=
  match (s.sendSites ten red lin).find? (fun q => q.2.2.2.ending.isSome) with
  | none => s
  | some q => s.endEos q (if status == mdOK then none else some (meldFault status))

/-- An error notice for a packet of a stream: the stream has failed; a firing that waits for the acknowledgement of an end packet
that did not arrive ends [02 R49; 15 R386]. -/
def State.failStream (s : State) (ten red lin status : Nat) : State :=
  let s1 := s.onSends ten red lin (fun y => some { y with
    failed := some (y.failed.getD status), unacked := 0, wait := if y.ending.isSome && 1 < status then y.wait else [] })
  if status ≤ 1 then
    match (s1.sendSites ten red lin).find? (fun q => q.2.2.2.ending.isSome) with
    | none => s1
    | some q =>
      let (s2, f) := s1.unreach 6
      s2.endEos q (some f)
  else s1

/-- The identity that a meld packet carries in OPQ: the unit, whether it is an output for a receiver, LIN, RED and PSEQ (log 13). -/
def meldOpq (unit : Nat) (out : Bool) (h : MHead) : BitVec 40 :=
  BitVec.ofNat 40 (unit % 16 + out.toNat * 2 ^ 8 + h.lin * 2 ^ 9 + h.red * 2 ^ 16 + h.pseq % 256 * 2 ^ 32)

/-- An end packet acknowledged to the stream that sent it [15 R386]. -/
def State.ackEnd (s : State) (src : BitVec 8) (ten red lin status : Nat) : State :=
  if src == s.self then s.gotEndAck ten red lin status
  else s.sendCtl src ten 8 (leOf 2 red ++ leOf 1 lin ++ leOf 1 status)

/-- The lowest segment that an input can still bring: of a packet that waits, or after its last [02 R49]; none once it has ended. -/
def MeldIn.reach (i : MeldIn) : Option Nat :=
  match i.pend with
  | (g, _) :: _ => some g
  | [] =>
    if i.ended.isSome then none
    else match i.seg with
      | none => some 0
      | some x => some (if i.segEnd then x + 1 else x)

/-- The smaller of two bounds, where none is no bound. -/
def minBound (a b : Option Nat) : Option Nat :=
  match a, b with
  | some x, some y => some (if x < y then x else y)
  | some x, none => some x
  | none, b => b

/-- The lowest segment that has entries. -/
def Meld.lowest (m : Meld) : Option Nat :=
  ((List.range m.nin).flatMap (fun l => (m.input l).ents.map (fun e => e.1.toNat / 4096))).foldl (fun b x => minBound b (some x)) none

/-- The segment up to which the reduction takes packets out of its inputs: the one that it forms (log 14). -/
def Meld.reach (m : Meld) : Option Nat := minBound m.lowest ((List.range m.nin).foldl (fun b l => minBound b (m.input l).reach) none)

/-- Whether the reduction has reached a segment. -/
def Meld.reached (m : Meld) (g : Nat) : Bool := match m.reach with | some x => g ≤ x | none => true

/-- Credit that comes back to what feeds an input on this device: its send streams, or the reduction below [02 R47]. -/
def State.creditLin (s : State) (ten red lin : Nat) (dev : BitVec 8) : State :=
  (s.onSends ten red lin (fun y => some { y with unacked := y.unacked - 1 })).withFb (fun f => { f with
    outs := f.outs.map (fun o => if o.ten.toNat == ten && o.red.toNat == red && o.dev == dev && o.up.any (fun u => u.2.toNat == lin) then
      { o with unacked := o.unacked - 1 } else o) })

/-- Credit that comes back from a receiver on a device [15 R387]. -/
def State.creditOut (s : State) (ten red : Nat) (dev : BitVec 8) : State :=
  s.withFb (fun f => { f with
    outs := f.outs.map (fun o => if o.ten.toNat == ten && o.red.toNat == red && o.dev == dev && o.up.isNone then { o with unacked := o.unacked - 1 } else o) })

/-- The packets that the reduction takes out of its inputs: the credit of each goes back, to another device by a delivery ack
[02 R41, R47] (log 14). -/
def State.meldDrain (s : State) (unit ten red : Nat) : State :=
  match s.meldAt unit ten red with
  | none => s
  | some m =>
    let out := (List.range m.nin).flatMap (fun l => ((m.input l).pend.filter (fun q => m.reached q.1)).map (fun q => (l, q.2)))
    let s1 := s.onMeld unit ten red (fun m => { m with
      ins := (List.range m.nin).map (fun l => (l, { m.input l with pend := (m.input l).pend.filter (fun q => !m.reached q.1) })) })
    out.foldl (fun s q => match q.2 with
      | some p => s.deliveryAck p { cls := 0, late := false, flags := 0, info1 := 0 }
      | none => s.creditLin ten red q.1 s.self) s1

/-- What a unit does with a packet: it holds it until the reduction reaches it, is done with it, or ends its input or refuses it with the
status of an error notice. -/
inductive MeldRes where
  | held
  | gone
  | bad (st : Nat)
deriving DecidableEq, Repr

/-- A meld packet at a unit, of another device (or none, of this one): refused with REFUSED without a receiver; else judged, and taken or
the input ended [02 R41, R47 to R49]. -/
def State.meldTake (s : State) (unit ten : Nat) (p : Option Packet) (b : List Byte) : State × MeldRes :=
  let h := MHead.ofBytes b
  let src := match p with | some q => q.src | none => s.self
  match s.meldAt unit ten h.red with
  | none => (s, .bad 1)
  | some m =>
    if b.length < 16 || m.nin < h.lin + 1 then (s, .bad 1)
    else
      let i := m.input h.lin
      let put (s : State) (x : MeldIn) : State := s.onMeld unit ten h.red (fun m => { m with ins := tset m.ins h.lin x, last := s.time })
      match i.ended with
      | some st =>
        if h.enc == 2 && !i.acked then ((put s { i with acked := true }).ackEnd src ten h.red h.lin st, .gone) else (s, .gone)
      | none =>
        let body := b.drop 16
        let es := h.entries body
        let bad := if i.format m.vti h body.length then some mdFORMAT else if i.order h es then some mdORDER else none
        match bad with
        | some st =>
          let s1 := put s { i with ended := some st, src := src, acked := h.enc == 2 }
          ((if h.enc == 2 then s1.ackEnd src ten h.red h.lin st else s1).meldDrain unit ten h.red, .bad (3 + (if st == mdORDER then 1 else 2)))
        | none =>
          let s1 := put s (i.accept h es src p)
          if h.enc == 2 then ((s1.ackEnd src ten h.red h.lin h.status).meldDrain unit ten h.red, .gone)
          else (s1.meldDrain unit ten h.red, .held)

/-- Receive streams: the receiver of a reduction on this device [15 R387]. -/
def State.receiver (s : State) (ten : Nat) (red : BitVec 16) : Option Receiver :=
  s.fb.recvs.find? (fun x => x.ten.toNat == ten && x.red == red)

/-- The receivers of a reduction changed. -/
def State.onRecv (s : State) (ten : Nat) (red : BitVec 16) (f : Receiver → Receiver) : State :=
  s.withFb (fun (b : Fabric) => { b with recvs := b.recvs.map (fun x => if x.ten.toNat == ten && x.red == red then f x else x) })

/-- The tokens of an SMRECV by its packet: to DST0 and DST1 [15 R387]. -/
def recvToks (x : BitVec 12) (c : BitVec 8) (b : List Byte) : List (Nat × Token) :=
  let h := MHead.ofBytes b
  if h.enc == 2 then
    [(0, Token.mk0 .eos x c 0 .none),
     (1, Token.scalarOf x c (BitVec.ofNat 64 (h.status + h.movf.toNat * 2 ^ 4 + h.mnan.toNat * 2 ^ 5 + h.lin * 2 ^ 8)))]
  else
    [(0, Token.mk0 .tile x c 0 (.bytes (b ++ List.replicate (2048 - b.length) 0#8))),
     (1, Token.scalarOf x c (BitVec.ofNat 64 (b.length % 4096 + h.lastp.toNat * 2 ^ 12 + (h.enc == 1).toNat * 2 ^ 13)))]

/-- The output packet of a PSEQ that waits at a receiver. -/
def Receiver.find (x : Receiver) (pseq : BitVec 16) : Option Packet :=
  x.pkts.find? (fun p => (MHead.ofBytes (pktContent p)).pseq == pseq.toNat)

/-- One waiting SMRECV of a reduction served, the oldest first; the credit of its packet goes back [15 R387]. -/
def State.serveRecv (s : State) (ten : Nat) (red : BitVec 16) : Option State :=
  match s.receiver ten red with
  | none => none
  | some v =>
    match v.xe with
    | none => none
    | some (sl, c, el) =>
      match s.region sl with
      | none => none
      | some r =>
        let xe := (r.elem c el).xe
        let mine (o : XOp) : Bool := match o.kind with | .smrecv q _ => q == red | _ => false
        match xe.recvs.find? (fun y => y.red == red), xe.ops.find? mine with
        | some y, some o =>
          (match v.find y.pseq with
            | none => none
            | some p =>
              let b := pktContent p
              let fin := (MHead.ofBytes b).enc == 2
              let s0 := if p.src == s.self then s.creditOut ten red.toNat s.self else s.deliveryAck p { cls := 0, late := false, flags := 0, info1 := 0 }
              let s1 := s0.onRecv ten red (fun x => { x with pkts := dropFirst (· == p) x.pkts })
              let s2 : State := if fin then s1.withFb (fun (f : Fabric) => { f with recvs := f.recvs.filter (fun (x : Receiver) => !(x.ten.toNat == ten && x.red == red)) }) else s1
              let s3 := s2.onXe sl c el (fun x => { x with
                ops := x.ops.filter (fun z => z.num != o.num),
                recvs := if fin then x.recvs.filter (fun z => z.red != red) else x.recvs.map (fun z => if z.red == red then { z with pseq := z.pseq + 1 } else z) })
              some (if o.orphan then s3 else s3.endAccess sl c el o.node o.colour (recvToks o.ctx o.colour b)))
        | _, _ => none

/-- Waiting SMRECVs of a reduction served. -/
def State.serveRecvs (s : State) (ten : Nat) (red : BitVec 16) : Nat → State
  | 0 => s
  | n + 1 =>
    match s.serveRecv ten red with
    | none => s
    | some s1 => s1.serveRecvs ten red n

/-- An output packet on this device: it waits in the kitty for its receiver, or serves it; the end packet ends the reduction's
route here [15 R387; 05 R128]. -/
def State.outputTake (s : State) (p : Packet) : State :=
  let ten := p.ten.toNat
  let h := MHead.ofBytes (pktContent p)
  let red := BitVec.ofNat 16 h.red
  let s1 : State := match s.receiver ten red with
    | some _ => s.onRecv ten red (fun x => { x with pkts := x.pkts ++ [p] })
    | none => s.withFb (fun (f : Fabric) => { f with recvs := f.recvs ++ [{ ten := p.ten, red := red, xe := none, pkts := [p] }] })
  let s2 : State := if h.enc == 2 then
      s1.withFb (fun (f : Fabric) => { f with routes := f.routes.map (fun (x : Route) => if x.ten == p.ten && x.red == red then { x with isOver := true } else x) })
    else s1
  s2.serveRecvs ten red 8

/-- The members of a tenant's group [02 R58]. -/
def State.group (s : State) (ten g : Nat) : Option (List (BitVec 8)) :=
  (s.fb.groups.find? (fun x => x.1 == ten && x.2.1 == g)).map (fun x => x.2.2)

/-- An output packet put in the stream of one of its destinations. -/
def State.addOut (s : State) (o : OutStream) (b : List Byte) : State :=
  let same (x : OutStream) : Bool := x.ten == o.ten && x.red == o.red && x.dev == o.dev && x.up == o.up
  s.withFb (fun f => { f with
    outs := if f.outs.any same then f.outs.map (fun x => if same x then { x with queue := x.queue ++ [b] } else x) else f.outs ++ [{ o with queue := o.queue ++ [b] }] })

/-- One output packet for the reduction above, or for every member of the multicast group [02 R54]. -/
def State.meldOut (s : State) (m : Meld) (h : MHead) (body : List Byte) : State :=
  match m.up with
  | some (dev, unit, lin) =>
    s.addOut { ten := m.ten, red := m.red, dev := dev, up := some (unit, lin), unacked := 0, queue := [] } (({ h with lin := lin.toNat } : MHead).bytes ++ body)
  | none =>
    ((s.group m.ten.toNat m.mcg).getD []).foldl (fun s d =>
      s.addOut { ten := m.ten, red := m.red, dev := d, up := none, unacked := 0, queue := [] } (h.bytes ++ body)) s

/-- Output packets in order. -/
def State.meldOuts (s : State) (m : Meld) (ps : List (MHead × List Byte)) : State := ps.foldl (fun s p => s.meldOut m p.1 p.2) s

/-- The output streams of a device changed where they serve the same reduction and destination. -/
def State.onOut (s : State) (o : OutStream) (f : OutStream → OutStream) : State :=
  s.withFb (fun b => { b with outs := b.outs.map (fun x => if x.ten == o.ten && x.red == o.red && x.dev == o.dev && x.up == o.up then f x else x) })

/-- Output streams that a notice for one of their packets ends: what they still hold has no receiver [02 R41]. -/
def State.dropOut (s : State) (q : Packet) : State :=
  let red := bitsAt q.opq.toNat 16 16
  s.withFb (fun f => { f with outs := f.outs.filter (fun o =>
    !(o.ten == q.ten && o.red.toNat == red && o.dev == q.dst && (if q.opq.getLsbD 8 then o.up.isNone else o.up.any (fun u => u.2.toNat == bitsAt q.opq.toNat 9 5)))) })

/-- The credit of the meld packet that an acknowledgement names comes back [02 R47; 15 R387] (log 13). -/
def State.creditId (s : State) (b : List Byte) : State :=
  let opq := leNum ((b.drop 5).take 5)
  let dev := BitVec.ofNat 8 (leNum ((b.drop 1).take 1))
  let ten := leNum ((b.drop 3).take 1)
  if leNum ((b.drop 4).take 1) != 5 then s
  else if bitsAt opq 8 1 == 1 then s.creditOut ten (bitsAt opq 16 16) dev
  else s.creditLin ten (bitsAt opq 16 16) (bitsAt opq 9 5) dev

/-- An output stream sends its next packet. -/
def State.sendOut (s : State) (o : OutStream) (b : List Byte) : State :=
  let ten := o.ten.toNat
  let h := MHead.ofBytes b
  let s1 := s.onOut o (fun x => { x with queue := x.queue.drop 1, unacked := x.unacked + 1 })
  match o.up with
  | none =>
    let p := s1.packet o.dev 3 ten 5 (meldOpq 0 true h) b
    if o.dev == s1.self then s1.outputTake p else s1.send p
  | some (unit, _) =>
    if o.dev != s1.self then s1.send (s1.packet o.dev 3 ten 5 (meldOpq unit.toNat false h) b)
    else match s1.meldTake unit.toNat ten none b with
      | (s2, .held) => s2
      | (s2, .gone) => s2.onOut o (fun x => { x with unacked := x.unacked - 1 })
      | (s2, .bad _) => s2.withFb (fun f => { f with outs := f.outs.filter (fun x => !(x.ten == o.ten && x.red == o.red && x.dev == o.dev && x.up == o.up)) })

/-- A send stream sends the next packet that waits for credit to the unit of its route [02 R47; 15 R385]. -/
def State.sendWait (s : State) (y : SendStream) (ten : Nat) (b : List Byte) : State :=
  let h := MHead.ofBytes b
  let s1 := s.onSends ten h.red h.lin (fun z => some { z with wait := z.wait.drop 1, unacked := z.unacked + 1 })
  match s1.route ten y.red with
  | none => s1.failStream ten h.red h.lin 1
  | some rt =>
    if rt.dev != s1.self then s1.send (s1.packet rt.dev 3 ten 5 (meldOpq rt.unit.toNat false h) b)
    else match s1.meldTake rt.unit.toNat ten none b with
      | (s2, .held) => s2
      | (s2, .gone) => s2.onSends ten h.red h.lin (fun z => some { z with unacked := z.unacked - 1 })
      | (s2, .bad st) => s2.failStream ten h.red h.lin st

/-- A firing of SMSEND whose last entry has been placed emits its count [15 R385]. -/
def State.placed (s : State) (site : Nat × Nat × Nat × SendStream) : State :=
  let (sl, c, el, y) := site
  match y.placing with
  | none => s
  | some (node, x, k, n) =>
    let s1 := s.onXe sl c el (fun v => v.onSends y.red.toNat y.lin.toNat (fun z => some { z with placing := none, orphan := false }))
    if y.orphan then s1 else s1.endAccess sl c el node k [(2, Token.scalarOf x k (BitVec.ofNat 64 n))]

/-- Every send stream of the device with its tenant and place. -/
def State.allSends (s : State) : List (Nat × Nat × Nat × Nat × SendStream) :=
  s.slots.flatMap (fun p =>
    match p.2.region with
    | none => []
    | some r => r.cores.flatMap (fun q => q.2.elems.flatMap (fun e => e.2.xe.sends.map (fun y => (r.ten, p.1, q.1, e.1, y)))))

/-- One thing that the meld streams do of themselves: a packet goes out on credit, or a firing that has placed its entries ends. -/
def State.meldStep (s : State) : Option State :=
  match s.fb.outs.find? (fun o => !o.queue.isEmpty && o.unacked < 8) with
  | some o => some (s.sendOut o (o.queue.headD []))
  | none =>
    match s.allSends.find? (fun q => !q.2.2.2.2.wait.isEmpty && q.2.2.2.2.unacked < 8) with
    | some q => some (s.sendWait q.2.2.2.2 q.1 (q.2.2.2.2.wait.headD []))
    | none => (s.allSends.find? (fun q => q.2.2.2.2.wait.isEmpty && q.2.2.2.2.placing.isSome)).map (fun q => s.placed q.2)

/-- The number of things that the meld streams have to do. -/
def State.meldLoad (s : State) : Nat :=
  (s.fb.outs.map (fun o => o.queue.length)).sum + (s.allSends.map (fun q => q.2.2.2.2.wait.length + 1)).sum + 1

/-- The meld streams go on as far as their credit lets them; an output stream that is done is forgotten [02 R47; 15 R385, R387]. -/
def State.meldPump (s : State) : Nat → State
  | 0 => s
  | n + 1 =>
    match s.meldStep with
    | some t => t.meldPump n
    | none => s.withFb (fun f => { f with outs := f.outs.filter (fun o => !(o.queue.isEmpty && o.unacked == 0)) })

/-- The meld streams go on. -/
def State.melds (s : State) : State := s.meldPump s.meldLoad

/-- A value of an input as FP32. -/
def meldF32 (vt : Bool) (v : W32) : W32 := if vt then v <<< 16 else v

/-- The sum of the values of one index in LIN order, with MOVF and MNAN [02 R50]. -/
def meldSum (acc : W32) (nan movf mnan : Bool) : List W32 → W32 × Bool × Bool
  | [] => (acc, movf, mnan)
  | v :: r =>
    let t := (add32 acc v).1
    let nan1 := nan || (f32 v).isNan
    meldSum t nan1 (movf || ((f32 t).isInf && !(f32 v).isInf && !(f32 acc).isInf)) (mnan || ((f32 t).isNan && !nan1)) r

/-- The output value of one index: rounded to the output type, a NaN in its one form [02 R50]. -/
def meldValue (vto : Bool) (vs : List W32) : Nat × Bool × Bool :=
  match vs with
  | [] => (0, false, false)
  | v :: r =>
    let (t, movf, mnan) := meldSum v (f32 v).isNan false false r
    if (f32 t).isNan then (if vto then 0x7FC0 else 0x7FC00000, movf, mnan)
    else if vto then
      let q := ((fltFmt 2).conv rne (f32 t)).1
      (q, movf || ((bf16 q).isInf && !(f32 t).isInf), mnan)
    else (t.toNat, movf, mnan)

/-- Indices in rising order, each once. -/
def insertNat (x : Nat) : List Nat → List Nat
  | [] => [x]
  | y :: r => if x < y then x :: y :: r else if x = y then y :: r else y :: insertNat x r

/-- The entries of an output segment: index and value, with the flags [02 R50]. -/
def Meld.segment (m : Meld) (seg : Nat) : List (Nat × Nat) × Bool × Bool :=
  let lins := List.range m.nin
  let idxs := (lins.flatMap (fun l => ((m.input l).ents.map (fun e => e.1.toNat)).filter (fun i => i / 4096 == seg))).foldr insertNat []
  let rows := idxs.map (fun i =>
    (i, meldValue m.vto (lins.filterMap (fun l => ((m.input l).ents.find? (fun e => e.1.toNat == i)).map (fun e => meldF32 m.vti e.2)))))
  (rows.map (fun x => (x.1, x.2.1)), rows.any (fun x => x.2.2.1), rows.any (fun x => x.2.2.2))

/-- Whether every input has ended or has passed a segment [02 R50]. -/
def Meld.passed (m : Meld) (seg : Nat) : Bool :=
  (List.range m.nin).all (fun l =>
    let i := m.input l
    i.ended.isSome || (match i.seg with | none => false | some x => decide (seg < x) || (x == seg && i.segEnd)))

/-- A segment cut into sparse packets: every packet but the last is full [18 R407]. -/
def sparsePackets (m : Meld) (seg : Nat) : Nat → Nat → List (Nat × Nat) → List (MHead × List Byte)
  | 0, _, _ => []
  | f + 1, pseq, es =>
    let n := meldFull m.vto
    let c := es.take n
    let rest := es.drop n
    ({ seg := seg, cnt := c.length, enc := 0, vt := m.vto, lastp := rest.isEmpty, status := 0, lin := 0, red := m.red.toNat,
       pseq := pseq % 65536, off := 0 }, c.flatMap (fun e => leOf 4 e.1 ++ leOf (meldVal m.vto) e.2)) ::
      (if rest.isEmpty then [] else sparsePackets m seg f (pseq + 1) rest)

/-- A segment as all of its dense pieces [18 R407]. -/
def densePackets (m : Meld) (seg pseq : Nat) (es : List (Nat × Nat)) : List (MHead × List Byte) :=
  let n := meldPiece m.vto
  let k := 4096 / n
  (List.range k).map (fun i =>
    let at_ (j : Nat) : Option Nat := (es.find? (fun e => e.1 == 4096 * seg + n * i + j)).map (fun e => e.2)
    let mask := (List.range n).foldl (fun m j => if (at_ j).isSome then m + 2 ^ j else m) 0
    ({ seg := seg, cnt := n, enc := 1, vt := m.vto, lastp := i + 1 == k, status := 0, lin := 0, red := m.red.toNat,
       pseq := (pseq + i) % 65536, off := n * i },
      leOf (n / 8) mask ++ (List.range n).flatMap (fun j => leOf (meldVal m.vto) ((at_ j).getD 0))))

/-- The 1 KiB grants that a reduction's entries can take: those of each segment of each input, rounded up [02 R51]. -/
def Meld.grants (m : Meld) : Nat :=
  ((List.range m.nin).map (fun l =>
    let gs := (m.input l).ents.map (fun e => e.1.toNat / 4096)
    (gs.eraseDups.map (fun g => ((gs.filter (· == g)).length * (4 + meldVal m.vti) + 1023) / 1024)).sum)).sum

/-- Whether the buffer of a unit has room for every grant beside the reserved dense frames and the packets of every input's credit: then no
segment is densified early [02 R47, R51] (log 14). -/
def meldRoom (ms : List Meld) : Bool := (ms.map (fun m => 17664 + 8 * 2048 * m.nin + 1024 * m.grants)).sum ≤ 2 ^ 21

/-- OUTPUT_SEGMENT: the lowest segment that every input has passed is emitted, dense above the threshold, or early when the buffer
cannot grant its space [02 R50, R51; 18 R407]. -/
def State.outputSegment (s : State) (unit red : Nat) : State :=
  match (tget s.fb.melds [] unit).find? (fun m => m.red.toNat == red && (match m.lowest with | some g => m.passed g | none => false)) with
  | none => s
  | some m =>
    match m.lowest with
    | none => s
    | some g =>
      let (es, movf, mnan) := m.segment g
      let (v, s0) := if meldRoom (tget s.fb.melds [] unit) then (0, s) else s.draw
      let ps := if 16 * m.dth < es.length || v.getLsbD 0 then densePackets m g m.pseq.toNat es
        else sparsePackets m g (es.length + 1) m.pseq.toNat es
      let s1 := s0.onMeld unit m.ten.toNat red (fun m => { m with
        ins := m.ins.map (fun p => (p.1, { p.2 with ents := p.2.ents.filter (fun e => e.1.toNat / 4096 != g) })),
        next := g + 1, pseq := m.pseq + BitVec.ofNat 16 ps.length, movf := m.movf || movf, mnan := m.mnan || mnan, last := s.time })
      (s1.meldDrain unit m.ten.toNat red).meldOuts m ps

/-- OUTPUT_END: with every input ended and emitted, the end packet goes out and the reduction is over [02 R53]. -/
def State.outputEnd (s : State) (unit red : Nat) : State :=
  match (tget s.fb.melds [] unit).find? (fun m =>
    m.red.toNat == red && m.lowest.isNone && (List.range m.nin).all (fun l => (m.input l).ended.isSome)) with
  | none => s
  | some m =>
    let bad := ((List.range m.nin).find? (fun l => (m.input l).ended != some mdOK))
    let h : MHead := { seg := 0, cnt := 0, enc := 2, vt := m.vto, lastp := false,
                       status := match bad with | some l => (m.input l).ended.getD 0 | none => 0,
                       lin := bad.getD 0, red := red, pseq := m.pseq.toNat, off := 0, movf := m.movf, mnan := m.mnan }
    let s1 := s.withFb (fun b => { b with melds := tset b.melds unit ((tget b.melds [] unit).filter (fun x => !(x.ten == m.ten && x.red == m.red))) })
    s1.meldOuts m [(h, [])]

/-- A packet of the stream's buffer framed: its header and entries [02 R48; 15 R385]. -/
def SendStream.frame (y : SendStream) (lastp : Bool) : MHead × List Byte :=
  let vt := y.vt == 1#1
  ({ seg := ((y.buf.headD (0, 0)).1.toNat) / 4096, cnt := y.buf.length, enc := 0, vt := vt, lastp := lastp, status := 0, lin := y.lin.toNat,
     red := y.red.toNat, pseq := y.pseq.toNat, off := 0 },
   y.buf.flatMap (fun e => leOf 4 e.1.toNat ++ leOf (meldVal vt) e.2.toNat))

/-- Entries placed in order in a stream's buffer, and the packets that this completes [15 R385]. -/
def SendStream.place (y : SendStream) : List (W32 × W32) → SendStream × List (MHead × List Byte)
  | [] => (y, [])
  | e :: r =>
    match y.buf with
    | [] => ({ y with buf := [e] } : SendStream).place r
    | b :: _ =>
      let other := b.1.toNat / 4096 != e.1.toNat / 4096
      if other || meldFull (y.vt == 1#1) ≤ y.buf.length then
        let (z, ps) := ({ y with buf := [e], pseq := y.pseq + 1 } : SendStream).place r
        (z, y.frame other :: ps)
      else ({ y with buf := y.buf ++ [e] } : SendStream).place r

/-- The packets that end a stream: the buffered one and the end packet [15 R386]. -/
def SendStream.close (y : SendStream) (status : Nat) : List (MHead × List Byte) :=
  let n : BitVec 16 := if y.buf.isEmpty then 0 else 1
  (if y.buf.isEmpty then [] else [y.frame true]) ++
    [({ seg := 0, cnt := 0, enc := 2, vt := y.vt == 1#1, lastp := false, status := status, lin := y.lin.toNat, red := y.red.toNat,
        pseq := (y.pseq + n).toNat, off := 0 }, [])]

/-- The entries of an SMSEND operand; none where it does not fit [15 R385]. -/
def sendEntries (vt : Bool) (e : Elem) (t0 : Token) : Option (List (W32 × W32)) :=
  let t := e.zeroTok t0
  match t.kind with
  | .scalar =>
    let v := t.value.toNat
    some [(BitVec.ofNat 32 v, BitVec.ofNat 32 (if vt then bitsAt v 32 16 else bitsAt v 32 32))]
  | .tile =>
    let b := t.bytes
    let n := leNum (b.take 4)
    let w := 4 + meldVal vt
    if b.length < 8 + n * w then none
    else some ((chunks w n (b.drop 8)).map (fun e => (BitVec.ofNat 32 (leNum (e.take 4)), BitVec.ofNat 32 (leNum (e.drop 4)))))
  | _ => none

/-- A stream that has placed nothing. -/
def SendStream.start (l : LitQ) : SendStream :=
  { red := l.red, lin := l.lin, vt := l.vt, buf := [], wait := [], placing := none, pseq := 0, failed := none, unacked := 0, ending := none, orphan := false }

/-- The bytes of framed packets. -/
def framed (ps : List (MHead × List Byte)) : List (List Byte) := ps.map (fun p => p.1.bytes ++ p.2)

/-- A stream written at its exchange element, in its place or as a new one. -/
def XeSt.putSend (x : XeSt) (y : SendStream) : XeSt :=
  if x.sends.any (fun z => z.red == y.red && z.lin == y.lin) then
    { x with sends := x.sends.map (fun z => if z.red == y.red && z.lin == y.lin then y else z) }
  else { x with sends := x.sends ++ [y] }

/-- The firing with a stream of its element written. -/
def Fire.putSend (f : Fire) (y : SendStream) : Fire := f.withE { f.e with xe := f.e.xe.putSend y }

/-- The firing without a stream. -/
def Fire.dropSend (f : Fire) (l : LitQ) : Fire := f.withE { f.e with xe := f.e.xe.onSends l.red.toNat l.lin.toNat (fun _ => none) }

/-- An entry firing of SMSEND: it ends once its last entry is placed, which needs credit for the packets before that entry
[02 R47; 15 R385, R386]. -/
def Fire.sendEntry (f : Fire) (s : State) (l : LitQ) (y : SendStream) : State :=
  match y.failed with
  | some st =>
    if st ≤ 1 then
      let (s1, fi) := s.unreach 6
      f.fault s1 fi
    else f.fault s (meldFault (st - 3))
  | none =>
    match (if y.vt == l.vt then sendEntries (l.vt == 1#1) f.e f.a else none) with
    | none => f.opf s iPAYLOAD
    | some es =>
      let (z, ps) := y.place es
      if ps.isEmpty then ((f.putSend z).emitScalar (BitVec.ofNat 64 es.length)).finish s
      else ((f.open.putSend { z with wait := framed ps, placing := some (f.node, f.ctx, f.colour, es.length), orphan := false }).finish s).melds

/-- The EOS firing of SMSEND: it ends the stream and waits for the acknowledgement [15 R386]. -/
def Fire.sendEos (f : Fire) (s : State) (l : LitQ) (y : SendStream) : State :=
  if y.failed.any (fun st => st ≤ 1) then
    let (s1, fi) := s.unreach 6
    (f.dropSend l).fault s1 fi
  else
    let z : SendStream := { y with buf := [], wait := framed (y.close mdOK), ending := some (f.node, f.ctx, f.colour), orphan := false }
    ((f.open.putSend z).finish s).melds

/-- A FAULT at SMSEND: FAULT tokens, and the stream is over; its last packet and an end packet with status ABORT go out on what is left
of its credit [15 R386]. -/
def Fire.sendFault (f : Fire) (s : State) (aux : BitVec 8) (l : LitQ) (rt : Option Route) (y : SendStream) : State :=
  let s1 := ((f.dropSend l).emit (f.tok .fault aux .none) false).finish s
  match rt with
  | some r =>
    if y.failed.any (fun st => st ≤ 1) then s1
    else ((framed (y.close mdABORT)).foldl (fun s b =>
      s.addOut { ten := r.ten, red := r.red, dev := r.dev, up := some (r.unit, y.lin), unacked := y.unacked, queue := [] } b) s1).melds
  | none => s1

/-- SMSEND [15 R385, R386]: a firing begins while its stream holds credit for a packet and no EOS firing of it waits; a FAULT, while none waits and no
packet is being placed. -/
def execSmsend (h : NodeHd) (l : LitQ) (s : State) : Out :=
  .next (match s.startFiring h with
    | none => s
    | some (cls, f) =>
      let old := f.e.xe.sends.find? (fun z => z.red == l.red && z.lin == l.lin)
      let y := old.getD (SendStream.start l)
      let rt := s.route f.r.ten l.red
      match cls with
      | .nil => (f.emit (f.tok .nil 0 .none) false).finish s
      | .fault aux => if y.ending.isSome || y.placing.isSome then s else (f.sendFault s aux l rt y).run
      | _ =>
        if y.ending.isSome || y.placing.isSome || (8 ≤ y.unacked && y.failed.isNone) then s
        else match rt with
          | none => (f.opf s iNORED).run
          | some _ =>
            if old.isNone && 4 ≤ f.e.xe.sends.length then (f.opf s iSTREAMS).run
            else match cls with
              | .eos => (f.sendEos s l y).run
              | _ => (f.sendEntry s l y).run)

/-- SMRECV: a receive stream, and the wait for the next output packet [15 R387]. -/
def execSmrecv (h : NodeHd) (l : LitQ) (s : State) : Out :=
  .next (s.fire h (fun f =>
    let ten := f.r.ten
    match s.route ten l.red with
    | none => f.opf s iNORED
    | some rt =>
      let here := s.receiver ten l.red
      let other := match here with
        | some v => (match v.xe with | some q => q != (f.slot, f.core, f.elem) | none => false)
        | none => false
      let mine := f.e.xe.recvs.any (fun y => y.red == l.red)
      if rt.vto != (l.vt == 1#1) then f.opf s iPAYLOAD
      else if other || (!mine && 4 ≤ f.e.xe.recvs.length) then f.opf s iSTREAMS
      else
        let f1 := if mine then f else f.withE { f.e with xe := { f.e.xe with recvs := f.e.xe.recvs ++ [⟨l.red, 0⟩] } }
        let s1 : State := match here with
          | some _ => s.onRecv ten l.red (fun v => { v with xe := some (f.slot, f.core, f.elem) })
          | none => s.withFb (fun (b : Fabric) => { b with recvs := b.recvs ++ [{ ten := BitVec.ofNat 4 ten, red := l.red, xe := some (f.slot, f.core, f.elem), pkts := [] }] })
        ((f1.beginX s1 (f.xop s1 (.smrecv l.red l.vt) 0 [] f.a)).serveRecvs ten l.red 1).melds)).run

/-- OUTPUT_SEGMENT [02 R50, R51; 18 R407]. -/
def execOutputSegment (unit red : Nat) (s : State) : Out := .next (s.outputSegment unit red).melds.run

/-- OUTPUT_END [02 R53]. -/
def execOutputEnd (unit red : Nat) (s : State) : Out := .next (s.outputEnd unit red).melds.run

end Sys2Proof.Machine
end

