-- ==== Sys2Proof/Machine/Coll.lean ====
section
/-! DEFINITION. The collective sequencer: instances, tricks, chunks, holds, and the exchange nodes CLAUNCH and CRECV
[02 R55 to R62; 15 R388, R389; 18 R405, R406]. -/

namespace Sys2Proof.Machine

/-- Statuses of a collective [02 R60]. -/
def clDONE : Nat := 0
/-- ABORTED. -/
def clABORTED : Nat := 1
/-- TIMEOUT. -/
def clTIMEOUT : Nat := 2
/-- INSTSKEW. -/
def clINSTSKEW : Nat := 3
/-- UNREACH. -/
def clUNREACH : Nat := 4
/-- FAULT. -/
def clFAULT : Nat := 5
/-- Class COLL [04 R99]. -/
def fcCOLL : Nat := 0xF

/-- A loaded collective of a tenant. -/
def State.coll (s : State) (ten num : Nat) : Option Coll := s.fb.colls.find? (fun k => k.ten == ten && k.num == num)

/-- A loaded collective changed. -/
def State.onColl (s : State) (ten num : Nat) (f : Coll → Coll) : State :=
  s.withFb (fun b => { b with colls := b.colls.map (fun k => if k.ten == ten && k.num == num then f k else k) })

/-- The ranks of a collective: the members of its group [02 R58]. -/
def State.ranks (s : State) (k : Coll) : List (BitVec 8) := (s.group k.ten k.group).getD []

/-- A control message of a collective to every rank but this device: its number, instance and, for ARMED, the reduction
[02 R58] (log 13). -/
def State.collMsg (s : State) (k : Coll) (kind : Nat) (inst : BitVec 4) (red : BitVec 16) : State :=
  ((s.ranks k).filter (fun d => d != s.self)).foldl (fun s d =>
    s.sendCtl d k.ten (BitVec.ofNat 40 kind) (leOf 1 k.num ++ leOf 1 inst.toNat ++ leOf 2 red.toNat)) s

/-- A firing that ends because its collective ended: FAULT of class COLL, and the OPFAULT trap; no record of its own
[15 R387, R389]. -/
def State.failColl (s : State) (slot core elem : Nat) (o : XOp) (toks : List (Nat × Token)) : State :=
  if o.orphan then s
  else (s.endAccess slot core elem o.node o.colour toks).onRegion slot (fun r => r.raise core 3 (opTval o.ctx o.colour))

/-- The exchange operations of a region in firing order: core, element, operation. -/
def Region.xops (r : Region) : List (Nat × Nat × XOp) :=
  r.cores.flatMap (fun p => p.2.elems.flatMap (fun q => q.2.xe.ops.map (fun o => (p.1, q.1, o))))

/-- The oldest exchange operation of a list. -/
def oldestX (l : List (Nat × Nat × XOp)) : Option (Nat × Nat × XOp) :=
  l.foldl (fun b x => match b with | none => some x | some y => if x.2.2.num < y.2.2.num then some x else some y) none

/-- The SCALAR of a completion: status, instance, chunk index reached [15 R389]. -/
def collWord (status : Nat) (inst : BitVec 4) (done : Nat) : Word := BitVec.ofNat 64 (status + inst.toNat * 2 ^ 8 + done % 2 ^ 32 * 2 ^ 32)

/-- Bytes that the sequencer reads for a collective on path COL, possibly from its staging [09 R207]. -/
def State.cget (s : State) (ten num : Nat) (va : Word) (n : Nat) : State × Except FaultInfo (List Byte) :=
  match s.uget ten needR apLocal va n with
  | (s1, .ok b) => let (s2, d) := s1.stageRead (.coll ten num) 0 (512 + ten) va.toNat b; (s2, .ok d)
  | x => x

/-- Bytes that the sequencer writes on path COL; staging of them on that path goes [09 R207, R210]. -/
def State.cput (s : State) (ten : Nat) (va : Word) (b : List Byte) : State × Option FaultInfo :=
  (s.dropStage (fun x => x.unit.path == 5 && x.space == 512 + ten && va.toNat ≤ x.addr && x.addr < va.toNat + b.length)).nput ten apLocal va b

/-- One waiting CRECV of a collective served with the oldest completion that its region has not received, an acquire at domain scope
[09 R209; 15 R389]. -/
def State.serveCrecv (s : State) (ten num : Nat) : Option State :=
  match s.coll ten num with
  | none => none
  | some k =>
    k.results.findSome? (fun q =>
      if k.results.find? (fun z => z.1 == q.1) != some q then none
      else match s.region q.1 with
        | none => none
        | some r =>
          if !r.running then none
          else match oldestX (r.xops.filter (fun x => match x.2.2.kind with | .crecv c => c.toNat == num && !x.2.2.orphan | _ => false)) with
            | none => none
            | some (c, el, o) =>
              let s1 := ((s.unitAcquire 5).onColl ten num (fun k => { k with results := dropFirst (· == q) k.results })).endX q.1 c el o.num
              let t := Token.scalarOf o.ctx o.colour q.2
              some (if q.2.toNat % 8 == clDONE then s1.endAccess q.1 c el o.node o.colour [(2, t)]
                else s1.failColl q.1 c el o [(0, Token.mk0 .fault o.ctx o.colour (BitVec.ofNat 8 fcCOLL) .none), (1, t)]))

/-- Waiting CRECVs of a collective served. -/
def State.serveCrecvs (s : State) (ten num : Nat) : Nat → State
  | 0 => s
  | n + 1 =>
    match s.serveCrecv ten num with
    | none => s
    | some s1 => s1.serveCrecvs ten num n

/-- The SMRECVs that wait for the output of a reduction, ended with their collective [15 R387]. -/
def State.failRecvs (s : State) (ten : Nat) (red : BitVec 16) : State :=
  match s.receiver ten red with
  | some { xe := some (sl, c, el), .. } =>
    (match s.region sl with
      | none => s
      | some r =>
        ((r.elem c el).xe.ops.filter (fun o => match o.kind with | .smrecv q _ => q == red | _ => false)).foldl (fun s o =>
          (s.endX sl c el o.num).failColl sl c el o [(2, Token.mk0 .fault o.ctx o.colour (BitVec.ofNat 8 fcCOLL) .none)]) s)
  | _ => s

/-- The SMRECVs of every reduction that a collective set up, ended with it [15 R387]. -/
def State.failMelds (s : State) (ten num : Nat) : State :=
  (s.fb.routes.filter (fun x => x.ten.toNat == ten && x.coll == num && !x.isOver)).foldl (fun s x => s.failRecvs ten x.red) s

/-- Whether a HOLD of a peer stands against the running instance [02 R61]. -/
def Coll.isPaused (k : Coll) : Bool :=
  match k.running with
  | some i => k.holds.any (fun h => h.inst == i.num)
  | none => false

/-- Since when progress is due, after a pause from `p` to `now` [02 R61]. -/
def afterPause (last p now : Nat) : Nat := now - (p - last)

/-- The CTMO timers of a collective on this rank, of its instance and of the reductions that it set up: paused while a HOLD stands or the rank
is held, and going on where they stood after it [02 R53, R61]. -/
def State.rePause (s : State) (ten num : Nat) : State :=
  match s.coll ten num with
  | none => s
  | some k =>
    match k.pausedAt, k.isPaused || k.heldAt.isSome with
    | none, true => s.onColl ten num (fun k => { k with pausedAt := some s.time })
    | some p, false =>
      let s1 := s.onColl ten num (fun k => { k with
        pausedAt := none, running := k.running.map (fun i => { i with last := afterPause i.last p s.time }) })
      s1.withFb (fun b => { b with melds := b.melds.map (fun q => (q.1, q.2.map (fun m =>
        if m.ten.toNat == ten && m.coll == num then { m with last := afterPause m.last p s.time } else m))) })
    | _, _ => s

/-- A running instance ends on this rank: its completion, the record of a status other than DONE, ABORT to the other ranks where
the cause was found here, and the nodes that wait [02 R60; 04 R101; 15 R387, R389]. -/
def State.endInst (s : State) (ten num status : Nat) (tell : Bool) : State :=
  match s.coll ten num with
  | none => s
  | some k =>
    match k.running with
    | none => s
    | some i =>
      let s1 := (s.onColl ten num (fun k => { k with running := none, here := [], heldAt := none, holds := k.holds.filter (fun h => h.inst != i.num),
                                                     results := k.results ++ [(i.region, collWord status i.num i.done)] })).rePause ten num
      let s2 := if status == clDONE then s1
        else (s1.record ten i.region 0xFFFF 0 0 (FaultInfo.of fcCOLL i.done)).failMelds ten num
      let s3 := if tell then s2.collMsg k 6 i.num 0 else s2
      s3.serveCrecvs ten num 8

/-- The tricks of a collective in their first state. -/
def Coll.fresh (k : Coll) : Table TrickSt := mapIdxFrom (fun i t => (i, TrickSt.waiting t.depn.toNat)) 0 k.tricks

/-- The instance that a chunk or ARMED carries (log 13). -/
def pktInst (p : Packet) : Nat := if p.kind == 6#4 then bitsAt p.opq.toNat 6 4 else ((pktContent p).getD 1 0#8).toNat % 16

/-- An instance starts: its number, the base table read once, the tokens of CLAUNCH, the chunks that waited
[02 R56, R62; 15 R388]. -/
def State.startInst (s : State) (k : Coll) (w : Nat × Nat × Nat × Nat × Word) : State :=
  let (sl, c, el, opn, base) := w
  let n := k.inst + 1
  match (s.region sl).bind (fun r => (r.elem c el).xe.ops.find? (fun o => o.num == opn)) with
  | none => s
  | some o =>
    let (s, rd) := s.cget k.ten k.num base 128
    let tab := match rd with | .ok b => (List.range 16).map (fun i => BitVec.ofNat 64 (leNum ((b.drop (8 * i)).take 8))) | .error _ => []
    let i : Instance := { num := n, table := tab, st := k.fresh, done := 0, last := s.time, region := sl }
    let s1 := (s.onColl k.ten k.num (fun k => { k with
      inst := n, running := some i, skewed := false, aborted := false, here := k.early.filter (fun p => pktInst p == n.toNat), early := [] })).rePause
      k.ten k.num
    let s2 := s1.endX sl c el o.num
    let s3 := if o.orphan then s2 else s2.endAccess sl c el o.node o.colour [(2, Token.scalarOf o.ctx o.colour (n.setWidth 64))]
    match rd with
    | .error f =>
      let s4 := if f.cls == fcAPERTURE then s3.record k.ten sl 0xFFFF 0 0 f else s3
      s4.endInst k.ten k.num clFAULT true
    | .ok _ =>
      if k.skewed then s3.endInst k.ten k.num clINSTSKEW true
      else if k.aborted then s3.endInst k.ten k.num clABORTED false
      else if k.tricks.isEmpty then s3.endInst k.ten k.num clDONE false else s3

/-- The next waiting launch of a collective started, while none runs and its region is not saved away [02 R62; 05 R118]. -/
def State.startNext (s : State) (ten num : Nat) : Nat → State
  | 0 => s
  | n + 1 =>
    match s.coll ten num with
    | none => s
    | some k =>
      match k.running, k.waiting with
      | none, w :: rest =>
        if (s.region w.1).isNone then s
        else ((s.onColl ten num (fun k => { k with waiting := rest })).startInst k w).startNext ten num n
      | _, _ => s

/-- A running instance ends, and the next launch that waits starts [02 R60, R62]. -/
def State.endColl (s : State) (ten num status : Nat) (tell : Bool) : State :=
  let s1 := s.endInst ten num status tell
  match s1.coll ten num with
  | none => s1
  | some k => s1.startNext ten num (k.waiting.length + 1)

/-- A collective that ends because an access of the sequencer failed [02 R56]. -/
def State.collFault (s : State) (ten num : Nat) (f : FaultInfo) : State :=
  let slot := ((s.coll ten num).bind (fun k => k.running)).map (fun i => i.region)
  let s1 := if f.cls == fcAPERTURE then s.record ten (slot.getD 0xFFFF) 0xFFFF 0 0 f else s
  s1.endColl ten num clFAULT true

/-- A trick of a running instance that is not held. -/
structure TrickAt where
  k : Coll
  i : Instance
  t : Trick
  st : TrickSt

/-- The trick at an index of a tenant's collective, while its instance runs here and its rank is not held [02 R56, R61]. -/
def State.trickAt (s : State) (ten num idx : Nat) : Option TrickAt :=
  match s.coll ten num with
  | none => none
  | some k =>
    match k.running, k.tricks[idx]? with
    | some i, some t => if k.heldAt.isSome then none else some ⟨k, i, t, tget i.st .done idx⟩
    | _, _ => none

/-- A running instance changed. -/
def State.onInst (s : State) (ten num : Nat) (f : Instance → Instance) : State :=
  s.onColl ten num (fun k => { k with running := k.running.map f })

/-- A trick that has done its work and completes next. -/
def State.trickStarted (s : State) (ten num idx : Nat) (red : BitVec 16) : State :=
  s.onInst ten num (fun i => { i with st := tset i.st idx (.started red), last := s.time })

/-- A trick event: acts on a trick of its OP whose counter is 0 [02 R56]. -/
def State.trick (s : State) (ten num idx op : Nat) (g : TrickAt → State) : State :=
  match s.trickAt ten num idx with
  | none => s
  | some a => if a.st == .waiting 0 && a.t.op.toNat == op then g a else s

/-- The address of a trick's buffer [02 R55, R56]. -/
def TrickAt.addr (a : TrickAt) : Word := a.i.table.getD a.t.buf.toNat 0 + a.t.off.setWidth 64

/-- The place of a trick among the earlier ones of its rank that name the same peer: of the SENDs, or of the receives
[18 R406]. -/
def TrickAt.ordinal (a : TrickAt) (idx : Nat) (recv : Bool) : Nat :=
  ((a.k.tricks.take idx).filter (fun t => t.peer == a.t.peer && (if recv then t.op == 1#4 || t.op == 2#4 else t.op == 0#4))).length

/-- The identity of a chunk: collective, instance, ordinal of its SEND and number of its piece (log 13). -/
def chunkOpq (num : Nat) (inst : BitVec 4) (k piece : Nat) : BitVec 40 :=
  BitVec.ofNat 40 (num % 64 + inst.toNat * 2 ^ 6 + k % 4096 * 2 ^ 10 + piece % 2 ^ 18 * 2 ^ 22)

/-- The kitty frame of a chunk: what comes of the same 4 KiB of one SEND shares it [02 R59] (log 13). -/
def frameOf (p : Packet) : BitVec 8 × Nat × Nat := (p.src, p.opq.toNat % 2 ^ 22, p.opq.toNat / 2 ^ 24)

/-- The kitty frames that a collective holds. -/
def Coll.frames (k : Coll) : List (BitVec 8 × Nat × Nat) := (((k.here ++ k.early).filter (fun p => p.kind == 6#4)).map frameOf).eraseDups

/-- The kitty frames of a tenant: of its chunks, and one for each output packet that waits [02 R59]. -/
def State.kitty (s : State) (ten : Nat) : Nat :=
  ((s.fb.colls.filter (fun k => k.ten == ten)).map (fun k => k.frames.length)).sum +
    ((s.fb.recvs.filter (fun x => x.ten.toNat == ten)).map (fun x => x.pkts.length)).sum

/-- Whether a chunk of a collective has a frame, or is granted one within its tenant's quota and the pool [02 R59]. -/
def State.frameFree (s : State) (k : Coll) (p : Packet) : Bool :=
  k.frames.contains (frameOf p) ||
    (s.kitty k.ten < (tget s.mg.kq 0#15 k.ten).toNat && ((List.range 16).map s.kitty).sum < 16384)

/-- What a device does with a packet addressed to it: takes it, takes it and confirms its delivery later, refuses it with an error notice,
or leaves it to be sent again. -/
inductive Taken where
  | ok (s : State)
  | kept (s : State)
  | refused (s : State) (status : Nat)
  | later (s : State)

/-- CSTALE counted [02 R59]. -/
def State.stale (s : State) : State := { s with mg := { s.mg with cstale := satInc32 s.mg.cstale } }

/-- Whether a chunk of the running instance has come before: it waits here, or its receive has taken it or is done [02 R41; 18 R406]. -/
def Coll.seen (k : Coll) (i : Instance) (p : Packet) : Bool :=
  k.here.any (fun q => q.kind == p.kind && q.src == p.src && q.opq == p.opq) ||
    (let mine := (mapIdxFrom (fun j (t : Trick) => (j, t)) 0 k.tricks).filter (fun q => (q.2.op == 1#4 || q.2.op == 2#4) && q.2.peer == p.src)
     match mine[bitsAt p.opq.toNat 10 12]? with
     | some (j, _) =>
       (match tget i.st .done j with | .waiting _ => false | _ => true) || (tget i.got [] j).contains (leNum ((pktContent p).take 8))
     | none => false)

/-- A chunk or ARMED at the sequencer, by its sender and its instance [02 R58, R59, R62]; one that was sent again and has come before adds nothing
[02 R41]. -/
def State.collTake (s : State) (p : Packet) (num : Nat) : Taken :=
  let ten := p.ten.toNat
  match s.coll ten num with
  | none => .refused s 1
  | some k =>
    let data := p.kind == 6#4
    if !(s.ranks k).contains p.src then .ok (s.endColl ten num clFAULT true)
    else
      let d := (pktInst p + 16 - k.inst.toNat) % 16
      let drop : Taken := .ok (if data then s.stale else s)
      if d == 1 then (if data && k.early.any (fun q => q.kind == p.kind && q.src == p.src && q.opq == p.opq) then .ok s else if data && !s.frameFree k p then .later s else .ok (s.onColl ten num (fun k => { k with early := k.early ++ [p] })))
      else match k.running with
        | some i =>
          if d == 0 then (if data && k.seen i p then .ok s else if data && !s.frameFree k p then .later s else .ok (s.onColl ten num (fun k => { k with here := k.here ++ [p] })))
          else if d ≤ 8 then .ok (if data then s.endColl ten num clINSTSKEW true else s)
          else drop
        | none =>
          if 2 ≤ d && d ≤ 8 && data then .ok (s.stale.onColl ten num (fun k => { k with skewed := true }))
          else drop

/-- The content of a chunk: its offset, the length of the whole, the bytes (log 13). -/
def chunkParts (p : Packet) : Nat × Nat × List Byte :=
  let b := pktContent p
  (leNum (b.take 8), leNum ((b.drop 8).take 8), b.drop 16)

/-- Chunks of a SEND sent one by one; those to this device reach its own sequencer, and one that finds the quota exhausted there waits with
those after it; the number of chunks that have left [02 R59]. -/
def State.sendChunks (s : State) (a : TrickAt) (ord total : Nat) (b : List Byte) : List (Nat × Nat) → State × Nat
  | [] => (s, 0)
  | (off, n) :: r =>
    let p := s.packet a.t.peer 4 a.k.ten 6 (chunkOpq a.k.num a.i.num ord (off / 1024)) (leOf 8 off ++ leOf 8 total ++ (b.drop off).take n)
    let go (s1 : State) : State × Nat := let (t, k) := s1.sendChunks a ord total b r; (t, k + 1)
    if a.t.peer != s.self then go (s.send p)
    else match s.collTake p a.k.num with
      | .ok t => go t
      | .kept t => go t
      | .refused t _ => go t
      | .later t => (t, 0)

/-- SEND: the buffer's bytes go to the peer as chunks; what finds no frame on this device is tried again [02 R55, R59, R62; 18 R406]. -/
def execSend (ten coll trick : Nat) (s : State) : Out :=
  .next (s.trick ten coll trick 0 (fun a =>
    match s.cget ten coll a.addr a.t.len.toNat with
    | (s, .error f) => s.collFault ten coll f
    | (s, .ok b) =>
      let n := b.length
      let all := remotePieces (n / 1024 + 1) 0 n
      let was := tget a.i.sent 0 trick
      let (s1, k) := s.sendChunks a (a.ordinal trick false) n b (all.drop was)
      if was + k == all.length then s1.trickStarted ten coll trick 0
      else s1.onInst ten coll (fun i => { i with sent := tset i.sent trick (was + k), last := if k == 0 then i.last else s.time }))).run

/-- The chunks of the running instance that belong to a receive and that it has not taken, each once [18 R406]. -/
def TrickAt.chunks (a : TrickAt) (idx : Nat) : List Packet :=
  let old := tget a.i.got [] idx
  (a.k.here.filter (fun p => p.kind == 6#4 && p.src == a.t.peer && bitsAt p.opq.toNat 10 12 == a.ordinal idx true % 4096)).foldl (fun l p =>
    if old.contains (chunkParts p).1 || l.any (fun q => (chunkParts q).1 == (chunkParts p).1) then l else l ++ [p]) []

/-- Whether a chunk does not fit its receive: the lengths of the two tricks differ [18 R406]. -/
def TrickAt.unequal (a : TrickAt) (p : Packet) : Bool :=
  let c := chunkParts p
  c.2.1 != a.t.len.toNat || a.t.len.toNat < c.1 + c.2.2.length

/-- A chunk taken by a receive: its bytes, combined with what the buffer holds there, are written, its frame is free; or the fault of the access
[02 R56, R59]. -/
def State.takeChunk (s : State) (ten num idx : Nat) (a : TrickAt) (g : State → Word → List Byte → State × Except FaultInfo (List Byte)) (p : Packet) :
    Except (State × FaultInfo) State :=
  let (off, _, b) := chunkParts p
  let va := a.addr + BitVec.ofNat 64 off
  match g s va b with
  | (s1, .error f) => .error (s1, f)
  | (s1, .ok d) =>
    match s1.cput ten va d with
    | (s2, some f) => .error (s2, f)
    | (s2, none) =>
      .ok (((s2.lateCheck p).1.onColl ten num (fun k => { k with here := k.here.filter (fun q => q != p) })).onInst ten num (fun i => { i with
        got := tset i.got idx (tget i.got [] idx ++ [off]), last := s.time }))

/-- Chunks taken in turn. -/
def State.takeChunks (s : State) (ten num idx : Nat) (a : TrickAt) (g : State → Word → List Byte → State × Except FaultInfo (List Byte)) :
    List Packet → Except (State × FaultInfo) State
  | [] => .ok s
  | p :: r =>
    match s.takeChunk ten num idx a g p with
    | .error e => .error e
    | .ok s1 => s1.takeChunks ten num idx a g r

/-- Whether a receive has all its bytes: pieces of 1,024 at the offsets taken, the last one what is left (log 13). -/
def TrickAt.full (a : TrickAt) (got : List Nat) : Bool := got.length == (a.t.len.toNat + 1023) / 1024

/-- A receive takes the chunks that have come; with the last of its LEN bytes written it completes next [02 R56, R59; 18 R406]. -/
def State.receive (s : State) (ten num idx : Nat) (a : TrickAt) (g : State → Word → List Byte → State × Except FaultInfo (List Byte)) : State :=
  let ps := a.chunks idx
  if ps.any a.unequal then s.endColl ten num clFAULT true
  else match s.takeChunks ten num idx a g ps with
    | .error (s1, f) => s1.collFault ten num f
    | .ok s1 => if a.full (tget a.i.got [] idx ++ ps.map (fun p => (chunkParts p).1)) then s1.trickStarted ten num idx 0 else s1

/-- RECV [02 R55; 18 R406]. -/
def execRecv (ten coll trick : Nat) (s : State) : Out :=
  .next (s.trick ten coll trick 1 (fun a => s.receive ten coll trick a (fun s _ b => (s, .ok b)))).run

/-- The element format of a trick: code of [10], or none for INT32 [02 R55]. -/
def trickFmt (f : Nat) : Option Nat :=
  match f with
  | 0 => some 0
  | 1 => some 2
  | 2 => some 3
  | _ => none

/-- The bytes of a trick's element. -/
def trickSize (f : Nat) : Nat := if f == 1 || f == 2 then 2 else 4

/-- One element combined: the local value with the incoming one [02 R56]. -/
def reduceElem (fmt rop x y : Nat) : Nat :=
  match trickFmt fmt with
  | none =>
    let a := signedOf 4 x
    let b := signedOf 4 y
    if rop == 0 then (x + y) % 2 ^ 32 else if rop == 1 then (if a < b then y else x) else (if b < a then y else x)
  | some c =>
    let a := (fltFmt c).decode x
    let b := (fltFmt c).decode y
    let r := if rop == 0 then (sumF rne [a, b]).1 else if a.isNan || b.isNan then .nan else if rop == 1 then maxF a b else minF a b
    ((fltFmt c).conv rne r).1

/-- Two buffers combined element by element; bytes that fill no element stay as they are. -/
def reduceBytes (fmt rop : Nat) (loc inc : List Byte) : List Byte :=
  let n := trickSize fmt
  let k := loc.length / n
  (((chunks n k loc).zip (chunks n k inc)).flatMap (fun p => leOf n (reduceElem fmt rop (leNum p.1) (leNum p.2)))) ++ loc.drop (n * k)

/-- RREDUCE [02 R55, R56]. -/
def execRreduce (ten coll trick : Nat) (s : State) : Out :=
  .next (s.trick ten coll trick 2 (fun a => s.receive ten coll trick a (fun s va b =>
    match s.uget ten needR apLocal va b.length with
    | (s1, .error f) => (s1, .error f)
    | (s1, .ok d) => (s1, .ok (reduceBytes a.t.fmt.toNat a.t.rop.toNat d b))))).run

/-- TRICK_COPY: the buffer's bytes are copied within this device; the record names no destination, so which entry of the base table
gives it is open [02 R55] (log 15). -/
def execTrickCopy (ten coll trick : Nat) (s : State) : Out :=
  .next (s.trick ten coll trick 3 (fun a =>
    match s.cget ten coll a.addr a.t.len.toNat with
    | (s, .error f) => s.collFault ten coll f
    | (s, .ok b) =>
      let (v, s1) := s.draw
      match s1.cput ten (a.i.table.getD (v.toNat % 16) 0 + a.t.off.setWidth 64) b with
      | (s2, some f) => s2.collFault ten coll f
      | (s2, none) => s2.trickStarted ten coll trick 0)).run

/-- SIGNAL: a step that moves no data and completes [02 R55] (log 15). -/
def execSignal (ten coll trick : Nat) (s : State) : Out :=
  .next (s.trick ten coll trick 5 (fun _ => s.trickStarted ten coll trick 0)).run

/-- A meld reduction descriptor [02 R54]: the route it gives and the reduction it sets up; none when it is refused. -/
def meldDesc (v ten num : Nat) (dev : BitVec 8) (unit : Nat) (now : Nat) : Option (Route × Meld) :=
  let up := bitsAt v 63 1 == 1
  let red := BitVec.ofNat 16 (bitsAt v 112 16)
  let mcg := bitsAt v 30 16
  if 256 < bitsAt v 96 9 || bitsAt v 64 32 != 0 || bitsAt v 0 30 != 0 || (!up && 64 ≤ mcg) then none
  else
    some ({ ten := BitVec.ofNat 4 ten, red := red, dev := dev, unit := BitVec.ofNat 4 unit, vti := bitsAt v 106 1 == 1, vto := bitsAt v 105 1 == 1,
            mcg := mcg, coll := num, isOver := false },
          { ten := BitVec.ofNat 4 ten, red := red, nin := bitsAt v 107 5 + 1, vti := bitsAt v 106 1 == 1, vto := bitsAt v 105 1 == 1, dth := bitsAt v 96 9,
            up := if up then some (BitVec.ofNat 8 (bitsAt v 55 8), BitVec.ofNat 4 (bitsAt v 51 4), BitVec.ofNat 5 (bitsAt v 46 5)) else none,
            mcg := mcg, ins := [], next := 0, pseq := 0, movf := false, mnan := false, coll := num, last := now })

/-- MELD: the route is entered; the device that hosts the reduction writes the descriptor into its unit and sends ARMED
[02 R54; 18 R405]. -/
def execMeld (ten coll trick : Nat) (s : State) : Out :=
  .next (s.trick ten coll trick 4 (fun a =>
    if a.t.len != 16 || a.t.rop != 0 || a.addr.toNat % 16 != 0 then s.endColl ten coll clFAULT true
    else match s.uget ten needR apLocal a.addr 16 with
      | (s, .error f) => s.collFault ten coll f
      | (s, .ok b) =>
        let unit := a.t.fmt.toNat
        match meldDesc (leNum b) ten coll a.t.peer unit s.time with
        | none => s.endColl ten coll clFAULT true
        | some (rt, m) =>
          let s1 := s.withFb (fun f => { f with routes := f.routes.filter (fun x => !(x.ten == rt.ten && x.red == rt.red)) ++ [rt] })
          if a.t.peer != s.self then s1.trickStarted ten coll trick rt.red
          else
            let ms := tget s.fb.melds [] unit
            if 4 ≤ ms.length || ms.any (fun x => x.ten == m.ten && x.red == m.red) then s1.endColl ten coll clFAULT true
            else
              ((s1.withFb (fun f => { f with melds := tset f.melds unit (ms ++ [m]) })).collMsg a.k 7 a.i.num rt.red).trickStarted ten coll trick
                rt.red)).run

/-- The ARMED of a reduction that has come to the running instance [18 R405]. -/
def Coll.armed (k : Coll) (red : BitVec 16) : Bool :=
  k.here.any (fun p => p.kind == 7#4 && leNum (((pktContent p).drop 2).take 2) == red.toNat)

/-- A trick's successors decremented [02 R56]. -/
def decSucc (t : Table TrickSt) : List (BitVec 16) → Table TrickSt
  | [] => t
  | x :: r =>
    decSucc (match tget t .done x.toNat with
      | .waiting (n + 1) => tset t x.toNat (.waiting n)
      | _ => t) r

/-- TRICK_COMPLETE: a trick whose work is done completes; with the last one the instance is DONE [02 R56, R60; 18 R405]. -/
def execTrickComplete (ten coll trick : Nat) (s : State) : Out :=
  .next (match s.trickAt ten coll trick with
    | none => s
    | some a =>
      match a.st with
      | .started red =>
        if a.t.op == 4#4 && a.t.peer != s.self && !a.k.armed red then s
        else
          let s1 := s.onInst ten coll (fun i => { i with st := decSucc (tset i.st trick .done) a.t.succ, done := i.done + 1, last := s.time })
          if a.i.done + 1 == a.k.tricks.length then s1.endColl ten coll clDONE false else s1
      | _ => s).run

/-- The stalled inputs of a collective's reductions end with ABORT [02 R53]. -/
def State.abortInputs (s : State) (ten num : Nat) : State :=
  let lim := 1000 * s.mg.ctmo.toNat
  let stop (m : Meld) : Meld :=
    if m.ten.toNat == ten && m.coll == num && lim ≤ s.time - m.last then
      { m with ins := (List.range m.nin).map (fun l => let i := m.input l; (l, if i.ended.isSome then i else { i with ended := some mdABORT })), last := s.time }
    else m
  let mine := s.fb.melds.flatMap (fun p => (p.2.filter (fun m => m.ten.toNat == ten && m.coll == num)).map (fun m => (p.1, m.red.toNat)))
  let s1 := s.withFb (fun b => { b with melds := b.melds.map (fun p => (p.1, p.2.map stop)) })
  (mine.foldl (fun s q => s.meldDrain q.1 ten q.2) s1).melds

/-- COLLECTIVE_TIMEOUT: no progress on this rank for CTMO; the reductions that a collective has set up outlive it [02 R53, R59, R60, R61]. -/
def execCollectiveTimeout (ten coll : Nat) (s : State) : Out :=
  .next (match s.coll ten coll with
    | none => s.abortInputs ten coll
    | some k =>
      if k.isPaused || k.heldAt.isSome then s
      else
        let s1 := s.abortInputs ten coll
        match k.running with
        | some i => if 1000 * s.mg.ctmo.toNat ≤ s.time - i.last then s1.endColl ten coll clTIMEOUT true else s1
        | none => s1).run

/-- HOLD_LIMIT: the held rank sends ABORT when the limit has passed [02 R61]. -/
def execHoldLimit (ten coll : Nat) (s : State) : Out :=
  .next (match (s.coll ten coll).bind (fun k => k.heldAt) with
    | none => s
    | some t => if 1000 * s.mg.chold.toNat ≤ s.time - t then s.endColl ten coll clABORTED true else s).run

/-- A collective whose HOLDs of an instance end because the instance does: the running one ends ABORTED, the next one when it is
launched. -/
def State.abortHeld (s : State) (k : Coll) (inst : BitVec 4) (tell : Bool) : State :=
  if k.running.any (fun i => i.num == inst) then s.endColl k.ten k.num clABORTED tell
  else s.onColl k.ten k.num (fun k => { k with holds := k.holds.filter (fun h => h.inst != inst), aborted := k.aborted || inst == k.inst + 1 })

/-- PEER_HOLD_EXPIRY: a peer that has received neither RESUME nor ABORT aborts on its own [02 R61]. -/
def execPeerHoldExpiry (ten coll : Nat) (s : State) : Out :=
  .next (match s.coll ten coll with
    | none => s
    | some k =>
      match k.holds.find? (fun (h : HoldAt) => 1000 * s.mg.chold.toNat + 1000000 ≤ s.time - h.at_) with
      | none => s
      | some h => s.abortHeld k h.inst true).run

/-- HOLD, RESUME or ABORT at a peer [02 R58, R60 to R62].  A HOLD stands for the running or the next instance until its own rank ends it;
while several ranks are held, the last RESUME lets the instance go on.  An ABORT ends whatever instance runs here, but one of the next
instance, which ends that instance when it is launched. -/
def State.collControl (s : State) (p : Packet) : State :=
  let ten := p.ten.toNat
  let num := ((pktContent p).getD 0 0#8).toNat
  match s.coll ten num with
  | none => s
  | some k =>
    let inst := BitVec.ofNat 4 (pktInst p)
    let d := (inst - k.inst).toNat
    let now := k.running.isSome && d == 0
    match opqKind p with
    | 4 =>
      if !(s.ranks k).contains p.src then s.endColl ten num clFAULT true
      else if (now || d == 1) && !k.holds.any (fun h => h.dev == p.src && h.inst == inst) then
        (s.onColl ten num (fun k => { k with holds := k.holds ++ [⟨p.src, inst, s.time⟩] })).rePause ten num
      else s
    | 5 =>
      if k.holds.any (fun h => h.dev == p.src && h.inst == inst) then
        let rest := k.holds.filter (fun h => !(h.dev == p.src && h.inst == inst))
        (s.onColl ten num (fun k => { k with holds := rest })).rePause ten num
      else s
    | _ =>
      if d == 1 then s.onColl ten num (fun k => { k with aborted := true, holds := k.holds.filter (fun h => h.inst != inst) })
      else s.endColl ten num clABORTED false

/-- HOLD for the running collectives of a region that is frozen [02 R61]. -/
def State.holdRanks (s : State) (slot : Nat) : State :=
  s.fb.colls.foldl (fun s k =>
    match k.running with
    | some i => if i.region == slot then ((s.onColl k.ten k.num (fun k => { k with heldAt := some s.time })).rePause k.ten k.num).collMsg k 4 i.num 0 else s
    | none => s) s

/-- RESUME for the collectives of a region that is restored [02 R61]. -/
def State.resumeRanks (s : State) (slot : Nat) : State :=
  s.fb.colls.foldl (fun s k =>
    match k.running with
    | some i =>
      if i.region == slot && k.heldAt.isSome then
        ((s.onColl k.ten k.num (fun k => { k with heldAt := none })).rePause k.ten k.num).collMsg k 5 i.num 0
      else s
    | none => s) s

/-- The collectives that have a rank in a region end with ABORTED, and what the region waits for is gone [03 R70]. -/
def State.abortRanks (s : State) (slot : Nat) : State :=
  s.fb.colls.foldl (fun s k =>
    let s1 := s.onColl k.ten k.num (fun k => { k with waiting := k.waiting.filter (fun w => w.1 != slot) })
    let s2 := if k.running.any (fun i => i.region == slot) then s1.endColl k.ten k.num clABORTED true else s1
    s2.onColl k.ten k.num (fun k => { k with results := k.results.filter (fun q => q.1 != slot) })) s

/-- CLAUNCH: the launch waits at the sequencer until no earlier instance runs [02 R62; 15 R388]. -/
def execClaunch (h : NodeHd) (coll : BitVec 6) (s : State) : Out :=
  .next (s.fire h (fun f =>
    let ten := f.r.ten
    if f.a.kind != .scalar then f.opf s iPAYLOAD
    else match s.coll ten coll.toNat with
      | none => f.opf s iNOCOLL
      | some k =>
        if f.a.value.toNat % 8 != 0 then f.opf s iALIGN
        else
          ((f.beginX s (f.xop s (.claunch coll) f.a.value [] f.a)).onColl ten coll.toNat (fun k => { k with
            waiting := k.waiting ++ [(f.slot, f.core, f.elem, s.nextOp, f.a.value)] })).startNext ten coll.toNat (k.waiting.length + 1))).run

/-- CRECV: waits for the completion of the oldest instance that its region has not received [15 R389]; a collective that is not
loaded for the tenant is NOCOLL [15 R370] (log 38). -/
def execCrecv (h : NodeHd) (coll : BitVec 6) (s : State) : Out :=
  .next (s.fire h (fun f =>
    match s.coll f.r.ten coll.toNat with
    | none => f.opf s iNOCOLL
    | some _ => (f.beginX s (f.xop s (.crecv coll) 0 [] f.a)).serveCrecvs f.r.ten coll.toNat 1)).run

end Sys2Proof.Machine
end

