-- ==== Sys2Proof/Machine/Builtin.lean ====
section
/-! DEFINITION. The trick records of a collective and the graphs of the built-in collectives [02 R55 to R58]; the spec names the
algorithms and does not give their graphs (log 14). -/

namespace Sys2Proof.Machine

/-- A trick from its 32 bytes [02 R55]. -/
def Trick.ofNat (v : Nat) : Trick :=
  { op := BitVec.ofNat 4 (bitsAt v 252 4), buf := BitVec.ofNat 4 (bitsAt v 248 4), peer := BitVec.ofNat 8 (bitsAt v 240 8),
    rop := BitVec.ofNat 4 (bitsAt v 236 4), fmt := BitVec.ofNat 4 (bitsAt v 232 4), depn := BitVec.ofNat 12 (bitsAt v 220 12),
    off := BitVec.ofNat 48 (bitsAt v 160 48), len := BitVec.ofNat 32 (bitsAt v 128 32),
    succ := (List.range 8).map (fun i => BitVec.ofNat 16 (bitsAt v (16 * i) 16)) }

/-- Whether a trick record of a graph of `n` is well formed [02 R55]. -/
def trickOk (n v : Nat) : Bool :=
  let t := Trick.ofNat v
  t.op.toNat ≤ 5 && bitsAt v 208 12 == 0 && t.succ.all (fun x => x == 0xFFFF#16 || x.toNat < n) &&
    (match t.op.toNat with
      | 2 => t.rop.toNat ≤ 2 && t.fmt.toNat ≤ 3
      | 4 => true
      | 5 => t.fmt == 0#4
      | _ => t.fmt.toNat ≤ 3) &&
    (t.op == 5#4 || t.len != 0#32)

/-- One step of a generated graph: OP, peer rank, base-table entry, offset and length. -/
structure Step1 where
  op   : Nat
  peer : Nat
  buf  : Nat
  off  : Nat
  len  : Nat

/-- The highest set bit of a number as a power of two; 1 for 0. -/
def topBit (v : Nat) : Nat := 2 ^ Nat.log2 v

/-- The parent of a rank in the spanning tree of an algorithm, rank 0 its root: 0 ring, along the ring; 1 tree, a binomial tree; 2 recursive
halving and doubling, the partner at the largest distance; 3 direct exchange, the root itself (log 14). -/
def treeParent (alg r : Nat) : Nat :=
  match alg with
  | 0 => r - 1
  | 1 => r - (r &&& (2 ^ 64 - r))
  | 2 => r - topBit r
  | _ => 0

/-- The children of a rank in that tree, ascending. -/
def treeChildren (alg n r : Nat) : List Nat := (List.range n).filter (fun c => c != 0 && treeParent alg c == r)

/-- The steps that reduce a block to a rank `j` along the algorithm's tree, on rank `r`: the children's parts are combined into the block at
entry 1, and the result goes to the parent. -/
def reduceSteps (alg n r j off len : Nat) : List Step1 :=
  let v := (r + n - j) % n
  (treeChildren alg n v).map (fun c => ⟨2, (c + j) % n, 1, off, len⟩) ++ (if v == 0 then [] else [⟨0, (treeParent alg v + j) % n, 1, off, len⟩])

/-- The same for block `j` of `b` bytes at entry 0, of a reduce-scatter: the algorithm's tree joins the ranks from `j` up, and the ranks below
`j`, which hold their results at the start of entry 1 already, send theirs to `j`.  A rank with children copies its block there first
(log 14). -/
def scatterSteps (alg n r j b : Nat) : List (List Step1) :=
  let m := n - j
  let into : List Step1 := [⟨0, r, 0, j * b, b⟩, ⟨1, r, 1, 0, b⟩]
  if r < j then [[⟨0, j, 0, j * b, b⟩]]
  else
    let kids := (treeChildren alg m (r - j)).map (fun c => c + j) ++ (if r == j then List.range j else [])
    let parent := treeParent alg (r - j) + j
    if kids.isEmpty && r != j then [[⟨0, parent, 0, j * b, b⟩]]
    else into :: kids.map (fun c => [⟨2, c, 1, 0, b⟩]) ++ (if r == j then [] else [[⟨0, parent, 1, 0, b⟩]])

/-- The steps that spread a block of rank `j` along the algorithm's tree, on rank `r`, at entry 1. -/
def spreadSteps (alg n r j off len : Nat) : List Step1 :=
  let v := (r + n - j) % n
  (if v == 0 then [] else [⟨1, (treeParent alg v + j) % n, 1, off, len⟩]) ++ (treeChildren alg n v).map (fun c => ⟨0, (c + j) % n, 1, off, len⟩)

/-- A buffer of `b` bytes of elements of `es` bytes cut into `n` blocks: offset and length of block `i`; the last takes what is left. -/
def blockOf (n es b i : Nat) : Nat × Nat :=
  let q := (b / es + n - 1) / n * es
  let off := if i * q < b then i * q else b
  (off, if i + 1 == n || b < off + q then b - off else q)

/-- The rounds of an exchange of every rank with every other: in round `t` rank `r` meets rank `t - r`, and the order of the rounds is the
algorithm's: ascending, descending, from the middle on, every second first (log 14). -/
def exchangeRounds (alg n : Nat) : List Nat :=
  match alg with
  | 0 => List.range n
  | 1 => (List.range n).reverse
  | 2 => (List.range n).map (fun t => (t + n / 2) % n)
  | _ => (List.range n).filter (fun t => t % 2 == 0) ++ (List.range n).filter (fun t => t % 2 == 1)

/-- The steps of a rank for a kind: 1 all-reduce, 2 reduce-scatter, 3 all-gather, 4 all-to-all, 5 broadcast; `b` bytes per rank, elements of
`es` bytes; the steps of one group take their pieces in turn (log 14).  Input is entry 0 and output entry 1, which may be the same bytes: what
a step overwrites has been sent before, piece by piece. -/
def builtinSteps (kind alg n r root b es : Nat) : List (List Step1) :=
  let copy (src dst : Nat) : List Step1 := [⟨0, r, 0, src, b⟩, ⟨1, r, 1, dst, b⟩]
  let alone (l : List Step1) : List (List Step1) := l.map (fun x => [x])
  match kind with
  | 1 =>
    let cut := if alg == 1 then 1 else n
    let blocks := (List.range cut).map (fun i => (i, blockOf cut es b i))
    copy 0 0 :: alone (blocks.flatMap (fun k => reduceSteps alg n r k.1 k.2.1 k.2.2) ++ blocks.flatMap (fun k => spreadSteps alg n r k.1 k.2.1 k.2.2))
  | 2 => (List.range n).flatMap (fun j => scatterSteps alg n r j b)
  | 3 => copy 0 (r * b) :: alone ((List.range n).flatMap (fun j => spreadSteps alg n r j (j * b) b))
  | 4 => (exchangeRounds alg n).map (fun t => let p := (t + n - r) % n; [⟨0, p, 0, p * b, b⟩, ⟨1, p, 1, p * b, b⟩])
  | _ => (if r == root then [copy 0 0] else []) ++ alone (spreadSteps alg n r root 0 b)

/-- The bytes of a step as pieces that a trick moves, each a chunk: offset and length [02 R57]. -/
def builtinPieces (chunk b : Nat) : List (Nat × Nat) :=
  (List.range ((b + chunk - 1) / chunk)).map (fun i => (i * chunk, if b - i * chunk < chunk then b - i * chunk else chunk))

/-- The pieces of a group of steps, in turn. -/
def groupPieces (chunk : Nat) (g : List Step1) : List (Step1 × Nat × Nat) :=
  let n := (g.headD ⟨0, 0, 0, 0, 0⟩).len
  (builtinPieces chunk n).flatMap (fun q => g.map (fun x => (x, q)))

/-- The number of tricks of a generated graph. -/
def builtinCount (chunk : Nat) (steps : List (List Step1)) : Nat :=
  (steps.map (fun g => g.length * (((g.headD ⟨0, 0, 0, 0, 0⟩).len + chunk - 1) / chunk))).sum

/-- The least chunk size of a power of two, from 4 KiB up, that keeps a graph within 4,096 tricks, or 2 GiB (log 14) [02 R58]. -/
def leastChunk (steps : List (List Step1)) : Nat :=
  (((List.range 20).map (fun i => 2 ^ (12 + i))).find? (fun c => builtinCount c steps ≤ 4096)).getD (2 ^ 31)

/-- A generated graph: its groups one after another, each piece of a step a trick (log 14). -/
def builtinTricks (chunk : Nat) (steps : List (List Step1)) (ranks : List (BitVec 8)) (fmt rop : Nat) : List Trick :=
  let all := steps.flatMap (groupPieces chunk)
  mapIdxFrom (fun i (p : Step1 × Nat × Nat) =>
    { op := BitVec.ofNat 4 p.1.op, buf := BitVec.ofNat 4 p.1.buf, peer := ranks.getD p.1.peer 0, rop := BitVec.ofNat 4 (if p.1.op == 2 then rop else 0)
      fmt := BitVec.ofNat 4 fmt, depn := if i == 0 then 0 else 1, off := BitVec.ofNat 48 (p.1.off + p.2.1), len := BitVec.ofNat 32 p.2.2
      succ := [if i + 1 < all.length then BitVec.ofNat 16 (i + 1) else 0xFFFF] }) 0 all

/-- The size class of bytes per rank [02 R57]. -/
def sizeClass (b : Nat) : Nat := ((List.range 7).filter (fun i => 2 ^ (14 + 2 * i) ≤ b)).length

/-- The group class of a number of ranks [02 R57]. -/
def groupClass (n : Nat) : Nat := ((List.range 7).filter (fun i => 2 ^ (i + 1) < n)).length

/-- The chunk size that AUTO takes [02 R57]. -/
def State.autoChunk (s : State) (b n : Nat) : Nat := 2 ^ (12 + bitsAt (tget s.mg.csel 0#64 (sizeClass b)).toNat (8 * groupClass n) 4)

/-- The algorithm that AUTO takes [02 R57]. -/
def State.autoAlg (s : State) (b n : Nat) : Nat := bitsAt (tget s.mg.csel 0#64 (sizeClass b)).toNat (8 * groupClass n + 6) 2

end Sys2Proof.Machine
end

