-- ==== Sys2Proof/Machine/TokenEvent.lean ====
section
/-! DEFINITION. Token events: landing, refetch from the talon, markers, retirement, the lead-colour broadcast, deadlock
detection [06 R142, R143; 07 R165 to R168, R173, R175, R179]. -/

namespace Sys2Proof.Machine

/-- Whether a flight is the first of its arc [07 R167]. -/
def Region.firstOfArc (r : Region) (idx : Nat) (f : Flight) : Bool := !(r.flight.take idx).any (fun g => g.arc == f.arc)

/-- A flight that waits because the talon is full: reported once, by a record and TALON in the spilling core
[07 R168; 06 R155]. -/
def State.talonFull (s : State) (slot idx : Nat) (f : Flight) : State :=
  match s.region slot with
  | none => s
  | some r =>
    if f.told || !r.talonWait f.tok then s
    else
      let tc := f.tok.core.toNat
      let r1 := { r with flight := lset r.flight idx { f with told := true } }.raise tc 1 0
      (s.putRegion slot r1).record r.ten slot (elemField (r.core tc) f.tok.elem.toNat) f.tok.ctx.toNat f.tok.colour.toNat
        (FaultInfo.of 0xB 0)

/-- The core that a token on an arc comes from. -/
def ArcKey.from_ : ArcKey → Nat
  | .node c _ _ _ => c
  | .inject c _ _ _ => c

/-- Token causality at the core that a token of another core reaches: what its AEs staged before goes [09 R213] (log 8). -/
def State.tokenOrder (s : State) (slot a b : Nat) : State :=
  if a == b then s else s.dropStage (fun x => x.unit.path == 1 && x.unit.site == some (slot, b))

/-- TOKEN_LANDING: the first token of an arc, over the links that are left, lands at its element, or waits; while a region freezes its tokens
still land [05 R118; 07 R166 to R168; 12 R301]. -/
def execTokenLanding (slot idx : Nat) (s : State) : Out :=
  .next (match s.region slot with
    | none => s
    | some r =>
      match r.flight[idx]? with
      | none => s
      | some f =>
        if !(r.running || (s.slot slot).st == 4#8) || !r.firstOfArc idx f || !s.mayArrive r slot f then s
        else match s.landFlight slot idx f with
          | some s1 => (s1.tokenOrder slot f.arc.from_ f.tok.core.toNat).run
          | none => s.talonFull slot idx f)

/-- TALON_REFETCH [07 R168]. -/
def execTalonRefetch (slot core idx : Nat) (s : State) : Out := .next (s.refetch slot core idx).run

/-- The pending constants of a marker applied in queue order [06 R142, R143]. -/
def Elem.applyMarker (e : Elem) (m : BitVec 8) : Elem :=
  { e with
    k := (e.pendK.filter (fun p => p.m == m)).foldl (fun k p => tset k p.k.toNat p.v) e.k
    pendK := e.pendK.filter (fun p => p.m != m) }

/-- A marker sent on an arc of a node, behind everything sent or elided on it [06 R143; 07 R179]. -/
def Region.sendMarker (r : Region) (c e node which : Nat) (d : Dest) (t : Token) : Region :=
  if noDest d then r
  else
    let r1 := match (r.elem c e).skipOf node which with
      | some k => r.flushSkip c e k d
      | none => r
    r1.post (.node c e node which) c (t.to d)

/-- MARKER_TAKE: the firing arbiter takes the first waiting marker: its constants are applied, and it goes on
[06 R143]. -/
def execMarkerTake (slot core elem : Nat) (s : State) : Out :=
  .next (match s.region slot with
    | none => s
    | some r =>
      let e := r.elem core elem
      match e.markers with
      | [] => s
      | f :: rest =>
        if !r.acts then s
        else
          let node := f.tok.node.toNat
          let h := recHd (e.rec_ node)
          let r1 := r.putElem core elem ({ e with markers := rest }.applyMarker f.tok.aux)
          s.putRegion slot ((r1.sendMarker core elem node 0 h.d0 f.tok).sendMarker core elem node 1 h.d1 f.tok).alive)

/-- The live colours from the lead colour on. -/
def Region.liveColours (r : Region) : List (BitVec 8) := (List.range r.live).map (fun i => r.lead + BitVec.ofNat 8 i)

/-- Whether a colour's count has changed since the last snapshot [07 R165]. -/
def Region.changed (r : Region) (c : BitVec 8) : Bool := r.cores.any (fun p => p.2.changed.contains c)

/-- The waves of a retired colour forgotten at every AE of a core, and the MERGE expectations that hold it moved on
[08 R188; 13 R322]. -/
def Core.dropColour (k : Core) (c : BitVec 8) : Core :=
  { k with counts := tdel k.counts c.toNat,
           elems := k.elems.map (fun p => (p.1, { p.2 with
             merges := p.2.merges.map (fun m => if m.colour == c then { m with colour := c + 1 } else m),
             ae := { p.2.ae with waves := p.2.ae.waves.filter (fun w => w.colour != c) } })) }

/-- LEAD past every consecutive finished colour [07 R165]. -/
def Region.retire (r : Region) : Nat → Region
  | 0 => r
  | n + 1 =>
    if r.live != 0 && r.done.contains r.lead then
      let r1 : Region := { r with
        lead := r.lead + 1, done := r.done.filter (· != r.lead), purged := r.purged.filter (· != r.lead),
        owners := r.owners.filter (fun o => o.colour != r.lead), snap := r.snap.filter (fun p => p.1 != r.lead),
        cores := r.cores.map (fun p => (p.1, p.2.dropColour r.lead)) }
      r1.retire n
    else r

/-- The MERGE expectations of contexts without a live colour freed [07 R178]. -/
def Region.dropMerges (r : Region) : Region :=
  { r with cores := r.cores.map (fun p => (p.1, { p.2 with elems := p.2.elems.map (fun q =>
      (q.1, { q.2 with merges := q.2.merges.filter (fun m => r.owners.any (fun o => o.ctx == m.ctx && r.isLive o.colour)) })) })) }

/-- A snapshot of the counts: finished colours are those that sum to 0 now and in the last snapshot, unchanged between
[07 R165].  A colour found finished counts 0 in every core [17 R402]. -/
def Region.snapshot (r : Region) : Region :=
  let fin (c : BitVec 8) : Bool := r.sum c == 0 && !r.changed c && r.snap.any (fun (p : BitVec 8 × Int) => p.1 == c && p.2 == 0)
  let found := r.liveColours.filter (fun c => fin c && !r.done.contains c)
  { r with
    done := (r.done.filter (fun c => r.sum c == 0)) ++ found
    snap := r.liveColours.map (fun c => (c, r.sum c))
    cores := r.cores.map (fun p => (p.1, { p.2 with
      changed := [], counts := found.foldl (fun t c => tdel t c.toNat) p.2.counts })) }

/-- RETIREMENT_SNAPSHOT [07 R165]. -/
def execRetirementSnapshot (slot : Nat) (s : State) : Out :=
  .next (match s.region slot with
    | none => s
    | some r => if r.running then (s.putRegion slot (r.snapshot.retire 256).dropMerges).run else s)

/-- Whether a skip entry covers a colour [07 R179]. -/
def Skip.covers (k : Skip) (c : BitVec 8) : Bool := (k.last - c).toNat < k.cnt

/-- The skip entries of an element that cover a colour flushed [07 R179]. -/
def Region.flushCovering (r : Region) (c e : Nat) (col : BitVec 8) : Region :=
  ((r.elem c e).skips.filter (fun k => k.covers col)).foldl (fun r k =>
    let h := recHd ((r.elem c e).rec_ k.node)
    r.flushSkip c e k (if k.which == 0 then h.d0 else h.d1)) r

/-- LEAD_COLOUR_BROADCAST: an element learns the lead colour [07 R165, R179]. -/
def execLeadColourBroadcast (slot core elem : Nat) (s : State) : Out :=
  .next (match s.region slot with
    | none => s
    | some r =>
      if !(r.elem core elem).used then s
      else s.putRegion slot ((r.putElem core elem { r.elem core elem with lead := r.lead }).flushCovering core elem r.lead))

/-- A 16-bit signed count, saturating [07 R175]. -/
def sat16 (v : Int) : Nat :=
  let w : Int := if v < -32768 then -32768 else if 32767 < v then 32767 else v
  (w % 65536).toNat

/-- The tokens that an element holds, oldest colour first [07 R175]. -/
def Elem.byAge (e : Elem) (lead : BitVec 8) : List Token :=
  (List.range 256).flatMap (fun i => (e.pool.filter (fun x => x.tok.colour == lead + BitVec.ofNat 8 i)).map (fun x => x.tok))

/-- The element record of a snapshot: 512 bytes [07 R175]. -/
def Core.snapElem (c : Core) (lead : BitVec 8) (i : Nat) : List Byte :=
  let e := c.elem i
  let l := (e.byAge lead).take 63
  leOf 2 e.entries ++ leOf 2 (c.inTalon.filter (fun x => x.tok.elem.toNat == i)).length ++
    leOf 1 (e.pool.filter (fun x => x.place == .refill)).length ++ leOf 1 (e.pool.filter (fun x => x.place == .widow)).length ++
    leOf 2 l.length ++ (l.flatMap (fun t => leOf 8 t.header) ++ List.replicate (504 - 8 * l.length) 0#8)

/-- The snapshot of a core: 33,024 bytes [07 R175]. -/
def Region.snapCore (r : Region) (time core : Nat) : List Byte :=
  let c := r.core core
  leOf 1 r.lead.toNat ++ leOf 1 r.next.toNat ++ leOf 1 r.live ++ leOf 1 core ++ leOf 4 c.talonUsed ++ leOf 8 time ++
    ((List.range 65).flatMap (fun i => leOf 2 (sat16 (tget c.counts 0 (r.lead + BitVec.ofNat 8 i).toNat)))) ++
    List.replicate 110 0#8 ++ ((List.range 64).flatMap (fun i => c.snapElem r.lead i))

/-- The share of a core in the save area: 22 MiB each [05 R104; 07 R175]. -/
def Region.shareVa (r : Region) (core : Nat) : Word := r.savek + BitVec.ofNat 64 (0x1600000 * core)

/-- The snapshots of every core written; one record for each core whose write faults [07 R175]. -/
def State.writeSnapshots (s : State) (slot : Nat) (r : Region) : State :=
  (List.range r.ncore).foldl (fun s core =>
    match s.vput r.ten 15 (r.shareVa core) (r.snapCore s.time core) with
    | (s1, none) => s1
    | (_, some f) => s.record r.ten slot 0xFFFF 0 r.lead.toNat { f with va := r.shareVa core, acc := 1 }) s

/-- The detection time that governs a region's count [07 R173, R174]. -/
def State.detectK (s : State) (r : Region) : Nat :=
  r.kHeld.getD s.mg.dlkK.toNat

/-- Whether a token or operation of a region is outstanding, a sticky token that waits at landing included [07 R164, R166, R173]. -/
def Region.outstanding (r : Region) : Bool := r.liveColours.any (fun c => r.sum c != 0) || r.flight.any (fun f => f.tok.act == 1#2)

/-- DEADLOCK: the idle count has reached its limit with a token outstanding [07 R173]. -/
def execDeadlock (slot : Nat) (s : State) : Out :=
  .next (match s.region slot with
    | none => s
    | some r =>
      if !r.running || r.fired || s.idleCount slot r < 2 ^ s.detectK r || !r.outstanding then s
      else
        let s1 := s.writeSnapshots slot r
        (s1.putRegion slot ({ r with fired := true }.raise 0 0 0)).record r.ten slot 0xFFFF 0 r.lead.toNat (FaultInfo.of 0xA 0))

end Sys2Proof.Machine
end

