-- ==== Sys2Proof/Machine/MemEvent.lean ====
section
/-! DEFINITION. Events of the memory system: requests performed, replies, timeouts, channel errors, the gather unit, table
walks, copy records and sectors [01 R19 to R28; 04 R97; 08 R190 to R199]. -/

namespace Sys2Proof.Machine

/-- The bytes that a request names. -/
def Req.size (q : Req) : Nat := 32 * (q.len.toNat + 1)

/-- Whether a request breaks the rules of [01 R20, R21]. -/
def Req.malformed (q : Req) : Bool :=
  !(q.kind == 1#4 || q.kind == 2#4 || q.kind == 3#4) || q.rsv || (q.kind != 3#4 && q.mask != 0#32) || (q.kind == 3#4 && q.len != 0#6) ||
    q.addr % 32 != 0 || 2048 < q.addr % 2048 + q.size

/-- The place in memory that a request names. -/
def Req.loc (q : Req) : Loc :=
  match q.target with
  | .base n => .hbm (n + (if q.far then 8 else 0)) q.addr
  | .cxl p => .cxl p q.addr
  | .host f => .host f q.addr
  | .peer dev => .peer dev (BitVec.ofNat 64 q.addr)

/-- Whether two requests of one stream meet in a byte [01 R22]. -/
def Req.overlaps (p q : Req) : Bool :=
  p.stream == q.stream && p.target == q.target && p.far == q.far && p.addr < q.addr + q.size && q.addr < p.addr + p.size

/-- Whether a channel that a request needs is retraining [01 R25]. -/
def State.training (s : State) (q : Req) : Bool :=
  match q.loc with
  | .hbm st off => st < 8 && (granules off q.size).any (fun g => s.ms.chans.any (fun c => c.1 == 32 * st + bitsAt g 8 5 && c.2.train))
  | _ => false

/-- The bytes that the next step of a request covers: all of it, or at a CXL port what is left of its next 64 bytes [01 R28]. -/
def Req.line (q : Req) : Nat :=
  match q.target with
  | .cxl _ => let n := 64 - (q.addr + q.off) % 64; if n < q.size - q.off then n else q.size - q.off
  | _ => q.size

/-- The 64-byte requests that a request to an expander has still to make [01 R28]. -/
def Req.lines (q : Req) : Nat := (q.addr + q.size + 63) / 64 - (q.addr + q.off) / 64

/-- Whether a port has room for the next 64-byte request of one behind some others: 1,024 are outstanding at most, and one that waits for an
earlier overlapping request of its stream is not yet at the port [01 R28]. -/
def portRoom (before : List Req) (q : Req) : Bool :=
  match q.target with
  | .cxl p =>
    let at_ := mapIdxFrom (fun i (x : Req) => (x, (before.take i).any (fun y => y.overlaps x))) 0 before
    (at_.filter (fun x => x.1.target == .cxl p && !x.2)).foldl (fun n x => n + x.1.lines) 0 < 1024
  | _ => true

/-- The request at an index, when it may be performed now: after the earlier ones that it overlaps, with its channels in service and room at
its port, and held for less than 1.5 ms [01 R22, R25, R28; 08 R193]. -/
def State.servable (s : State) (idx : Nat) : Option Req :=
  match s.ms.reqs[idx]? with
  | none => none
  | some q =>
    let before := s.ms.reqs.take idx
    if before.any (fun p => p.overlaps q) || s.training q || !portRoom before q || 1500000 ≤ s.time - q.at_ then none else some q

/-- A request answered: it leaves the memory and its reply is on its way [01 R21]; a channel that has performed a command has
ended a row of failures [01 R25]. -/
def State.answerReq (s : State) (idx : Nat) (q : Req) (status : Nat) (data : List Byte) (flags : BitVec 2) : State :=
  let clear (m : MemSys) : MemSys :=
    match q.loc with
    | .hbm st off => { m with chans := m.chans.map (fun c =>
        if (granules off q.size).any (fun g => c.1 == 32 * st + bitsAt g 8 5) then (c.1, { c.2 with fails := 0 }) else c) }
    | _ => m
  s.withMs (fun m => clear { m with
    reqs := ldel m.reqs idx
    reps := m.reps ++ [{ req := q, status := BitVec.ofNat 4 status, data := data, flags := flags }] })

/-- The thread whose staging a request uses: that of a control-core access, 0 of another. -/
def State.reqThread (s : State) (q : Req) : Nat :=
  match q.serves.head? with
  | none => 0
  | some sv =>
    match s.op sv.op with
    | none => 0
    | some o => match o.who with
      | .ccLoad _ _ t _ _ | .ccStore _ _ t | .ccAtomic _ _ t _ => t
      | _ => 0

/-- The thread of a request of a control core: slot, core and thread. -/
def State.reqId (s : State) (q : Req) : Nat × Nat × Nat :=
  match q.stream with
  | .cc sl c => (sl, c, s.reqThread q)
  | _ => (0, 0, 0)

/-- Whether a stream's path stages what it reads [09 R207]. -/
def Stream.stages (s : Stream) : Bool := s.path != 8

/-- The staging of a write's bytes: that of its own thread takes them, other staging of its path lets them go; an AE's write leaves what the AEs
of other cores have staged, which goes with the tokens that reach them [09 R210, R213] (log 8). -/
def State.stageWrite (s : State) (q : Req) (space : Nat) (bs : List (Nat × Byte)) : State :=
  let as := bs.map Prod.fst
  if q.stream.path == 0 then (s.ccWrote (s.reqId q) space as false []).fillBytes q.stream (s.reqThread q) space bs
  else (s.dropStage (fun x => x.unit.path == q.stream.path && (q.stream.path != 1 || x.unit.site == q.stream.site) && x.space == space &&
    as.contains x.addr)).unitWrote none space as

/-- An atomic performed at its memory: the old value and the flags [09 R210, R216; 12 R288, R289]; one of path REM may read what its unit has
staged, which no atomic has changed since [18 R395]. -/
def State.atomicAt (s0 : State) (q : Req) (f : AtomOp) (off n : Nat) (v : Word) : State × List Byte × BitVec 2 :=
  let l := q.loc.plus off
  let (sp, a) := l.space
  let (s, o) := if q.stream.path == 6 then s0.stageRead q.stream 0 sp a (s0.locRead l n) else (s0, s0.locRead l n)
  let old := leNum o
  let (new, fl) := f.eval n old v.toNat
  let t := s.reqId q
  let s1 := if q.stream.path == 0 then s.ccAtomicRead t sp a n else s
  let gone (s : State) : State := s.dropStage (fun x => x.unit.path != 0 && x.space == sp && a ≤ x.addr && x.addr < a + n)
  let s2 := match new with
    | some w =>
      let s3 := gone (s1.locWrite l (leOf n w))
      if q.stream.path == 0 then (s3.ccWrote t sp (addrs a n) true (s3.ownRel t)).fillStage q.stream t.2.2 sp a (leOf n w)
      else (s3.noteWrite none (fun _ => false) sp (addrs a n) (fun x => ((s3.ms.msgAt none sp x).map Msg.rels).getD [])).1
    | none => if q.stream.path == 0 then s1.fillStage q.stream t.2.2 sp a (leOf n old) else s1
  (if q.stream.path == 0 then s2.endSem t else s2, leOf n old, fl)

/-- A read that memory answers: its status, or its bytes, at a CXL port 64 bytes at a time [01 R20 to R22, R28]. -/
def State.readMem (s : State) (idx : Nat) (q : Req) : State :=
  let l := q.loc
  let st := s.locStatus l q.size
  let s1 := s.eccEvent l st
  let d := q.got ++ s1.locRead (l.plus q.off) (q.size - q.off)
  if stUE ≤ st then (if q.stream.stages && st == stUE then s1.stageTake q.stream (s1.reqThread q) l.space.1 l.space.2 (s1.locRead l q.size) else s1).answerReq idx q st [] 0
  else if q.off + q.line < q.size then
    s1.withMs (fun m => { m with reqs := lset m.reqs idx { q with off := q.off + q.line, got := q.got ++ s1.locRead (l.plus q.off) q.line } })
  else (if q.stream.stages then s1.stageTake q.stream (s1.reqThread q) l.space.1 l.space.2 d else s1).answerReq idx q st d 0

/-- A read performed: by its memory, or before it leaves by its unit's staging, which may hold a granule that read UE [01 R20 to R22; 09 R207;
18 R401]. -/
def State.serveRead (s : State) (idx : Nat) (q : Req) : State :=
  if q.malformed then s.answerReq idx q stBADREQ [] 0
  else
    let l := q.loc
    match q.atom with
    | some (f, off, n, v) =>
      let st := s.locStatus l q.size
      let s1 := s.eccEvent l st
      if stUE ≤ st then s1.answerReq idx q st [] 0
      else
        let (s2, d, fl) := s1.atomicAt q f off n v
        s2.answerReq idx q st d fl
    | none =>
      if !q.stream.stages || q.off != 0 then s.readMem idx q
      else match s.stagePick q.stream (s.reqThread q) l.space.1 l.space.2 q.size with
        | (s1, some (b, bad)) => if bad then s1.answerReq idx q stUE [] 0 else s1.answerReq idx q stOK b 0
        | (s1, none) => s1.readMem idx q

/-- READ: a read request, or one of a reserved kind, is performed at its memory [01 R20, R21]. -/
def execRead (idx : Nat) (s : State) : Out :=
  .next (match s.servable idx with
    | none => s
    | some q => if q.kind == 2#4 || q.kind == 3#4 then s else s.serveRead idx q)

/-- A write of whole granules needs no read: only RANGE, BADREQ and CHOFF stop it. -/
def writeStatus (st : Nat) : Nat := if stRANGE ≤ st then st else stOK

/-- Whole granules written, at a CXL port 64 bytes at a time, and acknowledged with the KIND that asked for it [01 R20, R21, R28]. -/
def State.putWhole (s : State) (idx : Nat) (q : Req) : State :=
  let l := q.loc
  let st := writeStatus (s.locStatus l q.size)
  if st != stOK then s.answerReq idx q st [] 0
  else
    let d := (q.data.drop q.off).take q.line
    let s1 := (s.locWrite (l.plus q.off) d).stageWrite q (l.plus q.off).space.1 (bytesAt (l.plus q.off).space.2 d)
    if q.off + q.line < q.size then s1.withMs (fun m => { m with reqs := lset m.reqs idx { q with off := q.off + q.line } })
    else s1.answerReq idx q stOK [] 0

/-- A write performed [01 R20, R21]. -/
def State.serveWrite (s : State) (idx : Nat) (q : Req) : State :=
  if q.malformed then s.answerReq idx q stBADREQ [] 0 else s.putWhole idx q

/-- WRITE: a write request is performed at its memory [01 R20, R21]. -/
def execWrite (idx : Nat) (s : State) : Out :=
  .next (match s.servable idx with
    | none => s
    | some q => if q.kind == 2#4 then s.serveWrite idx q else s)

/-- The bytes of a granule with the enabled bytes of a masked write replaced [01 R23]. -/
def mergeBytes (mask : W32) (old new : List Byte) : List Byte :=
  (List.range 32).map (fun i => if mask.getLsbD i then new.getD i 0#8 else old.getD i 0#8)

/-- A masked write performed: a read-modify-write of its granule [01 R23]. -/
def State.serveMasked (s : State) (idx : Nat) (q : Req) : State :=
  if q.malformed then s.answerReq idx q stBADREQ [] 0
  else if q.mask == 0#32 then s.answerReq idx q stOK [] 0
  else if q.mask == 0xFFFFFFFF#32 then s.putWhole idx q
  else
    let l := q.loc
    let st := s.locStatus l 32
    let s1 := s.eccEvent l st
    if stUE ≤ st then s1.answerReq idx q st [] 0
    else
      let d := mergeBytes q.mask (s1.locRead l 32) q.data
      ((s1.locWrite l d).stageWrite q l.space.1 ((bytesAt l.space.2 d).filter (fun p => q.mask.getLsbD (p.1 - l.space.2)))).answerReq idx q st [] 0

/-- MASKED_WRITE: a masked write request is performed at its memory [01 R23]. -/
def execMaskedWrite (idx : Nat) (s : State) : Out :=
  .next (match s.servable idx with
    | none => s
    | some q => if q.kind == 3#4 then s.serveMasked idx q else s)

/-- The part of an operation that holds an offset changed. -/
def Op.onPart (o : Op) (off : Nat) (f : Part → PartSt) : Op :=
  { o with parts := o.parts.map (fun p => if p.off ≤ off && off < p.off + p.n then { p with st := f p } else p) }

/-- One answer fewer to wait for. -/
def PartSt.answered (p : PartSt) : PartSt :=
  match p with
  | .sent n o => if n ≤ 1 then .done else .sent (n - 1) o
  | x => x

/-- The failure of an access at a memory or on its way [04 R99]. -/
def memFault (o : Op) (p : Part) (cls : Nat) (info1 : Word) : FaultInfo :=
  { cls := cls, va := p.va, acc := o.need.acc, info1 := info1, info2 := 0, mem := true }

/-- The class of a reply status [04 R99]. -/
def statusClass (st : Nat) : Nat := if st == stRANGE then fcRANGE else fcMEMUE

/-- A part failed, unless it has ended. -/
def PartSt.fail (p : PartSt) (f : FaultInfo) : PartSt := if p.ended then p else .bad f

/-- What a reply brings to one of the operations that it serves [01 R21]. -/
def State.takeServe (s : State) (r : Rep) (sv : Serve) : State :=
  match s.op sv.op with
  | none => s
  | some o =>
    let st := r.status.toNat
    if stUE ≤ st then s.putOp (o.onPart sv.off (fun p => p.st.fail (memFault o p (statusClass st) (BitVec.ofNat 64 st))))
    else
      let o1 := o.onPart sv.off (fun p => p.st.answered)
      let o2 := if o.kind == .write then o1
        else { o1 with got := mwrite o1.got sv.off ((r.data.drop sv.skip).take sv.take), flags := o1.flags ||| r.flags }
      s.putOp o2

/-- The region whose stream a reply reaches is no longer idle [07 R173]. -/
def State.aliveStream (s : State) (st : Stream) : State :=
  match st.site with
  | some (sl, _) => s.onRegion sl Region.alive
  | none => s

/-- The tag that a request still holds, under its generation [08 R193]. -/
def State.tagOf (s : State) (q : Req) : Option Tag :=
  let t := s.ms.tag q.stream q.target q.tag.toNat
  if t.gen == q.gen && (match t.busy with | some b => b.id == q.id | none => false) then some t else none

/-- MEM_REPLY: a reply reaches its requester, or is dropped as late; one that more than 2 ms have passed over arrives never
[01 R19, R22; 08 R193]. -/
def execMemReply (idx : Nat) (s : State) : Out :=
  .next (match s.ms.reps[idx]? with
    | none => s
    | some r =>
      if (s.ms.reps.take idx).any (fun p => p.req.overlaps r.req) then s
      else
        let q := r.req
        let s1 := s.withMs (fun m => { m with reps := ldel m.reps idx })
        if 2000000 < s.time - q.at_ then s1
        else
          match s.tagOf q with
          | none => s1.withMs (fun m => { m with late := bump m.late q.edge })
          | some t =>
            let s2 := s1.withMs (fun m => m.putTag { t with busy := none })
            ((q.serves.foldl (fun s sv => s.takeServe r sv) s2).aliveStream q.stream).run)

/-- The timeout of an operation in ns [08 R192]. -/
def State.timeoutOf (s : State) (o : Op) : Nat :=
  match o.who, o.stream with
  | .fire _ _ _ _ _ _ _ _, .operand _ _ _ => 1000000
  | .fire sl c el _ _ _ _ _, _ => match s.region sl with
    | some r => (r.elem c el).rtmo
    | none => 1000000
  | _, _ => 1000000

/-- The time from which an operation is timed: a gather access from its entry into the gather unit, another from its
request's tag [08 R192]. -/
def Op.timedFrom (o : Op) (tagAt : Nat) : Nat :=
  match o.stream with
  | .gather _ => o.entered
  | _ => tagAt

/-- Whether an operation that a request serves has run out of time. -/
def State.overdue (s : State) (tagAt : Nat) (sv : Serve) : Bool :=
  match s.op sv.op with
  | none => decide (1000000 ≤ s.time - tagAt)
  | some o => decide (s.timeoutOf o ≤ s.time - o.timedFrom tagAt)

/-- An operation's part ended by a timeout [08 R193]. -/
def State.timeoutServe (s : State) (info1 : Word) (sv : Serve) : State :=
  match s.op sv.op with
  | none => s
  | some o => s.putOp (o.onPart sv.off (fun p => p.st.fail (memFault o p fcTIMEOUT info1)))

/-- A tag's request timed out: what is overdue ends; when nothing is left the tag frees under the next generation
[01 R19; 08 R192, R193]. -/
def State.timeoutTag (s : State) (t : Tag) (q : Req) : State :=
  let out := q.serves.filter (fun sv => s.overdue q.at_ sv)
  let rest := q.serves.filter (fun sv => !s.overdue q.at_ sv)
  if out.isEmpty && !(q.serves.isEmpty && 1000000 ≤ s.time - q.at_) then s
  else
    let info := BitVec.ofNat 64 (t.tag.toNat + 16 * t.gen.toNat)
    let s1 := out.foldl (fun s sv => s.timeoutServe info sv) s
    let s2 := s1.withMs (fun m => { m with tmo := bump m.tmo q.edge })
    (s2.withMs (fun m =>
      if rest.isEmpty then m.putTag { t with busy := none, gen := t.gen + 1, old := t.old ++ [(t.gen, s.time)] }
      else m.putTag { t with busy := some { q with serves := rest } })).run

/-- REQUEST_TIMEOUT: of a tag [08 R192, R193]. -/
def execRequestTimeout (idx : Nat) (s : State) : Out :=
  .next (match s.ms.tags[idx]? with
    | some t =>
      (match t.busy with
        | none => s
        | some q => s.timeoutTag t q)
    | none => s)

/-- HELD_REQUEST_DISCARD: a request that a base die or CXL port has held for 1.5 ms is discarded, and, at an index above those, the ones
that the fabric ports have held so long [08 R193]. -/
def execHeldRequestDiscard (idx : Nat) (s : State) : Out :=
  .next (match s.ms.reqs[idx]? with
    | none => s.dropExpired
    | some q => if 1500000 ≤ s.time - q.at_ then s.withMs (fun m => { m with reqs := ldel m.reqs idx }) else s)

/-- COMPLETION_TIMEOUT: a request at a CXL port that no completion answers gets status UE, after the earlier ones that it overlaps
[01 R22, R28]. -/
def execCompletionTimeout (idx : Nat) (s : State) : Out :=
  .next (match s.servable idx with
    | none => s
    | some q =>
      match q.target with
      | .cxl _ => s.answerReq idx q stUE [] 0
      | _ => s)

/-- A channel's row of failures. -/
def MemSys.chan (m : MemSys) (n : Nat) : DramChan :=
  match m.chans.find? (fun c => c.1 == n) with
  | some c => c.2
  | none => ⟨0, false⟩

/-- A memory system with a channel written. -/
def MemSys.putChan (m : MemSys) (n : Nat) (c : DramChan) : MemSys := { m with chans := m.chans.filter (fun d => d.1 != n) ++ [(n, c)] }

/-- PARITY_ALERT: the controller replays and counts in CAREP; the fourth replay that fails in a row makes it retrain and count
in RETRN [01 R25, R26].  A far stack, which has no channels in this map, raises none (log 47). -/
def execParityAlert (stack chan : Nat) (s : State) : Out :=
  .next (
    let n := 32 * stack + chan
    let c := s.ms.chan n
    let h := tget s.ms.hstat Hstat.zero stack
    if 8 ≤ stack || 32 ≤ chan || c.train || (tget s.ms.hoffl 0#32 stack).getLsbD chan then s
    else if c.fails < 4 then
      s.withMs (fun m => { m.putChan n { c with fails := c.fails + 1 } with
        hstat := tset m.hstat stack { h with carep := if h.carep == 0xFFFF#16 then h.carep else h.carep + 1 } })
    else
      s.withMs (fun m => { m.putChan n { fails := 0, train := true } with
        hstat := tset m.hstat stack { h with retrn := if h.retrn == 0xFF#8 then h.retrn else h.retrn + 1 } }))

/-- CHANNEL_RETRAIN: retraining ends well, or the channel goes offline, which DEGR tells [01 R25; 03 R64]. -/
def execChannelRetrain (stack chan : Nat) (ok : Bool) (s : State) : Out :=
  .next (
    let n := 32 * stack + chan
    if !(s.ms.chan n).train then s
    else s.withMs (fun m => { m.putChan n ⟨0, false⟩ with
      hoffl := if ok then m.hoffl else tset m.hoffl stack (tget m.hoffl 0#32 stack ||| (1#32 <<< chan)) })
      |> (fun t => { t with mg := { t.mg with degr := t.mg.degr || !ok } }))

/-- FAR_CHAIN_FAIL: the chain link of a far stack fails [01 R26]. -/
def execFarChainFail (stack : Nat) (s : State) : Out :=
  .next (if 8 ≤ stack && stack < 16 && !s.ms.farBad.contains stack then s.withMs (fun m => { m with farBad := m.farBad ++ [stack] }) else s)

/-- The gather row of a place [08 R190]. -/
def Loc.row (l : Loc) : Loc :=
  match l with
  | .hbm st off => .hbm st (off / 2048 * 2048)
  | .cxl p off => .cxl p (off / 2048 * 2048)
  | .host f a => .host f (a / 2048 * 2048)
  | .peer d va => .peer d va

/-- The address of a place at its target. -/
def Loc.addr (l : Loc) : Nat := l.target.2.2

/-- A store of a gather row as writes [01 R24]; its part waits for all of them. -/
def State.rowStore (s : State) (q : GathReq) : State :=
  match s.op q.op with
  | none => s
  | some o =>
    let rs := storeReqs o q.loc q.loc.addr ((o.data.drop q.off).take q.n) q.off
    (s.withMs (fun m => { m with queue := m.queue ++ rs })).putOp (o.onPart q.off (fun p => match p.st with | .sent _ b => .sent rs.length b | x => x))

/-- The loads of a gather row as one read from the lowest to the highest requested granule [08 R190]. -/
def State.rowRead (s : State) (qs : List GathReq) : State :=
  match qs, qs.findSome? (fun q => s.op q.op) with
  | q0 :: _, some o =>
    let lo := (qs.foldl (fun m q => if q.loc.addr < m then q.loc.addr else m) q0.loc.addr) / 32 * 32
    let hi := qs.foldl (fun m q => if m < q.loc.addr + q.n then q.loc.addr + q.n else m) 0
    let base := q0.loc.row.plus (lo - q0.loc.row.addr)
    let r := mkReq o base 1 lo ((hi + 31) / 32 - lo / 32) 0 [] (qs.map (fun q => ⟨q.op, q.off, q.loc.addr - lo, q.n⟩))
    s.withMs (fun m => { m with queue := m.queue ++ [r] })
  | _, _ => s

/-- A gather row issued: one read, and the writes of its stores in order [08 R190]. -/
def State.issueRow (s : State) (r : GathRow) : State :=
  let live := r.reqs.filter (fun q => (s.op q.op).isSome)
  (live.filter (fun q => q.store)).foldl (fun s q => s.rowStore q) (s.rowRead (live.filter (fun q => !q.store)))

/-- A gather unit. -/
def State.gather (s : State) (e : Nat) : Gather := tget s.ms.gather Gather.empty e

/-- The state with a gather unit written. -/
def State.putGather (s : State) (e : Nat) (g : Gather) : State := s.withMs (fun m => { m with gather := tset m.gather e g })

/-- A row of a gather unit closed and issued. -/
def State.closeRow (s : State) (e : Nat) (row : Loc) : State :=
  let g := s.gather e
  match g.rows.find? (fun r => r.row == row) with
  | none => s
  | some r => (s.putGather e { g with rows := g.rows.filter (fun x => x.row != row) }).issueRow r

/-- Whether a request must not join a row: an overlapping access of its AE of the other direction [08 R190]. -/
def GathRow.clash (r : GathRow) (q : GathReq) : Bool :=
  r.reqs.any (fun p => p.slot == q.slot && p.core == q.core && p.elem == q.elem && p.store != q.store && p.loc.addr < q.loc.addr + q.n &&
    q.loc.addr < p.loc.addr + p.n)

/-- A part of an element request put into its row, which opens for its first [08 R190]. -/
def Gather.join (g : Gather) (q : GathReq) (now : Nat) : Gather :=
  if g.rows.any (fun r => r.row == q.loc.row) then
    { g with rows := g.rows.map (fun r => if r.row == q.loc.row then { r with reqs := r.reqs ++ [q] } else r) }
  else { g with rows := g.rows ++ [⟨q.loc.row, [q], 1, now⟩] }

/-- A part of an element request enters its row, after the row that it must not join, or the oldest of 16, has issued [08 R190]. -/
def State.joinRow (s : State) (edge : Nat) (q : GathReq) : State :=
  let g := s.gather edge
  let s1 := match g.rows.find? (fun r => r.row == q.loc.row) with
    | some r => if r.clash q then s.closeRow edge r.row else s
    | none => if 16 ≤ g.rows.length then (match g.rows.head? with | some r => s.closeRow edge r.row | none => s) else s
  s1.putGather edge ((s1.gather edge).join q s.time)

/-- Whether an element request may enter its gather unit: after the earlier ones of its AE, when its piece has been translated, and in a DET region
when its turn has come, after those whose turns came before [05 R130; 08 R190]. -/
def State.mayJoin (s : State) (g : Gather) (idx : Nat) (q : GathReq) : Bool :=
  !(g.inq.take idx).any (fun p => p.slot == q.slot && p.core == q.core && p.elem == q.elem) &&
  (s.op q.op).all (fun o => !o.parts.any (fun p => p.st.pending)) &&
  decide (q.due ≤ s.time) && !((s.region q.slot).any (fun r => r.det) && g.inq.any (fun p => p.slot == q.slot && decide (p.due < q.due)))

/-- The rows that 64 requests have seen issue [08 R190]. -/
def State.closeFull (s : State) (e : Nat) : State :=
  (((s.gather e).rows.filter (fun r => 64 ≤ r.seen)).map (fun r => r.row)).foldl (fun s r => s.closeRow e r) s

/-- ELEMENT_REQUEST: an element request, one piece, enters its rows of the gather unit: it counts once for every open row [08 R190]. -/
def execElementRequest (edge idx : Nat) (s : State) : Out :=
  .next (
    let g := s.gather edge
    match g.inq[idx]? with
    | none => s
    | some q =>
      if !s.mayJoin g idx q then s
      else
        let g1 : Gather := ⟨g.inq.filter (fun p => p.op != q.op), g.rows.map (fun r => { r with seen := r.seen + 1 })⟩
        (((g.inq.filter (fun p => p.op == q.op)).foldl (fun s p => s.joinRow edge p) (s.putGather edge g1)).closeFull edge).run)

/-- GATHER_ROW_TIMEOUT: a row that has been open for 256 clk issues [08 R190]. -/
def execGatherRowTimeout (edge row : Nat) (s : State) : Out :=
  .next (match (s.gather edge).rows[row]? with
    | none => s
    | some r => if 256 ≤ s.time - r.opened then (s.closeRow edge r.row).run else s)

/-- The parts of operations that wait for a walk of a unit, inside a page of `bits` bits, decided [04 R97]. -/
def State.endMisses (s : State) (u ten page bits : Nat) (g : Op → Part → PartSt) : State :=
  s.withMs (fun m => { m with ops := m.ops.map (fun o =>
    if o.ten == ten && s.streamEdge o.stream == u then
      { o with parts := o.parts.map (fun p =>
        if p.st == .walking && p.va.toNat / 2 ^ bits == page * 65536 / 2 ^ bits then { p with st := g o p } else p) }
    else o) })

/-- Queued misses of a unit walked while walkers are free: one whose page is being walked waits for that walk, one of a tenant without a
table faults, another starts a walk [04 R97]. -/
def State.walkMore (s : State) (u : Nat) : Nat → State
  | 0 => s
  | f + 1 =>
    let x := s.xunit u
    match x.misses with
    | [] => s
    | m :: rest =>
      if 64 ≤ x.walks.length then s
      else
        let x1 := { x with misses := rest }
        if x.walks.any (fun w => w.ten == m.ten && w.page == m.page) then (s.putUnit u x1).walkMore u f
        else match s.rootTable m.ten with
          | none => ((s.endMisses u m.ten m.page 16 (fun o p => .bad (xlFault fcXLATE p.va o.need.acc 0))).putUnit u x1).walkMore u f
          | some root =>
            let (l, t) := x.startOf m.ten root (BitVec.ofNat 64 (m.page * 65536))
            (s.putUnit u { x1 with walks := x.walks ++ [⟨m.ten, m.page, l, t⟩] }).walkMore u f

/-- A walk of a unit ended, and queued misses walked in its place [04 R97]. -/
def State.freeWalker (s : State) (u idx : Nat) : State :=
  let x := s.xunit u
  (s.putUnit u { x with walks := ldel x.walks idx }).walkMore u 256

/-- A walk that ended in a leaf: cached, and every waiting miss in the leaf's page completes [04 R97]. -/
def State.endWalk (s : State) (u idx : Nat) (w : PageWalk) (va : Word) (e : Word) : State :=
  let bits := pageBits w.level
  let atomic (o : Op) : Bool := match o.kind with | .atomic _ => true | _ => false
  let use (s : State) (o : Op) (p : Part) : PartSt :=
    match s.leafUse w.ten p.va e w.level o.need o.apers (atomic o) with
    | .error f => .bad f
    | .ok (l, ord) => .ready l ord
  let s1 := s.endMisses u w.ten w.page bits (use s)
  let good := match s.leafUse w.ten va e w.level ⟨false, false, false, false⟩ apAll false with | .ok _ => true | .error _ => false
  let x := s1.xunit u
  let x1 := { x with misses := x.misses.filter (fun m => !(m.ten == w.ten && m.page * 65536 / 2 ^ bits == w.page * 65536 / 2 ^ bits)),
                     tlb := if good then addOldest 4096 x.tlb ⟨w.ten, va.toNat / 2 ^ bits, bits, e, w.level⟩ else x.tlb }
  (s1.putUnit u x1).freeWalker u idx

/-- TABLE_WALK_READ: a walk reads its next entry [04 R92, R93, R97]. -/
def execTableWalkRead (unit idx : Nat) (s : State) : Out :=
  .next (
    let x := s.xunit unit
    match x.walks[idx]? with
    | none => s
    | some w =>
      let va := BitVec.ofNat 64 (w.page * 65536)
      let e := match s.walkStep w.ten w.level w.table va with | .bad c _ => c == fcMEMUE | _ => true
      let s1 := if e then s.stepEcc w.level w.table va else s
      match s.walkStep w.ten w.level w.table va with
      | .next t =>
        s1.putUnit unit { x with walks := lset x.walks idx { w with level := w.level + 1, table := t },
                                 cache := addOldest 256 x.cache ⟨w.ten, w.level, va.toNat / 2 ^ pageBits w.level, t⟩ }
      | .leaf e => (s1.endWalk unit idx w va e).run
      | .bad c i =>
        ((s1.endMisses unit w.ten w.page 16 (fun o p => .bad (xlFault c p.va o.need.acc i))).freeWalker unit idx).run)

/-- RECORD_READ: a copy channel reads the record at its head [08 R195]. -/
def execRecordRead (slot core ch : Nat) (s : State) : Out := .next (s.readRecord slot core ch).run

/-- SECTOR_LAND: a sector of a copy is written [08 R199]. -/
def execSectorLand (slot core ch idx : Nat) (s : State) : Out := .next (s.landSector slot core ch idx).run

end Sys2Proof.Machine
end

