-- ==== Sys2Proof/Machine/FabricRecv.lean ====
section
/-! DEFINITION. Packets that arrive, forwarding, custody, connections, error notices, links, the time base
[01 R29 to R32; 02 R35 to R46, R49; 09 R219]. -/

namespace Sys2Proof.Machine

/-- Whether a receiving port discards a packet [02 R35]. -/
def pktBad (p : Packet) : Bool := 8 ≤ p.kind.toNat || p.tc == 7#3 || p.rsv != 0#16 || (p.pad != 0#5 && p.np == 1#1)

/-- An event counted in a port's error counters [02 R35, R40]. -/
def State.portError (s : State) (port : Nat) : State :=
  s.withFb (fun f => { f with ports := tset f.ports port { s.port port with errs := (s.port port).errs + 1 } })

/-- The physical port on which a packet from a neighbour arrives. -/
def State.hopPort (s : State) (p : Packet) : Nat :=
  match s.portTo p.hop with
  | some n => s.physPort n
  | none => 32

/-- A custody ack to the previous hop [02 R41]. -/
def State.custodyAck (s : State) (p : Packet) : State := s.sendCtl p.hop p.ten.toNat 0 (pktId p)

/-- The remote access that an answer names, taken, with whether its tag still waits for it; an answer without is dropped, and counted where
its request left [08 R193]. -/
def State.takeRemote (s : State) (opq : BitVec 40) : State × Option Remote :=
  match s.fb.remotes.find? (fun m => m.opq == opq) with
  | none => (s, none)
  | some m =>
    let s1 := s.withFb (fun f => { f with remotes := f.remotes.filter (fun r => r.opq != opq) })
    match s.tagOf m.req with
    | none => (s1.withMs (fun x => { x with late := bump x.late m.req.edge }), none)
    | some t => if 2000000 < s.time - m.req.at_ then (s1, none) else (s1.withMs (fun x => x.putTag { t with busy := none }), some m)

/-- The remote access with an identity failed with a class: its part ends in that fault [02 R41, R42; 04 R95; 08 R197]. -/
def State.failRemote (s : State) (opq : BitVec 40) (cls : Nat) (info1 info2 : Word) (mem : Bool) : State :=
  match s.takeRemote opq with
  | (s1, none) => s1
  | (s1, some m) =>
    m.req.serves.foldl (fun s sv => match s.op sv.op with
      | none => s
      | some o => (s.putOp (o.onPart sv.off (fun p => p.st.fail { memFault o p cls info1 with info2 := info2, mem := mem }))).aliveStream o.stream) s1

/-- Whether an operation has written at its target: not a read, and not a compare-and-swap whose comparison failed [02 R45; 15 R380]. -/
def OpKind.wrote (k : OpKind) (n old : Nat) : Bool :=
  match k with
  | .read => false
  | .atomic (.cas c) => c.toNat % 2 ^ (8 * n) == old % 2 ^ (8 * n)
  | _ => true

/-- The answer to a remote access [04 R95; 15 R379; 02 R45]. -/
def State.remoteDone (s : State) (opq : BitVec 40) (h : ReplyHead) (data : List Byte) : State :=
  if h.cls != 0 then s.failRemote opq h.cls h.info1 1 h.mem
  else match s.takeRemote opq with
    | (s1, none) => s1
    | (s1, some m) =>
      m.req.serves.foldl (fun s sv => match s.op sv.op with
        | none => s
        | some o =>
          let o1 := o.onPart sv.off (fun p => p.st.answered)
          let o2 := if o.kind == .write then o1 else { o1 with got := mwrite o1.got sv.off (data.take sv.take), flags := o1.flags ||| h.flags }
          (s.putOp { o2 with late := o2.late || (o.kind.wrote sv.take (leNum data) && (h.late || !s.mg.sync)) }).aliveStream o.stream) s1

/-- The stream of a meld packet that this device's exchange elements sent: RED and LIN. -/
def meldStream (p : Packet) : Nat × Nat := let h := MHead.ofBytes (pktContent p); (h.red, h.lin)

/-- An error notice at the source of a packet: a fault on what sent it, a new route, a failed stream or collective
[02 R40, R41, R49, R60; 15 R386]. -/
def State.gotNotice (s : State) (q : Packet) (status : Nat) : State :=
  let s1 := if status == 2 then s else s.withFb (fun f => { f with
    undeliv := dropFirst (fun u => pktId u == pktId q) f.undeliv, custody := dropFirst (fun k => pktId k.pkt == pktId q) f.custody })
  if status == 2 && !tcOrdered q.tc then s1.sendPkt q
  else match q.kind.toNat with
    | 0 | 1 | 3 =>
      let (v, s2) := s1.draw
      s2.failRemote q.opq (if status ≤ 1 then fcUNREACH else fcOPFAULT) v 0 true
    | 5 => if q.opq.getLsbD 8 then s1.dropOut q else (s1.dropOut q).failStream q.ten.toNat (meldStream q).1 (meldStream q).2 (if status < 4 then (if status == 1 then 1 else 0) else status)
    | 6 => s1.endColl q.ten.toNat (bitsAt q.opq.toNat 0 6) clUNREACH true
    | _ => s1

/-- An error notice for a packet: sent to its source, or acted on where this device is the source. -/
def State.tell (s : State) (p : Packet) (status : Nat) : State :=
  if p.src == s.self then s.gotNotice p status else s.notice p status

/-- The packet that leaves, and the next hop of the path in its header; the VIA device clears VV [02 R38] (log 13). -/
def State.nextHop (s : State) (p : Packet) : Packet × BitVec 8 :=
  if p.vv == 1#1 && p.via != s.self then (p, s.rowFirst p.via) else ({ p with vv := 0, via := 0 }, s.rowFirst p.dst)

/-- A packet for another device, forwarded along its path, with custody in the custody classes [02 R38, R40, R41]. -/
def State.forwardPkt (s : State) (p : Packet) : State :=
  let (q, h) := s.nextHop p
  let s1 := if !s.tcConn p.tc && !isAck p then s.custodyAck p else s
  match s.livePort h with
  | some n => s1.putOut q n 0
  | none => if tcOrdered p.tc then s1.hold q (match s.portTo h with | some n => s.physPort n | none => 32) 0 else s1.tell q 2

/-- Whether a packet is a write whose commit its target answers for itself [02 R41, R45]. -/
def answeredWrite (p : Packet) : Bool := p.kind == 0#4 && p.tc != 5#3

/-- A packet of a custody class: acknowledged to the hop before once placed; refused with an error notice and no ack; or left, to be sent
again [02 R41, R59].  The delivery ack of a packet that is `kept` comes when its credit is given back. -/
def State.takeCustody (s : State) (p : Packet) (g : State → Taken) : State :=
  match g s with
  | .later t => t
  | .refused t st => t.notice p st
  | .kept t => t.custodyAck p
  | .ok t =>
    if isAck p then t
    else
      let t1 := t.custodyAck p
      if tcOrdered p.tc && !answeredWrite p then t1.deliveryAck p { cls := 0, late := false, flags := 0, info1 := 0 } else t1

/-- The connection of a peer and tenant, in port SRAM, which is a use of it [02 R43]. -/
def State.connHere (s : State) (peer : BitVec 8) (ten : BitVec 4) : State × Conn :=
  match s.conn peer ten with
  | some c =>
    let c1 := { c with here := true, used := s.time }
    if c.here then (s.putConn c1, c1)
    else
      ((s.withFb (fun f => { f with conns := makeRoom f.conns })).putConn c1, c1)
  | none =>
    let c := Conn.fresh peer ten s.time
    (s.putConn c, c)

/-- The connection that a packet or a timer needs: one that has spilled is fetched first, and the packets that waited for it go on
[02 R36, R43]. -/
def State.connReady (s : State) (peer : BitVec 8) (ten : BitVec 4) : State × Conn :=
  let (s1, c) := s.connHere peer ten
  match s.conn peer ten with
  | some d => if d.here then (s1, c) else (let s2 := s1.flushAwaits; (s2, (s2.conn peer ten).getD c))
  | none => (s1, c)

/-- A connection ack of the highest SEQ received in order [02 R42]. -/
def State.connAck (s : State) (c : Conn) : State :=
  (s.putConn { c with owed := 0, owedAt := s.time }).sendCtl c.peer c.ten.toNat 2 (leOf 2 (c.expect - 1).toNat)

/-- A packet of a connection class: only the next expected SEQ is accepted; 16 packets make an ack, a packet out of order another
[02 R42].  A packet that cannot be taken yet is not accepted either: its sender sends it again (log 14). -/
def State.takeConn (s : State) (p : Packet) (g : State → Taken) : State :=
  let (s1, c) := s.connReady p.src p.ten
  if p.seq != c.expect then s1.connAck c
  else
    let c1 := { c with expect := c.expect + 1, owed := c.owed + 1, owedAt := if c.owed == 0 then s.time else c.owedAt, used := s.time }
    let s2 := if 16 ≤ c1.owed then s1.connAck c1 else s1.putConn c1
    match g s2 with
    | .ok t => t
    | .kept t => t
    | .later _ => s1.connAck c
    | .refused t st => t.notice p st

/-- Whether a packet is refused because its tenant is being reset [02 R41; 03 R69]. -/
def State.refuses (s : State) (p : Packet) : Bool := (s.fn (p.ten.toNat + 1)).reset && !isAck p

/-- Whether a fabric packet came over a port in UALink mode, which carries none [01 R32]. -/
def State.strayPort (s : State) (p : Packet) : Bool := (s.port (s.hopPort p)).ualink

/-- A packet that arrives: discarded with BADPKT, forwarded, discarded where it is marked for connections and its class uses custody,
refused during its tenant's reset, or taken under its class's reliability [01 R32; 02 R35, R37, R38, R41, R42; 03 R69]. -/
def State.arrive (s : State) (p : Packet) (kind : Nat) (g : State → Taken) : State :=
  let s1 := if s.strayPort p then s
    else if pktBad p then (s.portError (s.hopPort p)).notice p 3
    else if p.kind.toNat != kind then s
    else if p.dst != s.self then s.forwardPkt p
    else if !s.tcConn p.tc && p.seq != 0#16 then s
    else if s.refuses p then s.notice p 1
    else if s.tcConn p.tc then s.takeConn p g
    else s.takeCustody p g
  s1.run

/-- A reply of a class to a remote access, with the request's identity (log 13). -/
def State.reply (s : State) (p : Packet) (kind : BitVec 4) (h : ReplyHead) (data : List Byte) : State :=
  s.send (s.packet p.src p.tc p.ten.toNat kind p.opq (h.bytes ++ data))

/-- The address and length at the head of a remote request (log 13). -/
def remoteVa (p : Packet) : Word := BitVec.ofNat 64 (leNum ((pktContent p).take 8))
/-- Length. -/
def remoteLen (p : Packet) : Nat := leNum (((pktContent p).drop 8).take 8) % 2049

/-- The answer of a target-side fault. -/
def ReplyHead.ofFault (f : FaultInfo) : ReplyHead := ⟨f.cls, false, 0, f.info1, f.mem⟩

/-- A write at its target: translated and checked here, late or not, and answered: by the delivery ack in a custody class, by a reply in
a connection class [02 R41, R44, R45; 04 R95; 09 R219] (log 13).  A leaf of the target that is itself a peer leaf faults APERTURE here (log 51). -/
def State.targetWrite (s : State) (p : Packet) : State :=
  if p.tc == 5#3 then s
  else
    let (s1, h) := match s.nput p.ten.toNat apLocal (remoteVa p) ((pktContent p).drop 16) with
      | (t, some f) => (t, ReplyHead.ofFault f)
      | (t, none) => (let (u, late) := t.lateCheck p; (u, (⟨0, late, 0, 0, false⟩ : ReplyHead)))
    if s.tcConn p.tc then s1.reply p 2 h [] else s1.deliveryAck p h

/-- FABRIC_WRITE [02 R41, R44, R45]; a management packet reaches firmware and changes nothing here. -/
def execFabricWrite (p : Packet) (s : State) : Out := .next (s.arrive p 0 (fun s => .ok (s.targetWrite p)))

/-- FABRIC_READ_REQUEST: performed at this device's memory, and answered [02 R35; 04 R95; 09 R219]. -/
def execFabricReadRequest (p : Packet) (s : State) : Out :=
  .next (s.arrive p 1 (fun s =>
    .ok (match s.uget p.ten.toNat needR apLocal (remoteVa p) (remoteLen p) with
      | (s, .error f) => s.reply p 2 (ReplyHead.ofFault f) []
      | (s, .ok b) => s.reply p 2 { cls := 0, late := false, flags := 0, info1 := 0 } b)))

/-- FABRIC_READ_REPLY: the answer to a read, or to a write of a connection class (log 13). -/
def execFabricReadReply (p : Packet) (s : State) : Out :=
  .next (s.arrive p 2 (fun s => .ok (s.remoteDone p.opq (ReplyHead.ofBytes (pktContent p)) ((pktContent p).drop 16))))

/-- The atomic of a code (log 13). -/
def atomOf (code : Nat) (cmp : Word) : AtomOp :=
  match code with
  | 0 => .add
  | 1 => .swap
  | 2 => .cas cmp
  | 3 => .max
  | 4 => .min
  | 5 => .fadd
  | 6 => .fmax
  | 7 => .and
  | _ => .or

/-- A remote atomic at its target, indivisible: the old value and the flags, or its fault [04 R95; 09 R216, R219; 15 R379, R380]. -/
def State.targetAtomic (s : State) (p : Packet) : State × ReplyHead × List Byte :=
  let va := remoteVa p
  let n := remoteLen p
  let b := (pktContent p).drop 16
  match s.translate p.ten.toNat va needRWA 7 with
  | .error f => (s.translateEcc p.ten.toNat va, ReplyHead.ofFault f, [])
  | .ok l =>
    let st := s.locStatus l n
    let s := (s.translateEcc p.ten.toNat va).eccEvent l st
    if stUE ≤ st then (s, ⟨statusClass st, false, 0, BitVec.ofNat 64 st, true⟩, [])
    else
      let old := leNum (s.locRead l n)
      let (new, fl) := (atomOf (leNum ((b.drop 16).take 1)) (BitVec.ofNat 64 (leNum ((b.drop 8).take 8)))).eval n old (leNum (b.take 8))
      match new with
      | none => (s, ⟨0, false, fl, 0, false⟩, leOf n old)
      | some w =>
        let s0 := (s.locWrite l (leOf n w)).dropStage (fun x => x.unit.path != 0 && x.space == l.space.1 && l.space.2 ≤ x.addr && x.addr < l.space.2 + n)
        let (s1, late) := (s0.noteWrite none (fun _ => false) l.space.1 (addrs l.space.2 n)
          (fun x => ((s0.ms.msgAt none l.space.1 x).map Msg.rels).getD [])).1.lateCheck p
        (s1, ⟨0, late, fl, 0, false⟩, leOf n old)

/-- FABRIC_ATOMIC [09 R219; 15 R380]. -/
def execFabricAtomic (p : Packet) (s : State) : Out :=
  .next (s.arrive p 3 (fun s => let (s1, h, d) := s.targetAtomic p; .ok (s1.reply p 4 h d)))

/-- FABRIC_ATOMIC_REPLY [15 R380]. -/
def execFabricAtomicReply (p : Packet) (s : State) : Out :=
  .next (s.arrive p 4 (fun s => .ok (s.remoteDone p.opq (ReplyHead.ofBytes (pktContent p)) ((pktContent p).drop 16))))

/-- MELD_PACKET: an input packet of a reduction at this device's unit; an input ended by it sends a notice back
[02 R47 to R49]. -/
def execMeldPacket (p : Packet) (s : State) : Out :=
  .next (if p.opq.getLsbD 8 && p.dst == s.self then s
    else s.arrive p 5 (fun s =>
      match s.meldTake (bitsAt p.opq.toNat 0 4) p.ten.toNat (some p) (pktContent p) with
      | (s1, .held) => .kept s1.melds
      | (s1, .gone) => .ok s1.melds
      | (s1, .bad st) => if st == 1 then .refused s1 1 else .ok (s1.notice p st).melds))

/-- OUTPUT_PACKET_ARRIVAL: an output packet of a reduction for this device's receiver [15 R387]. -/
def execOutputPacketArrival (p : Packet) (s : State) : Out :=
  .next (if !p.opq.getLsbD 8 then s else s.arrive p 5 (fun s => .kept (s.outputTake p).melds))

/-- CHUNK [02 R58, R59, R62]. -/
def execChunk (p : Packet) (s : State) : Out := .next (s.arrive p 6 (fun s => s.collTake p (bitsAt p.opq.toNat 0 6)))

/-- A control packet of a kind [02 R36] (log 13). -/
def State.control (s : State) (p : Packet) (kind : Nat) (g : State → Taken) : State :=
  if opqKind p == kind then s.arrive p 7 g else s

/-- CUSTODY_ACK: the next hop has custody, the copy goes [02 R41]. -/
def execCustodyAck (p : Packet) (s : State) : Out :=
  .next (s.control p 0 (fun s =>
    .ok (s.withFb (fun f => { f with custody := dropFirst (fun c => pktId c.pkt == (pktContent p).take 10) f.custody }))))

/-- DELIVERY_ACK: the packet is no longer outstanding; a write has committed, a meld packet gives its credit back
[02 R39, R41, R45, R47]. -/
def execDeliveryAck (p : Packet) (s : State) : Out :=
  .next (s.control p 1 (fun s =>
    let b := pktContent p
    match s.fb.undeliv.find? (fun u => pktId u == b.take 10) with
    | none => .ok (if s.tcConn 3 then (s.creditId (b.take 10)).melds else s)
    | some u =>
      let s1 := s.withFb (fun f => { f with undeliv := dropFirst (fun u => pktId u == b.take 10) f.undeliv })
      .ok (if answeredWrite u then s1.remoteDone u.opq (ReplyHead.ofBytes (b.drop 16)) []
        else if u.kind == 5#4 then (s1.creditId (b.take 10)).melds
        else s1)))

/-- CONNECTION_ACK: what it covers is no longer unacknowledged [02 R42]. -/
def execConnectionAck (p : Packet) (s : State) : Out :=
  .next (s.control p 2 (fun s =>
    let a := BitVec.ofNat 16 (leNum ((pktContent p).take 2))
    match s.conn p.src p.ten with
    | none => .ok s
    | some _ =>
      let (s, c) := s.connReady p.src p.ten
      let rest := c.unack.filter (fun u => decide ((u.seq - a - 1).toNat < 2 ^ 15))
      let moved := rest.length < c.unack.length
      .ok (s.putConn { c with unack := rest, fails := if moved then 0 else c.fails, sentAt := if moved then s.time else c.sentAt }).flushAwaits))

/-- ERROR_NOTICE [02 R40, R41, R49]. -/
def execErrorNotice (p : Packet) (s : State) : Out :=
  .next (s.control p 3 (fun s =>
    let b := pktContent p
    .ok (s.gotNotice (pktOf (b.drop 16)) (leNum (b.take 1)))))

/-- HOLD [02 R61]. -/
def execHold (p : Packet) (s : State) : Out := .next (s.control p 4 (fun s => .ok (s.collControl p)))

/-- RESUME [02 R61]. -/
def execResume (p : Packet) (s : State) : Out := .next (s.control p 5 (fun s => .ok (s.collControl p)))

/-- ABORT [02 R60, R61]. -/
def execAbort (p : Packet) (s : State) : Out := .next (s.control p 6 (fun s => .ok (s.collControl p)))

/-- ARMED [18 R405]. -/
def execArmed (p : Packet) (s : State) : Out :=
  .next (s.control p 7 (fun s => s.collTake p ((pktContent p).getD 0 0#8).toNat))

/-- END_ACK: a meld unit acknowledges an end packet [15 R386]. -/
def execEndAck (p : Packet) (s : State) : Out :=
  .next (s.control p 8 (fun s =>
    let b := pktContent p
    .ok (s.gotEndAck p.ten.toNat (leNum (b.take 2)) (leNum ((b.drop 2).take 1)) (leNum ((b.drop 3).take 1)))))

/-- SYNC_MESSAGE: the offset estimate in ns in bits 31:0, signed, and the K that the message is stamped with in bits 36:32
[02 R44, R46]. -/
def execSyncMessage (t : BitVec 64) (s : State) : Out :=
  let o := (BitVec.ofNat 32 t.toNat).toInt
  let k := BitVec.ofNat 5 (bitsAt t.toNat 32 5)
  let sat : Int := if o < -32767 then -32767 else if 32767 < o then 32767 else o
  .next { s.withFb (fun f => { f with syncAt := s.time }) with
    mg := { s.mg with offs := BitVec.ofInt 16 sat, sync := k == s.vwNow && -50 ≤ o && o ≤ 50 } }

/-- SYNC_LOST: no Sync message within the last 64 intervals of 1/128 s [02 R46]. -/
def execSyncLost (s : State) : Out :=
  .next (if 500000000 ≤ s.time - s.fb.syncAt then { s with mg := { s.mg with sync := false } } else s)

/-- CUSTODY_TIMEOUT: no ack within 20 us: three resends, then UNREACH to the source [02 R41]. -/
def execCustodyTimeout (idx : Nat) (s : State) : Out :=
  .next (match s.fb.custody[idx]? with
    | none => s
    | some c =>
      if s.time - c.at_ < 20000 || s.fb.out.any (fun o => o.port == c.port && o.pkt == c.pkt) then s
      else if c.resent < 3 then
        s.withFb (fun f => { f with custody := lset f.custody idx { c with resent := c.resent + 1, at_ := s.time }, out := f.out ++ [(⟨c.port, c.pkt, s.time⟩ : OutPkt)] })
      else (s.withFb (fun f => { f with custody := ldel f.custody idx })).tell c.pkt 0).run

/-- The packets of a connection sent again, the flows free to take a new path [02 R39, R40, R42]. -/
def State.resendAll (s : State) (c : Conn) : State :=
  c.unack.foldl (fun s p => s.sendPkt p)
    (s.withFb (fun f => { f with flows := f.flows.filter (fun g => !(g.dst == c.peer && g.ten == c.ten && s.tcConn g.tc)) }))

/-- CONNECTION_TIMEOUT: no ack advanced the window within 10 us: everything is sent again, or, the eighth time in a row, the
connection closes and every unacknowledged packet is UNREACH [02 R42] (log 13). -/
def execConnectionTimeout (idx : Nat) (s : State) : Out :=
  .next (match s.fb.conns[idx]? with
    | none => s
    | some d =>
      let (s, c) := s.connReady d.peer d.ten
      if c.unack.isEmpty || s.time - c.sentAt < 10000 then s
      else if c.fails + 1 < 8 then (s.putConn { c with fails := c.fails + 1, sentAt := s.time }).resendAll c
      else
        let first := match c.unack with | p :: _ => p.seq | [] => c.nextSq
        c.unack.foldl (fun s p => s.gotNotice p 0) (s.putConn { c with fails := 0, openC := false, unack := [], nextSq := first })).run

/-- ACK_TIMER: an ack is owed for 2 us; the connection is fetched first where it has spilled [02 R42, R43]. -/
def execAckTimer (idx : Nat) (s : State) : Out :=
  .next (match s.fb.conns[idx]? with
    | none => s
    | some d =>
      if d.owed == 0 || s.time - d.owedAt < 2000 then s
      else let (s1, c) := s.connReady d.peer d.ten; s1.connAck c)

/-- HOLD_PACKET_TIMEOUT: a packet held for 20 us.  In a connection class it is dropped and counted; in a custody class its custody timer
has run out: it is held on as a resend, and after three resends it is UNREACH; an acknowledgement is dropped; a packet that only waits for
room in a queue waits on [02 R38, R40, R41].  One held for want of a usable path, of which R38 says nothing, is dropped and counted in a
connection class and UNREACH, with no resend, in a custody class (log 6). -/
def execHoldPacketTimeout (idx : Nat) (s : State) : Out :=
  .next (match s.fb.held[idx]? with
    | none => s
    | some h =>
      let gone := s.withFb (fun f => { f with held := ldel f.held idx })
      if s.time - h.at_ < 20000 || (h.port == 32 && (s.path h.pkt.dst h.pkt.tc false).isSome) then s
      else if s.tcConn h.pkt.tc then gone.portError h.port
      else if isAck h.pkt then gone
      else if h.port != 32 && h.resent < 3 then
        s.withFb (fun f => { f with held := lset f.held idx { h with resent := h.resent + 1, at_ := s.time } })
      else gone.tell h.pkt 0).run

/-- What a link that no longer carries packets does to those on their way to it: packets in custody for it and packets queued at its port
go back to be routed again, or are held, by their class [02 R40]. -/
def State.linkLost (s : State) (port : Nat) : State :=
  let mine := s.fb.custody.filter (fun c => c.port == port)
  let rest := ((s.fb.out.filter (fun q => q.port == port && (s.tcConn q.pkt.tc || isAck q.pkt))).map (fun q => q.pkt))
  let s1 := s.withFb (fun f => { f with
    custody := f.custody.filter (fun c => c.port != port), out := f.out.filter (fun q => q.port != port),
    held := f.held ++ (mine.filter (fun c => tcOrdered c.pkt.tc)).map (fun c => ⟨c.pkt, port, c.at_, c.resent⟩) ++
      (rest.filter (fun p => tcOrdered p.tc)).map (fun p => ⟨p, port, s.time, 0⟩) })
  ((mine.filter (fun c => !tcOrdered c.pkt.tc)).map (fun c => c.pkt) ++ rest.filter (fun p => !tcOrdered p.tc)).foldl (fun s p => s.tell p 2) s1

/-- What a link that carries packets again does: packets held for it go on, and those that had no path are routed [02 R38, R40]. -/
def State.linkBack (s : State) (port : Nat) : State :=
  let s1 := s.withFb (fun f => { f with held := f.held.filter (fun h => h.port != port) })
  ((s.fb.held.filter (fun h => h.port == port)).foldl (fun s h => s.putOut h.pkt port h.resent) s1).retryHeld

/-- A port of the state written. -/
def State.putPort (s : State) (port : Nat) (t : TriPort) : State := s.withFb (fun f => { f with ports := tset f.ports port t })

/-- LINK_DOWN [02 R40]. -/
def execLinkDown (port : Nat) (s : State) : Out :=
  .next (if 32 ≤ port then s else (s.putPort port { s.port port with up := false }).linkLost port).run

/-- LINK_UP: the port trains at x4; one in UALink mode carries no packets [01 R29, R32; 02 R40]. -/
def execLinkUp (port : Nat) (s : State) : Out :=
  .next (if 32 ≤ port then s
    else
      let t := { s.port port with up := true, lanes := 4 }
      let s1 := s.putPort port t
      if t.ualink then s1 else s1.linkBack port)

/-- A lane of a port fails: the port falls back from x4 to x2; from x2 it goes down; either way it has trained degraded or failed, which
DEGR says [01 R29; 03 R64]. -/
def State.laneFail (s : State) (port : Nat) : State :=
  let t := s.port port
  if 32 ≤ port || !t.up then s
  else
    let s1 := { s with mg := { s.mg with degr := true } }
    if t.lanes == 4 then s1.putPort port { t with lanes := 2 }
    else (s1.putPort port { t with up := false }).linkLost port

/-- Firmware sets a port to UALink protocol mode or back; in that mode routing treats it as down [01 R32]. -/
def State.portMode (s : State) (port : Nat) (ualink : Bool) : State :=
  let t := s.port port
  if 32 ≤ port || t.ualink == ualink then s
  else
    let s1 := s.putPort port { t with ualink := ualink }
    if !t.up then s1 else if ualink then s1.linkLost port else s1.linkBack port

/-- The payload bandwidth of a port in GB/s: 100 at x4, half of it at x2, and half again at the slow lane speed [01 R29]. -/
def TriPort.gbps (t : TriPort) : Nat := (if t.lanes == 4 then 100 else 50) / (if t.slow then 2 else 1)

/-- CONNECTION_FETCH: a spilled connection comes back into port SRAM, and its packets go on [02 R43]. -/
def execConnectionFetch (idx : Nat) (s : State) : Out :=
  .next (match s.fb.conns[idx]? with
    | none => s
    | some c => if c.here then s else (s.connHere c.peer c.ten).1.flushAwaits)

/-- CONNECTION_SET_UP: an Ethernet peer asks for a delivery mode in bits 1:0, 0 RUD, 1 ROD, 2 unreliable, 3 RUD for idempotent operations,
and with bit 2 for credit-based link flow control; it is accepted with RUD or ROD, and refused with anything else [01 R33]. -/
def execConnectionSetUp (peer mode : Nat) (s : State) : Out :=
  .next (if mode ≤ 1 then s.withFb (fun f => { f with eth := f.eth.filter (fun c => c.1 != peer) ++ [(peer, mode)], ethOut := f.ethOut ++ [(peer, true)] })
    else s.withFb (fun f => { f with ethOut := f.ethOut ++ [(peer, false)] }))

end Sys2Proof.Machine
end

