-- ==== Sys2Proof/Machine/SumProd.lean ====
section
/-! DEFINITION. The sum-product element [14 R359 to R368]. -/

namespace Sys2Proof.Machine

/-- An entry of the shape table as bytes [14 R360]. -/
abbrev Shape := List Byte

/-- Entry `n` of an SE's shape table. -/
def Elem.shape (e : Elem) (n : Nat) : Shape := mread e.shapes (64 * n) 64

/-- A little-endian field of a shape entry. -/
def Shape.field (s : Shape) (off n : Nat) : Nat := leNum ((s.drop off).take n)

/-- Leaf j: V, BANK, OFF. -/
def Shape.leafV (s : Shape) (j : Nat) : Bool := bitsAt (s.field (2 * j) 2) 15 1 == 1
/-- Bank of leaf j. -/
def Shape.leafBank (s : Shape) (j : Nat) : Nat := bitsAt (s.field (2 * j) 2) 8 4
/-- Offset of leaf j. -/
def Shape.leafOff (s : Shape) (j : Nat) : Nat := bitsAt (s.field (2 * j) 2) 0 8
/-- Op of node k: 0 NONE, 1 SUM, 2 PROD, 3 MAX. -/
def Shape.op (s : Shape) (k : Nat) : Nat := if k = 0 then 0 else bitsAt (s.field 32 4) (2 * k - 2) 2
/-- Whether the pass saves node k. -/
def Shape.saves (s : Shape) (k : Nat) : Bool := bitsAt (s.field 36 2) k 1 == 1
/-- The output node. -/
def Shape.root (s : Shape) : Nat := bitsAt (s.field 38 1) 0 4
/-- The output bank. -/
def Shape.outb (s : Shape) : Nat := bitsAt (s.field 39 1) 0 4
/-- The output register index offset. -/
def Shape.outoff (s : Shape) : Nat := s.field 40 1
/-- The save index offset. -/
def Shape.soff (s : Shape) : Nat := s.field 41 1
/-- The outside offset. -/
def Shape.doff (s : Shape) : Nat := s.field 42 1

/-- Whether position k (a node, or leaf k - 16) is present [14 R361]; the fuel bounds the depth. -/
def Shape.present (s : Shape) : Nat → Nat → Bool
  | 0, _ => false
  | n + 1, k =>
    if 16 ≤ k then s.leafV (k - 16)
    else s.op k != 0 && (s.present n (2 * k) || s.present n (2 * k + 1))

/-- The register of an SE at a bank and an index, by its linear address [14 R359]; indices are modulo 256. -/
def spReg (bank i : Nat) : Nat := 16 * (i % 256) + bank

/-- An SE register. -/
def Elem.seReg (e : Elem) (a : Nat) : W32 := tget e.se 0#32 a

/-- The register of leaf j. -/
def Shape.leafReg (s : Shape) (base j : Nat) : Nat := spReg (s.leafBank j) (base + s.leafOff j)
/-- The outside register of leaf j. -/
def Shape.leafOut (s : Shape) (base j : Nat) : Nat := spReg (s.leafBank j) (base + s.leafOff j + s.doff)
/-- The output register. -/
def Shape.outReg (s : Shape) (base : Nat) : Nat := spReg s.outb (base + s.outoff)
/-- The outside register of the root. -/
def Shape.rootOut (s : Shape) (base : Nat) : Nat := spReg s.outb (base + s.outoff + s.doff)
/-- The register where node k is saved. -/
def Shape.saveReg (s : Shape) (base k : Nat) : Nat := spReg k (base + s.soff)

/-- Whether a choosing node takes its left child [14 R365]. -/
def spLeft (spm : Bool) (l r : W32) : Bool :=
  if spm then decide (spfVal r ≤ spfVal l)
  else (f32 l).isNan || (!(f32 r).isNan && !ltF (f32 l) (f32 r))

/-- The sum of two values by mode, rounded once [14 R362]. -/
def spAdd (spm : Bool) (l r : W32) : W32 × W32 := if spm then spf (spfVal l + spfVal r) else add32 l r
/-- The product of two values by mode, rounded once. -/
def spMul (spm : Bool) (l r : W32) : W32 × W32 := if spm then spf (spfVal l * spfVal r) else mul32 l r
/-- The larger of two values by mode. -/
def spMax (spm : Bool) (l r : W32) : W32 × W32 :=
  if spm then spf (if spfVal l < spfVal r then spfVal r else spfVal l) else toF32 rne (maxF (f32 l) (f32 r))

/-- A node's op on two values; `maxm` treats SUM as MAX [14 R362, R364]. -/
def spOp (spm maxm : Bool) (op : Nat) (l r : W32) : W32 × W32 :=
  match op with
  | 1 => if maxm then spMax spm l r else spAdd spm l r
  | 2 => spMul spm l r
  | _ => spMax spm l r

/-- What the evaluation of a subtree gives: the value if present, the flags, and the values of its nodes. -/
structure SpEval where
  v     : Option W32
  fl    : W32
  nodes : List (Nat × W32)

/-- Tree evaluation from position k down [14 R362]. -/
def Shape.eval (s : Shape) (spm maxm : Bool) (base : Nat) (reg : Nat → W32) : Nat → Nat → SpEval
  | 0, _ => ⟨none, 0#32, []⟩
  | n + 1, k =>
    if 16 ≤ k then ⟨if s.leafV (k - 16) then some (reg (s.leafReg base (k - 16))) else none, 0#32, []⟩
    else if s.op k == 0 then ⟨none, 0#32, []⟩
    else
      let l := s.eval spm maxm base reg n (2 * k)
      let r := s.eval spm maxm base reg n (2 * k + 1)
      let (v, fl) : Option W32 × W32 := match l.v, r.v with
        | some a, some b => let (x, f) := spOp spm maxm (s.op k) a b; (some x, f)
        | some a, none => (some a, 0#32)
        | none, b => (b, 0#32)
      ⟨v, l.fl ||| r.fl ||| fl, (match v with | some x => [(k, x)] | none => []) ++ l.nodes ++ r.nodes⟩

/-- The present leaves of the subtree below position k, in ascending order. -/
def Shape.leaves (s : Shape) : Nat → Nat → List Nat
  | 0, _ => []
  | n + 1, k =>
    if 16 ≤ k then (if s.leafV (k - 16) then [k - 16] else [])
    else if s.op k == 0 then []
    else s.leaves n (2 * k) ++ s.leaves n (2 * k + 1)

/-- Whether every register index that a firing touches lies below NSER [14 R359]. -/
def Elem.inNser (e : Elem) (regs : List Nat) : Bool := regs.all (fun a => a / 16 < e.nser)

/-- Registers written in order. -/
def Elem.seWrite (e : Elem) (ws : List (Nat × W32)) : Elem := { e with se := ws.foldl (fun t p => tset t p.1 p.2) e.se }

/-- The base of a pass: IDX, or a[7:0] of a SCALAR with DYN; none when the kind is not accepted [14 R359]. -/
def Fire.spBase (f : Fire) (l : LitP) : Option Nat :=
  if l.md.getLsbD 0 then (if f.a.kind == .scalar then some (f.a.value.toNat % 256) else none)
  else some l.idx.toNat

/-- SPUP and SPMAX [14 R364]. -/
def State.spUp (s : State) (h : NodeHd) (l : LitP) (maxm : Bool) : State :=
  s.fire h (fun f =>
    match f.spBase l with
    | none => f.opf s iPAYLOAD
    | some base =>
      let sh := f.e.shape l.shape.toNat
      let ev := sh.eval (l.spm == 1#1) maxm base f.e.seReg 5 sh.root
      let saved := ev.nodes.filter (fun p => sh.saves p.1)
      let reads := (sh.leaves 5 sh.root).map (sh.leafReg base)
      let writes := (sh.outReg base, ev.v.getD 0#32) :: saved.map (fun p => (sh.saveReg base p.1, p.2))
      if !f.e.inNser (reads ++ writes.map (fun p => p.1)) then f.opf s iSEREG
      else ((f.withE ((f.e.flag ev.fl).seWrite writes)).emitScalar ((ev.v.getD 0#32).setWidth 64)).finish s)

/-- SPUP [14 R364]. -/
def execSpup (h : NodeHd) (l : LitP) (s : State) : Out := .next (s.spUp h l false)

/-- SPMAX [14 R364]. -/
def execSpmax (h : NodeHd) (l : LitP) (s : State) : Out := .next (s.spUp h l true)

/-- The value of a child: a leaf's register, or the save of a node [14 R365]. -/
def Shape.childReg (s : Shape) (base k : Nat) : Nat := if 16 ≤ k then s.leafReg base (k - 16) else s.saveReg base k

/-- What the walk down gives: outside values of leaves in ascending order, flags, and the registers it read. -/
structure SpDown where
  outs  : List (Nat × W32)
  fl    : W32
  reads : List Nat

/-- Outside values carried down from position k with outside value `o` [14 R365]. -/
def Shape.down (s : Shape) (spm maxm : Bool) (base : Nat) (reg : Nat → W32) : Nat → Nat → W32 → SpDown
  | 0, _, _ => ⟨[], 0#32, []⟩
  | n + 1, k, o =>
    if 16 ≤ k then ⟨if s.leafV (k - 16) then [(k - 16, o)] else [], 0#32, []⟩
    else
      let lp := s.present 5 (2 * k)
      let rp := s.present 5 (2 * k + 1)
      let chooses := s.op k == 3 || (s.op k == 1 && maxm)
      let vl := reg (s.childReg base (2 * k))
      let vr := reg (s.childReg base (2 * k + 1))
      let kids := [s.childReg base (2 * k), s.childReg base (2 * k + 1)]
      let (ol, rl, fl, rd) : W32 × W32 × W32 × List Nat :=
        if !(lp && rp) then (o, o, 0#32, [])
        else if s.op k == 2 then
          let (x, f1) := spMul spm o vr
          let (y, f2) := spMul spm o vl
          (x, y, f1 ||| f2, kids)
        else if chooses then (if spLeft spm vl vr then (o, 0#32, 0#32, kids) else (0#32, o, 0#32, kids))
        else (o, o, 0#32, [])
      let a : SpDown := if lp then s.down spm maxm base reg n (2 * k) ol else ⟨[], 0#32, []⟩
      let b : SpDown := if rp then s.down spm maxm base reg n (2 * k + 1) rl else ⟨[], 0#32, []⟩
      ⟨a.outs ++ b.outs, fl ||| a.fl ||| b.fl, rd ++ a.reads ++ b.reads⟩

/-- Contributions added in ascending leaf order, each with one rounding [14 R365]. -/
def spFold (spm : Bool) (v : W32) : List W32 → W32 × W32
  | [] => (v, 0#32)
  | o :: r =>
    let (x, f1) := spAdd spm v o
    let (y, f2) := spFold spm x r
    (y, f1 ||| f2)

/-- SPDN [14 R365]. -/
def execSpdn (h : NodeHd) (l : LitP) (s : State) : Out :=
  .next (s.fire h (fun f =>
    match f.spBase l with
    | none => f.opf s iPAYLOAD
    | some base =>
      let spm := l.spm == 1#1
      let acc := l.md.getLsbD 1
      let sh := f.e.shape l.shape.toNat
      let d := sh.down spm (l.md.getLsbD 2) base f.e.seReg 5 sh.root (f.e.seReg (sh.rootOut base))
      let regs := (d.outs.map (fun p => sh.leafOut base p.1)).eraseDups
      let ws := regs.map (fun a =>
        let cs := (d.outs.filter (fun p => sh.leafOut base p.1 == a)).map (fun p => p.2)
        (a, if acc then spFold spm (f.e.seReg a) cs
            else match cs with
              | [o] => (o, 0#32)
              | _ => spFold spm 0#32 cs))
      if !f.e.inNser ([sh.rootOut base] ++ d.reads ++ regs) then f.opf s iSEREG
      else
        let fl := ws.foldl (fun x p => x ||| p.2.2) d.fl
        ((f.withE ((f.e.flag fl).seWrite (ws.map (fun p => (p.1, p.2.1))))).passOn f.a).finish s))

/-- The marked leaves below position k [14 R366]. -/
def Shape.marks (s : Shape) (spm : Bool) (base : Nat) (reg : Nat → W32) : Nat → Nat → List Nat
  | 0, _ => []
  | n + 1, k =>
    if 16 ≤ k then (if s.leafV (k - 16) then [k - 16] else [])
    else
      let lp := s.present 5 (2 * k)
      let rp := s.present 5 (2 * k + 1)
      let both := lp && rp
      let first := spLeft spm (reg (s.childReg base (2 * k))) (reg (s.childReg base (2 * k + 1)))
      (if lp && (!both || s.op k == 2 || first) then s.marks spm base reg n (2 * k) else []) ++
        (if rp && (!both || s.op k == 2 || !first) then s.marks spm base reg n (2 * k + 1) else [])

/-- The registers that choices below position k may read: which nodes the marks reach is known only once they are read [14 R359, R366]. -/
def Shape.choices (s : Shape) (base : Nat) : Nat → Nat → List Nat
  | 0, _ => []
  | n + 1, k =>
    if 16 ≤ k then []
    else
      let lp := s.present 5 (2 * k)
      let rp := s.present 5 (2 * k + 1)
      (if lp && rp && s.op k != 2 then [s.childReg base (2 * k), s.childReg base (2 * k + 1)] else []) ++
        (if lp then s.choices base n (2 * k) else []) ++ (if rp then s.choices base n (2 * k + 1) else [])

/-- SPARG [14 R366]. -/
def execSparg (h : NodeHd) (l : LitP) (s : State) : Out :=
  .next (s.fire h (fun f =>
    match f.spBase l with
    | none => f.opf s iPAYLOAD
    | some base =>
      let spm := l.spm == 1#1
      let acc := l.md.getLsbD 1
      let sh := f.e.shape l.shape.toNat
      let marked := sh.marks spm base f.e.seReg 5 sh.root
      let leaves := sh.leaves 5 sh.root
      let regs := (leaves.map (sh.leafOut base)).eraseDups
      let one : W32 := if spm then 0x00008000#32 else one32
      let nonzero (w : W32) : Bool := if spm then spfVal w != 0 else !(f32 w).isZero
      let ws := regs.map (fun a =>
        (a, if leaves.any (fun j => sh.leafOut base j == a && marked.contains j) || (acc && nonzero (f.e.seReg a)) then one else 0#32))
      if !f.e.inNser (sh.choices base 5 sh.root ++ regs) then f.opf s iSEREG
      else
        let m := marked.foldl (fun x j => x + 2 ^ j) 0
        ((f.withE (f.e.seWrite ws)).emitScalar (BitVec.ofNat 64 m)).finish s))

/-- The window of n registers from a base [14 R368]. -/
def spWindow (l : LitP) (base n : Nat) : List Nat := (List.range n).map (fun i => (16 * base + l.bank.toNat + i) % 4096)

/-- SPLD [14 R359, R368]. -/
def execSpld (h : NodeHd) (l : LitP) (s : State) : Out :=
  .next (s.fire h (fun f =>
    let t := f.e.zeroTok f.a
    let words? : Option (List W32) :=
      match t.kind with
      | .scalar => some (if l.md.getLsbD 2 then [t.value.setWidth 32] else [t.value.setWidth 32, (t.value >>> 32).setWidth 32])
      | .vrow => some ((unpackElems 32 64 t.bytes).map (BitVec.ofNat 32))
      | .tile => some ((unpackElems 32 (t.bytes.length / 4) t.bytes).map (BitVec.ofNat 32))
      | _ => none
    match f.spBase l, words? with
    | some base, some ws =>
      if 4096 < ws.length then f.opf s iPAYLOAD
      else
        let win := spWindow l base ws.length
        if !f.e.inNser win then f.opf s iSEREG
        else
          let cs := ws.map (fun w => if l.md.getLsbD 1 then spfOfF32 w else (w, 0#32))
          let fl := cs.foldl (fun x p => x ||| p.2) 0#32
          ((f.withE ((f.e.flag fl).seWrite (win.zip (cs.map (fun p => p.1))))).emitScalar (BitVec.ofNat 64 ws.length)).finish s
    | _, _ => f.opf s iPAYLOAD))

/-- SPST [14 R368]. -/
def execSpst (h : NodeHd) (l : LitP) (s : State) : Out :=
  .next (s.fire h (fun f =>
    match f.spBase l with
    | none => f.opf s iPAYLOAD
    | some base =>
      let kind := bitsAt l.md.toNat 1 2
      let n := if kind == 0 then 2 else if kind == 1 then 64 else f.e.rows * f.e.cols
      let win := spWindow l base n
      if !f.e.inNser win then f.opf s iSEREG
      else
        let cvt := l.md.getLsbD 3
        let cs := win.map (fun a => let w := f.e.seReg a; if cvt then f32OfSpf w else (w, 0#32))
        let fl := cs.foldl (fun x p => x ||| p.2) 0#32
        let ws := cs.map (fun p => p.1)
        let pay := packElems 32 (ws.map BitVec.toNat)
        let f1 := f.withE (f.e.flag fl)
        if kind == 0 then (f1.emitScalar (BitVec.ofNat 64 (leNum pay))).finish s
        else if kind == 1 then
          let aux := if f.a.kind == .arow || f.a.kind == .vrow then f.a.aux else 0#8
          (f1.emit (f.tok .vrow aux (.bytes pay)) false).finish s
        else
          let zero := ws.all (fun w => if l.spm == 1#1 && !cvt then spfVal w == 0 else (f32 w).isZero)
          (f1.emit (f.tok .tile 0 (.bytes pay)) zero).finish s))

/-- SPW [14 R368]. -/
def execSpw (h : NodeHd) (l : LitP) (s : State) : Out :=
  .next (s.fire h (fun f =>
    if f.a.kind != .scalar || (h.mm == 1#2 && f.b.kind != .scalar) then f.opf s iPAYLOAD
    else
      let a := if h.mm == 0#2 then spReg l.bank.toNat l.idx.toNat
        else spReg (bitsAt f.b.value.toNat 8 4) (bitsAt f.b.value.toNat 0 8)
      if !f.e.inNser [a] then f.opf s iSEREG
      else ((f.withE (f.e.seWrite [(a, f.a.value.setWidth 32)])).passOn f.a).finish s))

/-- The largest exponent of the nonzero words [14 R368]. -/
def spEmax (ws : List W32) : Option Int :=
  ws.foldl (fun m w =>
    if spfVal w = 0 then m
    else
      let e := floorLog2 (spfVal w)
      match m with
      | none => some e
      | some k => some (if k < e then e else k)) none

/-- SPNRM [14 R368]. -/
def execSpnrm (h : NodeHd) (l : LitP) (s : State) : Out :=
  .next (s.fire h (fun f =>
    let win := spWindow l l.idx.toNat (bitsAt l.md.toNat 0 10 + 1)
    if !f.e.inNser win then f.opf s iSEREG
    else match spEmax (win.map f.e.seReg) with
      | none => (f.emitScalar 0).finish s
      | some m =>
        let ws := win.map (fun a =>
          let w := f.e.seReg a
          (a, if spfVal w = 0 then (w, 0#32) else spf (spfVal w * pow2 (-m))))
        let fl := ws.foldl (fun x p => x ||| p.2.2) 0#32
        ((f.withE ((f.e.flag fl).seWrite (ws.map (fun p => (p.1, p.2.1))))).emitScalar (BitVec.ofInt 64 m)).finish s))

/-- SPCVT [14 R368]. -/
def execSpcvt (h : NodeHd) (l : LitP) (s : State) : Out :=
  .next (s.fire h (fun f =>
    let win := spWindow l l.idx.toNat (bitsAt l.md.toNat 0 10 + 1)
    if !f.e.inNser win then f.opf s iSEREG
    else
      let ws := win.map (fun a => (a, if l.md.getLsbD 10 then f32OfSpf (f.e.seReg a) else spfOfF32 (f.e.seReg a)))
      let fl := ws.foldl (fun x p => x ||| p.2.2) 0#32
      ((f.withE ((f.e.flag fl).seWrite (ws.map (fun p => (p.1, p.2.1))))).passOn f.a).finish s))

/-- SPZERO [14 R368]. -/
def execSpzero (h : NodeHd) (l : LitP) (s : State) : Out :=
  .next (s.fire h (fun f =>
    let win := spWindow l l.idx.toNat (bitsAt l.md.toNat 0 10 + 1)
    if !f.e.inNser win then f.opf s iSEREG
    else ((f.withE (f.e.seWrite (win.map (fun a => (a, 0#32))))).passOn f.a).finish s))

end Sys2Proof.Machine
end

