-- ==== Sys2Proof/Machine/Image.lean ====
section
/-! DEFINITION. Graph images: the header, the tables and the loader's checks [05 R109 to R113; 06 R140; 07 R160, R170; 09 R221;
11 R258, R259, R267; 14 R346, R361]. -/

namespace Sys2Proof.Machine

/-- Status codes of commands and of the loader [04 R86; 05 R109]. -/
def csOK : Nat := 0
/-- BADCMD. -/
def csBADCMD : Nat := 1
/-- NOPERM. -/
def csNOPERM : Nat := 2
/-- XLFAULT. -/
def csXLFAULT : Nat := 3
/-- MEMERR. -/
def csMEMERR : Nat := 4
/-- NOKEY. -/
def csNOKEY : Nat := 5
/-- ABORTED. -/
def csABORTED : Nat := 6
/-- QFULL. -/
def csQFULL : Nat := 7
/-- EMPTY. -/
def csEMPTY : Nat := 0x10
/-- BADOP. -/
def csBADOP : Nat := 0x11
/-- BADHDR. -/
def csBADHDR : Nat := 0x12
/-- TOOBIG. -/
def csTOOBIG : Nat := 0x13
/-- BADDST. -/
def csBADDST : Nat := 0x14
/-- OVERLAP. -/
def csOVERLAP : Nat := 0x15
/-- NOTWF. -/
def csNOTWF : Nat := 0x16
/-- DIGEST. -/
def csDIGEST : Nat := 0x17
/-- BADL. -/
def csBADL : Nat := 0x18
/-- BADCORES. -/
def csBADCORES : Nat := 0x19
/-- CORECONF. -/
def csCORECONF : Nat := 0x1A
/-- BADSTATE. -/
def csBADSTATE : Nat := 0x1B
/-- NOBOUND. -/
def csNOBOUND : Nat := 0x1C
/-- BADENTRY. -/
def csBADENTRY : Nat := 0x1D
/-- BADGRAPH. -/
def csBADGRAPH : Nat := 0x1E
/-- NOSLOT. -/
def csNOSLOT : Nat := 0x1F
/-- BADSAVE. -/
def csBADSAVE : Nat := 0x20
/-- SEQFULL. -/
def csSEQFULL : Nat := 0x21
/-- BUSY. -/
def csBUSY : Nat := 0x22
/-- BADGROUP. -/
def csBADGROUP : Nat := 0x23
/-- BADBIND. -/
def csBADBIND : Nat := 0x24

/-- The command status of a failed access: XLFAULT, or MEMERR for what a memory gave [04 R86]. -/
def faultStatus (f : FaultInfo) : Nat := if f.cls == fcMEMUE || f.cls == fcTIMEOUT then csMEMERR else csXLFAULT

/-- `n` bytes of a file from an offset, fewer where it ends. -/
def cut (b : List Byte) (o n : Nat) : List Byte := (b.drop o).take n

/-- A little-endian field of a file. -/
def fieldOf (b : List Byte) (o n : Nat) : Nat := leNum (cut b o n)

/-- Whether bytes of a file are all zero. -/
def zerosAt (b : List Byte) (o n : Nat) : Bool := (cut b o n).all (· == 0#8)

/-- A number rounded up to a granule [05 R112]. -/
def roundUp (n g : Nat) : Nat := (n + g - 1) / g * g

/-- Rounded node records, pool entries, operand slots, SE registers [05 R112]. -/
def ElemDesc.rnrec (d : ElemDesc) : Nat := roundUp d.nrec 64
/-- Pool entries. -/
def ElemDesc.rnpool (d : ElemDesc) : Nat := roundUp d.npool 64
/-- Operand slots. -/
def ElemDesc.rnslot (d : ElemDesc) : Nat := roundUp d.nslot 8
/-- SE registers. -/
def ElemDesc.rnser (d : ElemDesc) : Nat := roundUp d.nser 16

/-- An element's descriptor that is not used. -/
def ElemDesc.none : ElemDesc := { used := false, nrec := 0, npool := 0, nslot := 0, nser := 0, coff := 0, roff := 0 }

/-- A descriptor of an element table from its 16 bytes [05 R110]. -/
def ElemDesc.ofBytes (b : List Byte) : ElemDesc :=
  { roff := fieldOf b 0 4, nrec := fieldOf b 4 2, npool := fieldOf b 6 2, nslot := fieldOf b 8 1, used := fieldOf b 9 1 % 2 == 1,
    nser := fieldOf b 10 2, coff := fieldOf b 12 4 }

/-- A section from its list entry [11 R258]. -/
def Section.ofBytes (b : List Byte) : Section :=
  { kind := fieldOf b 0 1, elem := fieldOf b 1 1, zero := fieldOf b 2 1 % 2 == 1, doff := fieldOf b 4 4, soff := fieldOf b 8 4, len := fieldOf b 12 4 }

/-- A core of an image that holds nothing. -/
def ImgCore.none : ImgCore := { elems := [], secs := [], codeLen := 0, codeOff := 0 }

/-- The descriptor of an element. -/
def ImgCore.desc (c : ImgCore) (e : Nat) : ElemDesc := tget c.elems ElemDesc.none e

/-- A core of an image. -/
def Image.core (i : Image) (c : Nat) : ImgCore := tget i.cores ImgCore.none c

/-- FLG bits of an image [05 R110]. -/
def Image.bound (i : Image) : Bool := i.flg.getLsbD 0
/-- SFREE. -/
def Image.sfree (i : Image) : Bool := i.flg.getLsbD 1
/-- DET. -/
def Image.det (i : Image) : Bool := i.flg.getLsbD 2

/-- The core table entry of a core. -/
def coreEntry (b : List Byte) (c : Nat) : List Byte := cut b (fieldOf b 0x18 4 + 16 * c) 16

/-- The element table entry of an element of a core. -/
def elemEntry (b : List Byte) (c e : Nat) : List Byte := cut b (fieldOf (coreEntry b c) 0 4 + 16 * e) 16

/-- A core's part of an image from its bytes [05 R110; 11 R258]. -/
def ImgCore.ofBytes (b : List Byte) (c : Nat) : ImgCore :=
  let t := coreEntry b c
  { elems := (List.range 64).map (fun e => (e, ElemDesc.ofBytes (elemEntry b c e))),
    secs := (List.range (fieldOf t 8 2)).map (fun i => Section.ofBytes (cut b (fieldOf t 4 4 + 16 * i) 16)),
    codeLen := fieldOf t 10 2, codeOff := fieldOf t 12 4 }

/-- An image's structure from its bytes, the results of the checks left open. -/
def Image.ofBytes (ten : Nat) (va : Word) (b : List Byte) : Image :=
  { ten := ten, va := va, len := fieldOf b 0x1C 4, ncore := fieldOf b 8 1, flg := BitVec.ofNat 8 (fieldOf b 6 2), nent := fieldOf b 9 1,
    ents := (List.range 16).map (fun i => fieldOf b (0x20 + 4 * i) 4), wcl := fieldOf b 0xC 4, lcap := 64, gran := 0,
    cores := (List.range (fieldOf b 8 1)).map (fun c => (c, ImgCore.ofBytes b c)), digest := cut b 0x80 64 }

/-- The header's own fields [05 R110, R111 step 1]. -/
def headerOk (b : List Byte) (reg : Nat) : Bool :=
  fieldOf b 0 4 == 0x47414D55 && fieldOf b 4 2 == 1 && fieldOf b 6 2 / 8 == 0 && zerosAt b 0xA 2 && zerosAt b 0x60 32 && zerosAt b 0xC0 64 &&
    1 ≤ fieldOf b 8 1 && fieldOf b 8 1 ≤ 64 && 1 ≤ fieldOf b 9 1 && fieldOf b 9 1 ≤ 16 && 256 ≤ fieldOf b 0x1C 4 && fieldOf b 0x1C 4 ≤ reg

/-- Whether `n` bytes at an aligned offset lie in a file of a length [11 R259]. -/
def placed (len o n al : Nat) : Bool := o % al == 0 && o + n ≤ len

/-- The core table and the element tables [05 R111 step 1; 11 R259]. -/
def tablesOk (b : List Byte) : Bool :=
  let len := fieldOf b 0x1C 4
  let n := fieldOf b 8 1
  placed len (fieldOf b 0x18 4) (16 * n) 16 && (List.range n).all (fun c => placed len (fieldOf (coreEntry b c) 0 4) 1024 16)

/-- The used elements of an image: core, element, descriptor. -/
def Image.usedElems (i : Image) : List (Nat × Nat × ElemDesc) :=
  i.cores.flatMap (fun p => (p.2.elems.filter (fun q => q.2.used)).map (fun q => (p.1, q.1, q.2)))

/-- Whether a used element requests zero of a resource that its class needs [05 R112]. -/
def ElemDesc.lacks (d : ElemDesc) (elem : Nat) : Bool :=
  d.nrec == 0 || d.npool == 0 || (elemClass elem == 0 && d.nslot == 0) || (elemClass elem == 2 && d.nser == 0)

/-- Whether a used element requests more than a limit [05 R112]. -/
def ElemDesc.tooBig (d : ElemDesc) (elem : Nat) : Bool :=
  4096 < d.nrec || 2048 < d.npool || (elemClass elem == 0 && 128 < d.nslot) || (elemClass elem == 2 && 256 < d.nser)

/-- Whether an element's counts fit its use and class, and its reserved bits are 0 [05 R110, R111 step 5]. -/
def descOk (b : List Byte) (len c e : Nat) : Bool :=
  let t := elemEntry b c e
  let d := ElemDesc.ofBytes t
  fieldOf t 9 1 / 2 == 0 &&
    (if d.used then
      (elemClass e == 0 || d.nslot == 0) && (elemClass e == 2 || d.nser == 0) && placed len d.roff (12 * d.nrec) 4 && placed len d.coff 128 16
    else d.nrec == 0 && d.npool == 0 && d.nslot == 0 && d.nser == 0)

/-- The bytes of a section's target by KIND: W, A, C, barrier words, shape table [11 R258]. -/
def targetLen (kind : Nat) : Nat :=
  match kind with
  | 0 => 0x600000
  | 1 => 0x300000
  | 2 => 0x180000
  | 3 => 512
  | _ => 16384

/-- The alignment of a section by KIND [11 R259]. -/
def sectionAlign (kind : Nat) : Nat := if kind < 3 then 32 else if kind == 3 then 8 else 1

/-- Whether a section list entry passes its check [11 R258, R259]. -/
def sectionOk (t : List Byte) (len : Nat) : Bool :=
  let x := Section.ofBytes t
  let al := sectionAlign x.kind
  x.kind ≤ 4 && fieldOf t 2 1 / 2 == 0 && zerosAt t 3 1 && (if x.kind == 4 then elemClass x.elem == 2 else x.elem == 0) &&
    1 ≤ x.len && x.doff % al == 0 && x.len % al == 0 && x.doff + x.len ≤ targetLen x.kind &&
    (if x.zero then x.soff == 0 else placed len x.soff x.len al)

/-- The sections and the code of a core are in place [11 R258, R259]. -/
def coreOk (b : List Byte) (len c : Nat) : Bool :=
  let t := coreEntry b c
  fieldOf t 8 2 ≤ 1024 && placed len (fieldOf t 4 4) (16 * fieldOf t 8 2) 16 && placed len (fieldOf t 12 4) (4 * fieldOf t 10 2) 4 &&
    (List.range (fieldOf t 8 2)).all (fun i => sectionOk (cut b (fieldOf t 4 4 + 16 * i) 16) len)

/-- The bytes of a section in an image's bytes. -/
def Section.bytes (x : Section) (b : List Byte) : List Byte := if x.zero then List.replicate x.len 0#8 else cut b x.soff x.len

/-- The 32-bit words of bytes, numbered. -/
def wordsOf (b : List Byte) (n : Nat) : Table W32 := (List.range n).map (fun i => (i, BitVec.ofNat 32 (fieldOf b (4 * i) 4)))

/-- The node record `n` of an element. -/
def recordAt (b : List Byte) (d : ElemDesc) (n : Nat) : BitVec 96 := BitVec.ofNat 96 (fieldOf b (d.roff + 12 * n) 12)

/-- What the check of a configuration block knows of an element of an image [06 R140]. -/
def Image.ecwEnv (i : Image) (core elem : Nat) (recs : List (BitVec 96)) : EcwEnv :=
  { elem := elem, npool := ((i.core core).desc elem).rnpool, gather := recs.any recGather, used := fun j => ((i.core core).desc j).used, det := i.det }

/-- The records of an element as the image gives them. -/
def recordsOf (b : List Byte) (d : ElemDesc) : List (BitVec 96) := (List.range d.nrec).map (recordAt b d)

/-- A barrier word that the loader accepts [09 R221]. -/
def barrierOk (v : Nat) : Bool := bitsAt v 58 2 != 3 && bitsAt v 40 18 == 0 && bitsAt v 60 4 == 0 && bitsAt v 0 20 == 0

/-- The positions of a shape entry's subtree: nodes and leaves below ROOT [14 R361]. -/
def inSubtree (root : Nat) : Nat → Nat → Bool
  | 0, _ => false
  | n + 1, k => k == root || (1 < k && inSubtree root n (k / 2))

/-- Whether a shape entry passes its check [14 R360, R361]. -/
def Shape.ok (s : Shape) : Bool :=
  let sub (k : Nat) : Bool := s.root != 0 && inSubtree s.root 6 k
  (List.range 16).all (fun j => bitsAt (s.field (2 * j) 2) 12 3 == 0) && bitsAt (s.field 32 4) 30 2 == 0 && !s.saves 0 &&
    s.field 38 1 / 16 == 0 && s.field 39 1 / 16 == 0 && (s.drop 43).all (· == 0#8) && s.root != 0 && s.present 5 s.root &&
    (List.range 16).all (fun k => k == 0 ||
      (!(sub k && s.op k == 0 && (s.present 5 (2 * k) || s.present 5 (2 * k + 1))) && (sub k || !s.saves k)))

/-- The entries of a shape table that bytes from an offset touch. -/
def shapesTouched (off n : Nat) : List Nat := (List.range ((off + n + 63) / 64 - off / 64)).map (fun i => off / 64 + i)

/-- A shape table with the sections of an element loaded. -/
def shapeTable (secs : List Section) (elem : Nat) (bytes : Section → List Byte) : Memory :=
  secs.foldl (fun m x => if x.kind == 4 && x.elem == elem then mwrite m x.doff (bytes x) else m) []

/-- The shape entries that sections load pass their check [14 R361]. -/
def shapesOk (secs : List Section) (bytes : Section → List Byte) : Bool :=
  secs.all (fun x => x.kind != 4 ||
    (shapesTouched x.doff x.len).all (fun n => Shape.ok (mread (shapeTable secs x.elem bytes) (64 * n) 64)))

/-- What the check of a record knows of its element: the claimable slots, registers, wave order, tile bytes, shape entries, the
use of stochastic rounding [11 R267; 14 R346, R361; 15 R378, R387]. -/
structure RecEnv where
  elem   : Nat
  slots  : Nat
  nser   : Nat
  wave   : Bool
  tile   : Nat
  sre    : Bool
  shape  : Nat → Shape

/-- What the check knows of an element from its descriptor, configuration words and shape table. -/
def recEnv (elem : Nat) (d : ElemDesc) (ecw : Table W32) (sh : Memory) : RecEnv :=
  let w (i : Nat) : Nat := (tget ecw 0#32 i).toNat
  { elem := elem, slots := d.rnslot - 3, nser := d.rnser, wave := elemClass elem == 3 && bitsAt (w 6) 8 1 == 1,
    tile := 4 * (bitsAt (w 0) 11 5 + 1) * (8 * (bitsAt (w 0) 8 3 + 1)), sre := elemClass elem == 1 && bitsAt (w 6) 0 1 == 1,
    shape := fun n => mread sh (64 * n) 64 }

/-- Whether an element's class hosts an opcode [11 R262 to R266]. -/
def hosts (elem op : Nat) : Bool :=
  let c := elemClass elem
  match op / 64 with
  | 0 => (op != 14 && op != 15) || c == 4
  | 1 => true
  | 2 => c == 1
  | 3 => c == 0
  | 4 => c == 2
  | 5 => c == 3
  | 6 => c == 4 || (c == 3 && (op == 0x188 || op == 0x189))
  | _ => false

/-- Whether every present internal child of a node is saved [14 R365, R366]. -/
def Shape.childrenSaved (s : Shape) (k : Nat) : Bool :=
  [2 * k, 2 * k + 1].all (fun c => 16 ≤ c || !s.present 5 c || s.saves c)

/-- Whether an entry saves what a pass needs: below its PROD and MAX nodes, or its SUM and MAX nodes [14 R365, R366]. -/
def Shape.savesFor (s : Shape) (sum prod : Bool) : Bool :=
  (List.range 16).all (fun k => k == 0 || !inSubtree s.root 6 k || !(s.op k == 3 || (s.op k == 1 && sum) || (s.op k == 2 && prod)) ||
    s.childrenSaved k)

/-- Whether a record's literal stays within its element's resources [11 R267; 14 R346, R361, R363; 15 R378, R387]. -/
def Instr.fits (v : RecEnv) (i : Instr) : Bool :=
  match i with
  | .mclaim _ l | .mrel _ l => l.slot.toNat + l.md.toNat % 128 < v.slots
  | .mldb _ l | .mbcb _ l | .msave _ l | .mrest _ l => l.slot.toNat < v.slots
  | .msel h l => h.mm != 0#2 || (l.slot.toNat < v.slots && l.md.toNat % 128 < v.slots)
  | .mma _ l | .mmas _ l => l.md.getLsbD 7 || (l.slot.toNat < v.slots && l.md.toNat % 128 < v.slots)
  | .spld _ l | .spst _ l | .spw _ l | .spnrm _ l | .spcvt _ l | .spzero _ l => l.idx.toNat < v.nser
  | .spup _ l | .spmax _ l => l.idx.toNat < v.nser && (v.shape l.shape.toNat).root != 0
  | .spdn _ l =>
    l.idx.toNat < v.nser && (v.shape l.shape.toNat).root != 0 && (v.shape l.shape.toNat).savesFor (l.md.getLsbD 2) true
  | .sparg _ l => l.idx.toNat < v.nser && (v.shape l.shape.toNat).root != 0 && (v.shape l.shape.toNat).savesFor true false
  | .aload _ l | .astore _ l | .agath _ l | .ascat _ l | .wld _ l | .wst _ l => !v.wave || l.wave.extractLsb' 10 10 != 1022#10
  | .rld _ l | .rst _ l => l.xop != 6#4 || v.tile ≤ 2048
  | .smrecv _ _ => v.tile == 2048
  | _ => true

/-- Whether a record is an instruction of its element [11 R267]. -/
def recordOk (v : RecEnv) (r : BitVec 96) : Bool :=
  hosts v.elem (r.toNat / 2 ^ 87) &&
    (match decodeOp r.toNat with
      | .ok i => i.wf && Instr.fits v i
      | .error _ => false)

/-- Whether a record selects stochastic rounding [10 R235]. -/
def Instr.stochastic (i : Instr) : Bool :=
  match i with
  | .vadd _ l | .vsub _ l | .vmul _ l | .vfma _ l | .vmax _ l | .vmin _ l | .vabs _ l | .vscl _ l | .vmov _ l | .vexp2 _ l | .vlog2 _ l
  | .vrcp _ l | .vrsq _ l | .vcvt _ l | .vbscale _ l | .vquant _ l | .vrowmax _ l | .vrowsum _ l | .vsmx _ l | .vsmxf _ l | .vtrans _ l
  | .vsel _ l | .vcmp _ l | .vclamp _ l | .vbcast _ l | .vzero _ l | .scvt _ l => l.rnd == 4#3
  | .mdrn _ l => l.rnd == 4#3
  | _ => false

/-- Whether a record selects stochastic rounding where no generator may be used [10 R235; 13 R331; 14 R346]. -/
def roundBad (v : RecEnv) (r : BitVec 96) : Bool :=
  !v.sre && (match decodeOp r.toNat with | .ok i => Instr.stochastic i | .error _ => false)

/-- A node of a graph: core, element, record. -/
abbrev NodeId := Nat × Nat × Nat

/-- An element of an image as the checks see it. -/
structure ElemView where
  core : Nat
  elem : Nat
  desc : ElemDesc
  ecw  : Table W32
  recs : List (BitVec 96)
  env  : RecEnv

/-- The destinations of a record that are not none. -/
def recDests (r : BitVec 96) : List Dest := ([(recHd r).d0, (recHd r).d1]).filter (fun d => !noDest d)

/-- The arcs of an element: source and destination. -/
def ElemView.arcs (v : ElemView) : List (NodeId × Dest) :=
  (mapIdxFrom (fun n r => (recDests r).map (fun d => ((v.core, v.elem, n), d))) 0 v.recs).flatten

/-- The target node of a destination. -/
def destId (d : Dest) : NodeId := (d.core.toNat, d.elem.toNat, d.node.toNat)

/-- A SINK record with MM 0, no destination and LIT 0: padding unless an arc targets it [07 R160]. -/
def padRecord : BitVec 96 := BitVec.ofNat 96 (4 * 2 ^ 87 + 3 * 2 ^ 82 + 3 * 2 ^ 56)

/-- Whether a record is like padding, whatever its YLD [07 R160]. -/
def isPad (r : BitVec 96) : Bool :=
  r.toNat / 2 ^ 87 == 4 && (recHd r).mm == 0#2 && noDest (recHd r).d0 && noDest (recHd r).d1 && r.toNat % 2 ^ 32 == 0

/-- Whether a destination names an existing core, used element and record [11 R267]. -/
def Image.destOk (i : Image) (d : Dest) : Bool :=
  d.core.toNat < i.ncore && ((i.core d.core.toNat).desc d.elem.toNat).used && d.node.toNat < ((i.core d.core.toNat).desc d.elem.toNat).rnrec

/-- The record of a node in the checked elements; padding beyond those requested. -/
def recOf (vs : List ElemView) (n : NodeId) : BitVec 96 :=
  match vs.find? (fun v => v.core == n.1 && v.elem == n.2.1) with
  | some v => v.recs.getD n.2.2 padRecord
  | none => padRecord

/-- Whether a node advances the colour: CINC, CENTER, CEXIT, LOOPN [07 R163]. -/
def advances (r : BitVec 96) : Bool := 5 ≤ r.toNat / 2 ^ 87 && r.toNat / 2 ^ 87 ≤ 8

/-- Arcs whose source no arc enters taken away, again and again: what stays lies on or between cycles. -/
def coreArcs : Nat → List (NodeId × NodeId) → List (NodeId × NodeId)
  | 0, a => a
  | n + 1, a =>
    let b := a.filter (fun p => a.any (fun q => q.2 == p.1))
    if b.length == a.length then a else coreArcs n b

/-- Condition 1 of [07 R170]: every cycle passes through a colour-advancing node. -/
def cyclesOk (vs : List ElemView) (arcs : List (NodeId × Dest)) : Bool :=
  let a := (arcs.map (fun p => (p.1, destId p.2))).filter (fun p => !advances (recOf vs p.1) && !advances (recOf vs p.2))
  (coreArcs a.length a).isEmpty

/-- No two entries of a list are equal. -/
def distinct [BEq α] : List α → Bool
  | [] => true
  | a :: r => !r.contains a && distinct r

/-- The configured ports of an element: those that the MM of its records needs, padding left out [07 R160]. -/
def ElemView.ports (v : ElemView) (arcs : List (NodeId × Dest)) : Nat :=
  (mapIdxFrom (fun n r => if isPad r && !arcs.any (fun p => destId p.2 == (v.core, v.elem, n)) then 0 else (mmPorts (recHd r).mm).length) 0 v.recs).foldl
    (· + ·) 0 +
  ((List.range (v.desc.rnrec - v.recs.length)).filter (fun k => arcs.any (fun p => destId p.2 == (v.core, v.elem, v.recs.length + k)))).length

/-- PCAP of an element [06 R138]. -/
def ElemView.pcap (v : ElemView) : Nat := (tget v.ecw 0#32 4).toNat

/-- The conditions 1 to 5 of [07 R170], and the use of stochastic rounding. -/
def graphOk (i : Image) (vs : List ElemView) (arcs : List (NodeId × Dest)) : Bool :=
  arcs.all (fun p => (mmPorts (recHd (recOf vs (destId p.2))).mm).contains p.2.port) && distinct (arcs.map (fun p => (destId p.2, p.2.port))) &&
    cyclesOk vs arcs && vs.all (fun v => v.pcap * v.ports arcs ≤ v.desc.rnpool) && vs.all (fun v => !(i.det && v.env.sre)) &&
    vs.all (fun v => v.recs.all (fun r => !roundBad v.env r))

/-- LCAP: the smaller of 64 and the least PCAP - 1 of an element with a configured port [07 R170]. -/
def lcapOf (vs : List ElemView) (arcs : List (NodeId × Dest)) : Nat :=
  (vs.filter (fun v => v.ports arcs != 0)).foldl (fun m v => if v.pcap - 1 < m then v.pcap - 1 else m) 64

/-- Whether two sections of one target overlap. -/
def Section.clash (x y : Section) : Bool :=
  x.kind == y.kind && x.elem == y.elem && x.doff < y.doff + y.len && y.doff < x.doff + x.len

/-- No two sections of a list overlap. -/
def sectionsApart : List Section → Bool
  | [] => true
  | x :: r => r.all (fun y => !x.clash y) && sectionsApart r

/-- Step 8 of [05 R111]: no overlap, and nothing in the top of W with SFREE [11 R259]. -/
def Image.noOverlap (i : Image) : Bool :=
  i.cores.all (fun p => sectionsApart p.2.secs && (!i.sfree || p.2.secs.all (fun x => x.kind != 0 || x.doff + x.len ≤ 0x400000)))

/-- A used element of an image as the checks see it. -/
def viewOf (i : Image) (b : List Byte) (p : Nat × Nat × ElemDesc) : ElemView :=
  let ecw := wordsOf (cut b p.2.2.coff 64) 16
  let sh := shapeTable (i.core p.1).secs p.2.1 (fun x => x.bytes b)
  { core := p.1, elem := p.2.1, desc := p.2.2, ecw := ecw, recs := recordsOf b p.2.2, env := recEnv p.2.1 p.2.2 ecw sh }

/-- Step 5 of [05 R111]: everything else that [11 R259] checks. -/
def contentsOk (i : Image) (b : List Byte) : Bool :=
  (List.range i.ncore).all (fun c => coreOk b i.len c && (List.range 64).all (fun e => descOk b i.len c e)) &&
    i.usedElems.all (fun p => ecwOk (i.ecwEnv p.1 p.2.1 (recordsOf b p.2.2)) (wordsOf (cut b p.2.2.coff 64) 16)) &&
    i.cores.all (fun p => p.2.secs.all (fun x => x.kind != 3 || x.zero ||
      (List.range (x.len / 8)).all (fun k => barrierOk (fieldOf b (x.soff + 8 * k) 8))) && shapesOk p.2.secs (fun x => x.bytes b))

/-- Whether a BARV names a core of the region [13 R327]. -/
def barvOk (i : Image) (r : BitVec 96) : Bool := r.toNat / 2 ^ 87 != 13 || r.toNat / 64 % 64 < i.ncore

/-- The checks of IMGREG on an image's bytes in their order, from step 2 on: the status of the first that fails
[05 R111]. -/
def Image.check (i : Image) (b : List Byte) : Except Nat Image :=
  if digestOf (b.take 0x80 ++ List.replicate 64 0#8 ++ b.drop 0xC0) != i.digest then .error csDIGEST
  else if i.usedElems.isEmpty || i.usedElems.any (fun p => p.2.2.lacks p.2.1) then .error csEMPTY
  else if i.usedElems.any (fun p => p.2.2.tooBig p.2.1) || i.cores.any (fun p => 16384 < p.2.codeLen) then .error csTOOBIG
  else if !contentsOk i b then .error csBADHDR
  else
    let vs := i.usedElems.map (viewOf i b)
    let arcs := vs.flatMap ElemView.arcs
    if vs.any (fun v => v.recs.any (fun r => !recordOk v.env r)) then .error csBADOP
    else if arcs.any (fun p => !i.destOk p.2) || vs.any (fun v => v.recs.any (fun r => !barvOk i r)) then .error csBADDST
    else if !i.noOverlap then .error csOVERLAP
    else if !graphOk i vs arcs then .error csNOTWF
    else .ok { i with lcap := lcapOf vs arcs, gran := (i.usedElems.map (fun p => p.2.2.rnrec / 64)).foldl (· + ·) 0 }

end Sys2Proof.Machine
end

