-- ==== Sys2Proof/Machine/Loader.lean ====
section
/-! DEFINITION. Loading a region from its image, its start, its bounds, and the clearing of a slot [03 R70; 05 R104, R106 to R108,
R113 to R116, R120; 08 R201]. -/

namespace Sys2Proof.Machine

/-- Why a load or save fails: an access, or a check [05 R106, R113]. -/
inductive LoadErr where
  | access (f : FaultInfo)
  | check (code : Nat)
deriving DecidableEq, Repr

/-- The code of a failed load in LASTST. -/
def LoadErr.code : LoadErr → Nat
  | .access f => faultStatus f
  | .check c => c

/-- The fault record of a failed load [05 R106]. -/
def LoadErr.info : LoadErr → FaultInfo
  | .access f => { f with acc := 3 }
  | .check c => { FaultInfo.of 9 c with acc := 3 }

/-- An image by its handle. -/
def State.image (s : State) (h : Nat) : Option Image := (s.hs.images.find? (fun p => p.1 == h)).map (fun p => p.2)

/-- The bytes of a range of an image as the configuration reader has read them for a core [05 R113, R115]. -/
def Load.bytes (l : Load) (core off len : Nat) : List Byte :=
  mread ((l.got.filter (fun p => p.core == core && p.off == off && p.len == len)).foldl (fun m p => mwrite m p.pos p.b) []) 0 len

/-- The bytes of a core's sections, in their order. -/
def Load.sections (l : Load) (core : Nat) (xs : List Section) : List (Section × List Byte) :=
  xs.map (fun x => (x, if x.zero then List.replicate x.len 0#8 else l.bytes core x.soff x.len))

/-- LCOL in ECW0 [06 R135]. -/
def withLcol (w : W32) (l : Nat) : W32 := (w &&& ~~~0x0FC00000#32) ||| BitVec.ofNat 32 ((l - 1) % 64 * 2 ^ 22)

/-- An element as a load writes it; the flag says that every record passed its check.  Stochastic rounding in a DET image ends the load with
NOTWF [05 R112, R113, R115, R130]. -/
def Load.elem (y : Load) (i : Image) (l core elem : Nat) (d : ElemDesc) (sh : Memory) : Except LoadErr (Elem × Bool) :=
  let rb := y.bytes core d.roff (12 * d.nrec)
  let cb := y.bytes core d.coff 128
  let recs := (List.range d.nrec).map (fun n => BitVec.ofNat 96 (fieldOf rb (12 * n) 12))
  let ecw := wordsOf cb 16
  let env := i.ecwEnv core elem recs
  if !ecwOk env ecw then .error (.check csBADHDR)
  else if !sreOk env ecw then .error (.check csNOTWF)
  else
    let v := recEnv elem d ecw sh
    let fixed := recs.map (fun r => if recordOk v r then r else padRecord)
    let seed := tget ecw 0#32 5
    .ok ({ Elem.empty with
            used := true, nrec := d.rnrec, npool := d.rnpool, nslot := d.rnslot, nser := d.rnser,
            recs := mapIdxFrom (fun n r => (n, r)) 0 (fixed ++ List.replicate (d.rnrec - d.nrec) padRecord)
            ecw := tset ecw 0 (withLcol (tget ecw 0#32 0) l), k := wordsOf (cb.drop 64) 16
            gen := if elemClass elem == 1 && seed != 0#32 then seed else 1
            shapes := sh }, recs.all (recordOk v))

/-- The used elements of a core loaded in ascending order. -/
def Load.elems (y : Load) (i : Image) (l core : Nat) (sh : Nat → Memory) : List (Nat × ElemDesc) → Except LoadErr (Table Elem × Bool)
  | [] => .ok ([], true)
  | (e, d) :: r =>
    match y.elem i l core e d (sh e), y.elems i l core sh r with
    | .ok (x, a), .ok (xs, b) => .ok ((e, x) :: xs, a && b)
    | .error e, _ => .error e
    | .ok _, .error e => .error e

/-- A barrier from its word [09 R221]. -/
def barrierOf (v : Nat) : Barrier :=
  { exp := BitVec.ofNat 20 (bitsAt v 20 20), scope := BitVec.ofNat 2 (bitsAt v 58 2), phase := BitVec.ofNat 4 (bitsAt v 60 4),
    arr := BitVec.ofNat 20 (bitsAt v 0 20) }

/-- The barriers that the sections of a core load. -/
def barriersOf (secs : List (Section × List Byte)) : Table Barrier :=
  (secs.filter (fun p => p.1.kind == 3)).flatMap (fun p => (List.range (p.2.length / 8)).map (fun n => (p.1.doff / 8 + n, barrierOf (fieldOf p.2 (8 * n) 8))))

/-- A buffer with the sections of its KIND loaded. -/
def bufferOf (secs : List (Section × List Byte)) (kind : Nat) : Memory :=
  (secs.filter (fun p => p.1.kind == kind)).foldl (fun m p => mwrite m p.1.doff p.2) []

/-- A core loaded from its part of an image, at a place of the CMAP; the flag as of its elements [05 R113, R115]. -/
def Load.core (y : Load) (i : Image) (l core : Nat) (place : Byte) : Except LoadErr (Core × Bool) :=
  let c := i.core core
  let secs := y.sections core c.secs
  let words := (secs.filter (fun p => p.1.kind == 3)).all (fun p => (List.range (p.2.length / 8)).all (fun n => barrierOk (fieldOf p.2 (8 * n) 8)))
  let bytes (x : Section) : List Byte := match secs.find? (fun p => p.1 == x) with | some p => p.2 | none => []
  if !words || !shapesOk c.secs bytes then .error (.check csBADHDR)
  else
    match y.elems i l core (shapeTable c.secs · bytes) (c.elems.filter (fun p => p.2.used)) with
    | .error e => .error e
    | .ok (es, ok) =>
      .ok ({ Core.empty with
              die := bitsAt place.toNat 6 2, pos := bitsAt place.toNat 0 6, bufW := bufferOf secs 0, bufA := bufferOf secs 1,
              bufC := bufferOf secs 2, code := mwrite [] 0 (y.bytes core c.codeOff (4 * c.codeLen)), codeLen := c.codeLen,
              bars := barriersOf secs, elems := es }, ok)

/-- The cores of a region loaded in order. -/
def Load.cores (y : Load) (i : Image) (l : Nat) (cmap : Nat → Byte) : List Nat → Except LoadErr (Table Core × Bool)
  | [] => .ok ([], true)
  | c :: r =>
    match y.core i l c (cmap c), y.cores i l cmap r with
    | .ok (x, a), .ok (xs, b) => .ok ((c, x) :: xs, a && b)
    | .error e, _ => .error e
    | .ok _, .error e => .error e

/-- A byte of a slot's CMAP [05 R104]. -/
def Slot.place (x : Slot) (c : Nat) : Byte := tget x.cmap 0#8 c

/-- A region loaded for a slot from what was read, not yet started; a read that failed ends the load, and a record that failed its check ends it
with BADOP [05 R106, R113, R115]. -/
def State.loadRegion (s : State) (x : Slot) : Except LoadErr Region :=
  match s.image x.img.toNat, x.load with
  | some i, some y =>
    (match y.err with
      | some f => .error (.access f)
      | none =>
        match y.cores i x.l.toNat x.place (List.range i.ncore) with
        | .error e => .error e
        | .ok (cs, ok) =>
          if !ok then .error (.check csBADOP)
          else
            .ok { Region.empty with
              ten := x.ten.toNat % 16, ncore := i.ncore, l := x.l.toNat, det := i.det, sfree := i.sfree, basek := x.basek, savek := x.savek,
              ctx := x.ctx.setWidth 32, img := x.img, wcl := i.wcl, cores := cs, started := s.time, running := false })
  | _, _ => .error (.check csBADHDR)

/-- The writers of a region toward its memory edges, in the order of the time-division slots that a DET region gets when it enters RUN: core by
core its used elements, its control core, its talon and its copy channels, then the gather unit of each edge [05 R130] (log 39). -/
def Region.writers (r : Region) : List (Nat × Nat × Nat) :=
  r.cores.flatMap (fun p =>
    (((p.2.elems.filter (fun e => e.2.used)).map (fun e => e.1)) ++ (List.range 18).map (fun i => 64 + i)).map (fun u => (p.2.edge, p.1, u))) ++
  (r.cores.map (fun p => (p.2.edge, 0, 84))).eraseDups

/-- Thread 0 of core 0 at an entry: it runs with s1 = BASEVA and s2 = CTX [05 R108]. -/
def Thread.entry (base : Word) (ctx : W32) (pc : Nat) : Thread :=
  { Thread.start 0 with pc := BitVec.ofNat 64 pc, st := .run, regs := [(1, base), (2, ctx.setWidth 64 &&& 0xFFF#64)] }

/-- A core at region start: its threads wait, its AEs are at a boundary with a layout of zeros [05 R108; 06 R151, R154; 08 R184, R186]; what the
last run left of its waves, arrivals and counts is gone. -/
def Core.restart (c : Core) : Core :=
  { c with
    clk := 0,
    thr := (List.range 4).map (fun i => (i, Thread.start i)), cur := 0, cnt := 0, ccfg := 1, evpend := 0, evval := [], counts := [],
    changed := [],
    elems := c.elems.map (fun p => (p.1, { p.2 with lead := 0, arb := ⟨0, 0, false, none⟩, merges := [], ae := { p.2.ae with lay := AeSt.start.lay, queue := [], pos := 0, atBound := true, waves := [] } })) }

/-- A region enters RUN: a DET region gets its time-division slots, and every thread waits but thread 0 of core 0 at the image's entry; LEAD = NEXT = 0
[05 R108, R130; 07 R163]. -/
def Region.start (r : Region) (base : Word) (ctx : W32) (l entry now : Nat) : Region :=
  let r1 : Region := { r with
    cores := r.cores.map (fun p => (p.1, p.2.restart)), lead := 0, next := 0, owners := [], done := [], purged := [], snap := [],
    idleAt := 0, fired := false, kHeld := none, started := now, now := 0, injq := [], exit := none, draining := false, running := true,
    tdm := if r.det then r.writers else [], basek := base, ctx := ctx, l := l }
  r1.putCore 0 ((r1.core 0).putThread 0 (Thread.entry base ctx entry))

/-- The entry address of an entry number of an image [05 R108, R110]. -/
def State.entryOf (s : State) (img : W32) (n : Nat) : Nat :=
  match s.image img.toNat with
  | some i => i.ents.getD n 0
  | none => 0

/-- A region of a slot started at the entry of the slot's record, as its acceptance read it, in the image that it holds.  Region start is a stream
boundary: a layout word that the last run left and that the layout refuses is reported, and every layout word is 0 then (log 46)
[05 R105, R108; 08 R184, R186]. -/
def State.startRegion (s : State) (slot : Nat) (r : Region) : State :=
  let x := (s.slot slot).asRead
  let s1 := s.putSlot slot { s.slot slot with
    st := 2, region := some (r.start x.basek (x.ctx.setWidth 32) x.l.toNat (s.entryOf r.img x.entry.toNat) s.time) }
  r.cores.foldl (fun s p => p.2.elems.foldl (fun s q => s.applyWords slot p.1 q.1 (q.2.ae.queue.filter (fun w => !layoutOk w.num.toNat w.v))) s) s1

/-- The configuration bytes of a core of an image as ranges [05 R115]. -/
def ImgCore.ranges (c : ImgCore) : List (Nat × Nat) :=
  let all : List (Nat × Nat) := (c.elems.filter (fun p => p.2.used)).flatMap (fun p => [(p.2.roff, 12 * p.2.nrec), (p.2.coff, 128)]) ++
    [(c.codeOff, 4 * c.codeLen)] ++ (c.secs.filter (fun x => !x.zero)).map (fun x => (x.soff, x.len))
  all.filter (fun p => p.2 != 0)

/-- A range cut at 64 KiB page ends: address and length. -/
def pageCuts : Nat → Word → Nat → List (Word × Nat)
  | 0, _, _ => []
  | f + 1, va, n =>
    if n = 0 then []
    else
      let k := if n < pageRoom va then n else pageRoom va
      (va, k) :: pageCuts f (va + BitVec.ofNat 64 k) (n - k)

/-- The memories that ranges of an image lie in, with byte counts; none for a page that does not translate. -/
def State.imgPlaces (s : State) (i : Image) (rs : List (Nat × Nat)) : List (Option Loc × Nat) :=
  rs.flatMap (fun p => (pageCuts (p.2 / 65536 + 2) (i.va + BitVec.ofNat 64 p.1) p.2).map (fun q =>
    (match s.translate i.ten q.1 needG apLocal with | .ok l => some l | .error _ => none, q.2)))

/-- The bytes of places that satisfy a test. -/
def bytesWhere (ps : List (Option Loc × Nat)) (f : Loc → Bool) : Nat :=
  ps.foldl (fun n p => match p.1 with | some l => if f l then n + p.2 else n | none => n) 0

/-- The largest of some numbers. -/
def maxOf (l : List Nat) : Nat := l.foldl (fun m x => if m < x then x else m) 0

/-- Whether a place is a near stack of a die, a far stack behind it, or a given stack. -/
def Loc.nearOf (l : Loc) (d : Nat) : Bool := match l with | .hbm st _ => st < 8 && st / 2 == d | _ => false
/-- Far. -/
def Loc.farOf (l : Loc) (d : Nat) : Bool := match l with | .hbm st _ => 8 ≤ st && (st - 8) / 2 == d | _ => false
/-- One stack. -/
def Loc.stackOf (l : Loc) (n : Nat) : Bool := match l with | .hbm st _ => st == n | _ => false
/-- An expander. -/
def Loc.portOf (l : Loc) (n : Nat) : Bool := match l with | .cxl p _ => p == n | _ => false
/-- Host memory. -/
def Loc.inHost (l : Loc) : Bool := match l with | .host _ _ => true | _ => false

/-- The pieces that are staged for a core of a slot: those of the image of its record, for that core [05 R124]. -/
def State.stagedPieces (s : State) (x : Slot) (c : Nat) : List Piece :=
  let place := (x.place c).toNat
  (s.wk.staged.filter (fun y => y.die == place / 64 && y.pos == place % 64 && y.img == x.img)).flatMap (fun y => y.pieces.filter (fun p => p.core == c))

/-- What a load of a core has to read: of each range what is not staged, as range and first byte [05 R115, R124]. -/
def State.unstaged (s : State) (x : Slot) (i : Image) (c : Nat) : List (Nat × Nat × Nat) :=
  let ps := s.stagedPieces x c
  (i.core c).ranges.filterMap (fun q =>
    let k := ((ps.find? (fun p => p.off == q.1 && p.len == q.2)).map (fun p => p.b.length)).getD 0
    if k < q.2 then some (q.1, q.2, k) else none)

/-- The load bound in units of 1/32000 ns; none when part of the image lies in host memory.  The bytes that are not staged count, each kind of
memory in its own terms: near stacks by core, die of origin and die read, far stacks by chain and die, expanders by port [05 R115]. -/
def State.loadBound (s : State) (x : Slot) (i : Image) : Option Nat :=
  let cores := List.range i.ncore
  let at_ := cores.map (fun c => let rs := s.unstaged x i c
    (c, rs.foldl (fun n q => n + (q.2.1 - q.2.2)) 0, s.imgPlaces i (rs.map (fun q => (q.1 + q.2.2, q.2.1 - q.2.2)))))
  let staged (c : Nat) : Nat := (s.stagedPieces x c).foldl (fun n p => n + p.b.length) 0
  let ps := at_.flatMap (fun p => p.2.2)
  let dies := List.range 4
  let near (l : Loc) : Bool := dies.any (fun d => l.nearOf d)
  let onDie (d : Nat) : Nat := (at_.filter (fun p => bitsAt (x.place p.1).toNat 6 2 == d)).foldl (fun n p => n + bytesWhere p.2.2 near) 0
  let port (p : Nat) : Nat :=
    let n := bytesWhere ps (·.portOf p)
    let t := n * 32000 * Config.cxlLatency p / 65536
    let u := (n * 32000 + 109) / 110
    if t < u then u else t
  if bytesWhere ps Loc.inHost != 0 then none
  else
    some ((if at_.all (fun p => p.2.1 == 0) then 48000000 else 96000000) +
      maxOf (at_.map (fun p => 500 * p.2.1) ++ dies.map (fun d => 20 * onDie d) ++ dies.map (fun d => 20 * bytesWhere ps (·.nearOf d)) ++
        (List.range 8).map (fun k => 128 * bytesWhere ps (·.stackOf (8 + k))) ++ dies.map (fun d => 64 * bytesWhere ps (·.farOf d)) ++
        [port 0, port 1] ++ cores.map (fun c => 125 * staged c)))

/-- The configuration reads of a load begun: what is staged is taken from the staging buffers, the rest is read through the memory edges of the
cores, by the graph-image permit [04 R95; 05 R113, R115, R124; 08 R192]. -/
def State.beginReads (s : State) (n : Nat) : State :=
  let x := (s.slot n).asRead
  match s.image x.img.toNat with
  | none => s.putSlot n { s.slot n with load := some ⟨[], none⟩ }
  | some i =>
    let cores := List.range i.ncore
    let ops : List Op := cores.flatMap (fun c =>
      let place := (x.place c).toNat
      (s.unstaged x i c).map (fun q =>
        { mkOp (.load n c q.1 q.2.1 q.2.2) (.config (4 * (place / 64) + place % 4)) i.ten .read []
            (rangeParts (i.va + BitVec.ofNat 64 (q.1 + q.2.2)) (q.2.1 - q.2.2)) apLocal with graph := true }))
    ops.foldl (fun s o => s.startOp o) (s.putSlot n { s.slot n with load := some ⟨cores.flatMap (fun c => s.stagedPieces x c), none⟩ })

/-- A number of 100 ns units as a 16-bit bound; a bound that does not fit is left open (log 19). -/
def bound16 (k : Nat) (open_ : Word) : BitVec 16 := if k < 2 ^ 16 then BitVec.ofNat 16 k else open_.setWidth 16

/-- A time in units of 1/32000 ns as TLOAD, in units of 100 ns rounded up [05 R104, R115]. -/
def tloadOf (t : Option Nat) (open_ : Word) : BitVec 16 :=
  match t with
  | none => 0xFFFF#16
  | some n => bound16 ((n + 3199999) / 3200000) open_

/-- TDRN: L × WCL + 2 us in units of 100 ns rounded up; 0xFFFF without a WCL [05 R104, R114]. -/
def tdrnOf (l wcl : Nat) (open_ : Word) : BitVec 16 := if wcl == 0 then 0xFFFF#16 else bound16 ((l * wcl + 2000 + 99) / 100) open_

/-- Whether a BOUND image exceeds its bounds at a placement [05 R116]. -/
def State.noBound (s : State) (x : Slot) (i : Image) : Bool :=
  i.bound && (i.wcl == 0 || 33000 < x.l.toNat * i.wcl ||
    (match s.loadBound x i with | none => true | some t => 80000 * 32000 < t) ||
    !(s.imgPlaces i [(0, i.len)]).all (fun p => match p.1 with | some (.hbm st _) => st < 8 | _ => false))

/-- The slot for which an operation runs; none of a unit of h. -/
def Who.slot : Who → Option Nat
  | .ccLoad s _ _ _ _ | .ccStore s _ _ | .ccAtomic s _ _ _ | .fire s _ _ _ _ _ _ _ | .copyRec s _ _ | .copySrc s _ _ _ _ | .copyDst s _ _ _
  | .copyCtl s _ _ | .spill s _ _ | .refetch s _ _ | .load s _ _ _ _ => some s
  | .stage _ _ _ _ _ _ _ | .walk _ _ | .bar2 _ | .cmd _ => none

/-- Whether an operation is part of a record that a channel has started: a sector of it, or its CTL [08 R198, R199]. -/
def Who.ofRecord : Who → Bool
  | .copySrc _ _ _ _ _ | .copyDst _ _ _ _ | .copyCtl _ _ _ => true
  | _ => false

/-- Whether an element's firing waits for the acknowledgement of an end packet [15 R371, R386]. -/
def Region.awaitsEnd (r : Region) : Bool := r.cores.any (fun p => p.2.elems.any (fun q => q.2.xe.sends.any (fun y => y.ending.isSome)))

/-- Whether a record that a copy channel of a region has started has not completed [08 R201]. -/
def Region.copying (r : Region) : Bool := r.cores.any (fun p => p.2.chans.any (fun q => q.2.recs.any (fun o => o.started)))

/-- Whether a request of a slot is outstanding: an operation in progress; while it runs, also an end packet that is not acknowledged; and in a
region reset, also a record that has started [03 R70; 05 R118; 15 R371]. -/
def State.busySlot (s : State) (slot : Nat) : Bool :=
  s.ms.ops.any (fun o => o.who.slot == some slot) ||
    (match (s.slot slot).reset with
      | some _ => (s.region slot).any Region.copying
      | none => (s.region slot).any Region.awaitsEnd)

/-- What a unit of a slot has staged goes, and what waits in the queue unit. -/
def State.dropUnits (s : State) (slot : Nat) : State :=
  let s1 := s.dropStage (fun b => b.unit.site.map (·.1) == some slot)
  let s2 := s1.withMs (fun m => { m with views := m.views.filter (fun v => v.thr.1 != slot), msgs := m.msgs.filter (fun x => x.site.map (·.1) != some slot) })
  { s2 with wk := { s2.wk with qwaits := s2.wk.qwaits.filter (fun w => w.slot != slot) } }

/-- The requests of a test that have not left taken back: those that wait for tags, and those in the gather units. -/
def MemSys.unqueue (m : MemSys) (f : Nat → Bool) : MemSys :=
  { m with
    queue := m.queue.filter (fun q => !q.serves.any (fun v => f v.op))
    gather := m.gather.map (fun p => (p.1, { p.2 with
      inq := p.2.inq.filter (fun g => !f g.op)
      rows := (p.2.rows.map (fun w => { w with reqs := w.reqs.filter (fun g => !f g.op) })).filter (fun w => !w.reqs.isEmpty) })) }

/-- The requests that have left and serve a part of an operation. -/
def MemSys.issued (m : MemSys) (id : Nat) (p : Part) : Nat :=
  (m.tags.filter (fun t => t.busy.any (fun q => q.serves.any (fun v => v.op == id && p.off ≤ v.off && v.off < p.off + p.n)))).length

/-- An operation whose requests that have left are let finish, their replies discarded, and of which nothing more leaves [03 R70]. -/
def Op.cutOff (m : MemSys) (o : Op) : Op :=
  { o with orphan := true, parts := o.parts.map (fun p =>
      if p.st.ended then p else match m.issued o.id p with
        | 0 => { p with st := .done }
        | n + 1 => { p with st := .sent (n + 1) false }) }

/-- The operations of a slot cut off, but for those of a test, which go on [03 R70]. -/
def State.cutSlot (s : State) (slot : Nat) (keep : Op → Bool) : State :=
  let mine (o : Op) : Bool := o.who.slot == some slot && !keep o
  let ids := (s.ms.ops.filter mine).map (fun o => o.id)
  s.withMs (fun m =>
    let m1 := m.unqueue ids.contains
    { m1 with ops := (m1.ops.map (fun o => if mine o then o.cutOff m1 else o)).filter (fun o => !(mine o && o.parts.all (fun p => p.st.ended))) })

/-- The operations of a test given up: their tags free under the next generation, as by a timeout, their requests still to leave go [03 R70;
08 R193]. -/
def State.giveUp (s : State) (f : Op → Bool) : State :=
  let ids := (s.ms.ops.filter f).map (fun o => o.id)
  let dead (q : Req) : Bool := !q.serves.isEmpty && q.serves.all (fun v => ids.contains v.op)
  s.withMs (fun m =>
    let m1 := m.unqueue ids.contains
    let hit := m1.tags.filter (fun t => t.busy.any dead)
    { m1 with
      ops := m1.ops.filter (fun o => !ids.contains o.id)
      tmo := hit.foldl (fun t x => match x.busy with | some q => bump t q.edge | none => t) m1.tmo
      tags := m1.tags.map (fun t => if t.busy.any dead then { t with busy := none, gen := t.gen + 1, old := t.old ++ [(t.gen, s.time)] }
        else { t with busy := t.busy.map (fun q => { q with serves := q.serves.filter (fun v => !ids.contains v.op) }) }) })

/-- The memories and tokens of a slot's region gone, and what of its operations has not left [03 R70 steps 4 and 5; 05 R115 step 1]. -/
def State.clearRegion (s : State) (slot : Nat) : State :=
  let s1 := (s.cutSlot slot (fun _ => false)).dropUnits slot
  s1.putSlot slot { s1.slot slot with region := none, saved := none, load := none }

end Sys2Proof.Machine
end

