-- ==== Sys2Proof/Machine/HostQueue.lean ====
section
/-! DEFINITION. Command queues: configuration, doorbells, the start and the completion of commands, launch packets, the host
window [04 R79, R81 to R88, R101]. -/

namespace Sys2Proof.Machine

/-- A queue of a function. -/
def Fn.queue (f : Fn) (q : Nat) : Queue := tget f.queues Queue.off q

/-- The state with a queue written. -/
def State.putQueue (s : State) (fn q : Nat) (x : Queue) : State :=
  let f := s.fn fn
  s.putFn fn { f with queues := tset f.queues q x }

/-- Whether a function exists: PF0 always, VFn while it is enabled [04 R78], also while its tenant is being reset (log 23). -/
def State.fnOn (s : State) (fn : Nat) : Bool := fn == 0 || (fn ≤ 16 && (s.fn fn).enabled)

/-- The tenant of a virtual function [04 R78]. -/
def fnTen (fn : Nat) : Nat := fn - 1

/-- The entries of a submission ring. -/
def Queue.size (x : Queue) : Nat := 2 ^ x.ssz.toNat
/-- Of a completion ring. -/
def Queue.csize (x : Queue) : Nat := 2 ^ x.csz.toNat

/-- A queue at the start of its rings: what a write of EN = 1 to a disabled queue makes of it (log 18). -/
def Queue.restart (x : Queue) : Queue :=
  { x with en := true, head := 0, tail := 0, cqhead := 0, cqtail := 0, phase := true, lseq := none, rack := [], fetched := none, posts := [] }

/-- A write of QCFG [04 R81, R82, R83]: QERR is cleared by 1; the sizes only while the queue is disabled; EN stays 0 with a size
outside 4 to 12. -/
def Queue.config (x : Queue) (v : W32) : Queue :=
  let x1 := { x with qerr := x.qerr && !v.getLsbD 30, src := v.getLsbD 29, ien := v.getLsbD 28 }
  let x2 := if x.en then x1 else { x1 with csz := BitVec.ofNat 4 (bitsAt v.toNat 20 4), ssz := BitVec.ofNat 4 (bitsAt v.toNat 16 4) }
  if v.getLsbD 31 then
    if x.en then x2
    else if x2.csz < 4 || 12 < x2.csz || x2.ssz < 4 || 12 < x2.ssz then x2
    else x2.restart
  else { x2 with en := false }

/-- A doorbell: a tail beyond the ring, or one that passes the head, sets QERR and is ignored; a rack queue ignores it
[04 R83, R88], and so does a queue that is not enabled, without QERR (log 18). -/
def Queue.door (x : Queue) (v : Nat) : Queue :=
  if !x.en || x.src then x
  else if x.size ≤ v then { x with qerr := true }
  else if (x.head + x.size - x.tail - 1) % x.size < (v + x.size - x.tail) % x.size then { x with qerr := true }
  else { x with tail := v }

/-- QDOOR [04 R83]. -/
def execQdoor (fn q : Nat) (v : BitVec 32) (s : State) : Out :=
  .next (if s.fnOn fn && q < 64 then s.putQueue fn q (((s.fn fn).queue q).door v.toNat) else s)

/-- The 16 bytes of a completion [04 R86]. -/
def cplBytes (ent : List Byte) (status : Nat) (phase : Bool) (sqhead : Nat) (result : Word) : List Byte :=
  ent.take 2 ++ leOf 1 status ++ leOf 1 phase.toNat ++ leOf 2 sqhead ++ leOf 2 0 ++ leOf 8 result.toNat

/-- The digest field of a slot's image in a report. -/
def State.digest16 (s : State) (h : W32) : List Byte :=
  match s.image h.toNat with
  | some i => i.digest.take 16
  | none => List.replicate 16 0#8

/-- A bind entry of a residency report [04 R89]. -/
def State.bindEntry (s : State) (n : Nat) (x : Slot) : List Byte :=
  let (live, lead) := match x.region with | some r => (r.liveOwn, r.lead.toNat) | none => (0, 0)
  let y := x.asRead
  leOf 2 n ++ leOf 1 y.ten.toNat ++ leOf 1 x.st.toNat ++ leOf 1 y.ncore.toNat ++ leOf 1 y.l.toNat ++ leOf 1 live ++ leOf 1 lead ++
    leOf 1 x.prio.toNat ++ leOf 1 x.phase.toNat ++ leOf 2 0 ++ leOf 4 y.img.toNat ++ s.digest16 y.img

/-- Whether a record holds its cores: in any state but FREE and SAVED [05 R107]. -/
def Slot.holds (x : Slot) : Bool := x.st != 0#8 && x.st != 5#8

/-- The places of a record's cores. -/
def Slot.places (x : Slot) : List Byte := (List.range x.ncore.toNat).map x.place

/-- Whether a place is bound. -/
def State.bound (s : State) (p : Byte) : Bool := s.slots.any (fun q => q.2.holds && q.2.asRead.places.contains p)

/-- Free cores of a die [04 R89]. -/
def State.freeCores (s : State) (die : Nat) : Nat :=
  ((List.range 48).filter (fun i => !s.bound (BitVec.ofNat 8 (64 * die + i)))).length

/-- A residency report: of a tenant, or of the whole device [04 R89]. -/
def State.report (s : State) (ten : Option Nat) : List Byte :=
  let wins : List Word := match ten with
    | none => []
    | some t => ((List.range 16).map (fun w => tget s.mg.twin 0#64 (16 * t + w))).filter (fun v => v.getLsbD 63)
  let binds := (List.range 256).filter (fun n => (s.slot n).st != 0#8 && (match ten with | none => true | some t => (s.slot n).asRead.ten.toNat == t))
  leOf 2 1 ++ leOf 1 s.self.toNat ++ leOf 1 (ten.getD 255) ++ leOf 1 wins.length ++ leOf 1 0 ++ leOf 2 binds.length ++ leOf 8 s.time ++
    (List.range 4).flatMap (fun d => leOf 1 (s.freeCores d)) ++ leOf 12 0 ++ wins.flatMap (fun v => leOf 8 v.toNat) ++
    binds.flatMap (fun n => s.bindEntry n (s.slot n))

/-- What goes back to a rack scheduler on the transport of its packet [04 R88, R89]. -/
def State.rackSend (s : State) (src : RackSrc) (b : List Byte) : State := { s with hs := { s.hs with rackOut := s.hs.rackOut ++ [(src, b)] } }

/-- The entries of a completion ring that the host has not read [04 R83]. -/
def Queue.unread (x : Queue) : Nat := (x.cqtail + x.csize - x.cqhead) % x.csize

/-- The vector of a completion, where the queue asks for it [04 R82, R87]. -/
def State.cplVector (s : State) (fn q : Nat) : State := if ((s.fn fn).queue q).ien then s.msi fn (if fn == 0 then 3 else q) else s

/-- A completion entry written to the completion ring, then its vector [04 R83, R86, R87]. -/
def State.postCpl (s : State) (fn q : Nat) (c : Cpl) : State :=
  let x := (s.fn fn).queue q
  let n := (x.cqtail + 1) % x.csize
  let b := cplBytes c.ent c.status x.phase c.sqhead c.result
  ((s.hostWrite (x.cqbase.toNat / 16 * 16 + 16 * x.cqtail) b).putQueue fn q { x with cqtail := n, phase := if n == 0 then !x.phase else x.phase }).cplVector fn q

/-- The completions of a queue that wait, written while its ring has room [04 R83] (log 18). -/
def State.flushCpl (s : State) (fn q : Nat) : Nat → State
  | 0 => s
  | n + 1 =>
    let x := (s.fn fn).queue q
    match x.posts with
    | [] => s
    | c :: r => if x.unread + 1 < x.csize then ((s.putQueue fn q { x with posts := r }).postCpl fn q c).flushCpl fn q n else s

/-- A completion posted after those that wait. -/
def State.addCpl (s : State) (fn q : Nat) (c : Cpl) : State :=
  let x := (s.fn fn).queue q
  if x.posts.isEmpty && x.unread + 1 < x.csize then s.postCpl fn q c else s.putQueue fn q { x with posts := x.posts ++ [c] }

/-- A command completes [04 R83, R86, R88]: its entry in the completion ring, or back to the rack scheduler with the report it asked
for. -/
def State.complete (s : State) (r : Run) (status : Nat) (result : Word) : State :=
  let s1 := { s with hs := { s.hs with runs := s.hs.runs.filter (fun x => x.id != r.id) } }
  match r.rack with
  | some (rep, src) =>
    let s2 := (s1.rackSend src (cplBytes r.ent status ((s.fn r.fn).queue r.q).phase r.sqhead result)).cplVector r.fn r.q
    if rep then s2.rackSend src (s2.report (some (fnTen r.fn))) else s2
  | none => s1.addCpl r.fn r.q ⟨r.ent, status, r.sqhead, result⟩

/-- What a write to a queue's registers brings about: an entry that was read completes with ABORTED once the queue is disabled, and waiting
completions are written as the host reads [04 R83]. -/
def State.queueWritten (s : State) (fn q : Nat) : State :=
  let x := (s.fn fn).queue q
  let s1 := match x.fetched with
    | some r => if x.en then s else (s.putQueue fn q { x with fetched := none }).complete r csABORTED 0
    | none => s
  s1.flushCpl fn q x.posts.length

/-- A write of QCFG of a function's queue. -/
def State.qcfgWrite (s : State) (fn q : Nat) (v : W32) : State :=
  if s.fnOn fn && q < 64 then (s.putQueue fn q (((s.fn fn).queue q).config v)).queueWritten fn q else s

/-- QUEUE_ENABLE: a write of QCFG with EN = 1 [04 R82]. -/
def execQueueEnable (fn q : Nat) (v : BitVec 32) (s : State) : Out := .next (if v.getLsbD 31 then s.qcfgWrite fn q v else s)

/-- QUEUE_DISABLE: a write of QCFG with EN = 0 [04 R83]. -/
def execQueueDisable (fn q : Nat) (v : BitVec 32) (s : State) : Out := .next (if v.getLsbD 31 then s else s.qcfgWrite fn q v)

/-- QERR_CLEAR [04 R82]. -/
def execQerrClear (fn q : Nat) (s : State) : Out :=
  .next (if s.fnOn fn && q < 64 then s.putQueue fn q { (s.fn fn).queue q with qerr := false } else s)

/-- A command completes with the status of a failed access, and its record [04 R86, R101]. -/
def State.completeFault (s : State) (r : Run) (f : FaultInfo) : State :=
  (s.record (fnTen r.fn) 0xFFFF 0xFFFF 0 0 { f with acc := if f.acc == 3 then 3 else 5 }).complete r (faultStatus f) 0

/-- The command with a number. -/
def State.runOf (s : State) (id : Nat) : Option Run := s.hs.runs.find? (fun r => r.id == id)

/-- A command with a number completes, if it still runs. -/
def State.completeId (s : State) (id status : Nat) (result : Word) : State :=
  match s.runOf id with
  | some r => s.complete r status result
  | none => s

/-- The operand bytes that an opcode names, as offsets and sizes [04 R85]. -/
def opcFields (opc : Nat) : List (Nat × Nat) :=
  match opc with
  | 1 => [(8, 16)]
  | 2 => [(8, 4)]
  | 3 => [(8, 0x16), (0x20, 8)]
  | 4 => [(8, 8)]
  | 5 => [(8, 0x14)]
  | 6 => [(8, 16)]
  | 7 => [(8, 8)]
  | 8 => [(8, 16)]
  | 9 => [(8, 1), (16, 8)]
  | 10 => [(8, 7), (16, 10)]
  | 11 => [(8, 2), (16, 8)]
  | 12 => [(8, 1)]
  | _ => []

/-- Whether a command entry is a command: a known opcode, and every reserved byte 0 [04 R84, R85]. -/
def entryOk (b : List Byte) : Bool :=
  let opc := fieldOf b 2 1
  opc ≤ 12 && fieldOf b 3 1 ≤ 1 && fieldOf b 4 4 == 0 &&
    (List.range 56).all (fun i => (opcFields opc).any (fun f => f.1 ≤ i + 8 && i + 8 < f.1 + f.2) || b.getD (i + 8) 0#8 == 0#8) &&
    (opc != 3 || bitsAt (fieldOf b 0x1A 2) 12 4 == 0)

/-- Whether a function may give an opcode [04 R85]. -/
def opcAllowed (fn opc : Nat) : Bool := if fn == 0 then [0, 7, 8, 9].contains opc else opc != 9

/-- Whether a queue can start its next command: one that was read, or the next of its ring [04 R82, R83, R88]. -/
def State.mayStart (s : State) (fn q : Nat) : Bool :=
  let x := (s.fn fn).queue q
  s.fnOn fn && q < 64 && x.en && !x.qerr && (x.fetched.isSome || x.head != x.tail) && (x.src || x.unread + 1 < x.csize)

/-- The entry at the head of a queue: in host memory, or of a rack queue in tenant memory [04 R81, R88]. -/
def State.headEntry (s : State) (fn q : Nat) : Except FaultInfo (List Byte) :=
  let x := (s.fn fn).queue q
  let a := x.base.toNat / 64 * 64 + 64 * x.head
  if x.src then s.vget (fnTen fn) needR apLocal (BitVec.ofNat 64 a) 64 else .ok (mread s.ms.host a 64)

/-- The next entry of a queue read: its command, and how the read ended [04 R83, R88]. -/
def State.readEntry (s : State) (fn q : Nat) : State × Run × Option FaultInfo :=
  let x := (s.fn fn).queue q
  let head := (x.head + 1) % x.size
  let s := if x.src then s.counted (fnTen fn) needR (BitVec.ofNat 64 (x.base.toNat / 64 * 64 + 64 * x.head)) 64 else s
  let (b, f) := match s.headEntry fn q with | .ok b => (b, none) | .error f => (List.replicate 64 0#8, some f)
  let r : Run := { id := s.hs.nextRun, fn := fn, q := q, ent := b, sqhead := head, stage := 0,
                   rack := if x.src then some (x.rack.headD (false, .ether 0)) else none }
  ({ s.putQueue fn q { x with head := head, rack := x.rack.drop 1 } with hs := { (s.putQueue fn q { x with head := head, rack := x.rack.drop 1 }).hs with nextRun := s.hs.nextRun + 1 } }, r, f)

/-- A command read from its ring: it runs, or completes at once because it is none, may not be given here, or could not be read
[04 R83 to R86]. -/
def State.startCommand (s : State) (r : Run) (f : Option FaultInfo) : State :=
  let s1 := { s with hs := { s.hs with runs := s.hs.runs ++ [r] } }
  match f with
  | some f => s1.completeFault r f
  | none =>
    if !entryOk r.ent then s1.complete r csBADCMD 0
    else if !opcAllowed r.fn (fieldOf r.ent 2 1) then s1.complete r csNOPERM 0
    else s1

/-- Whether a command waits for the earlier ones of its queue [04 R83, R84]. -/
def State.fenced (s : State) (r : Run) : Bool :=
  (r.ent.getD 3 0#8).getLsbD 0 && s.hs.runs.any (fun x => x.fn == r.fn && x.q == r.q)

/-- COMMAND_START: the next entry of a queue is read and starts; a fenced one starts only when every earlier command of the queue has
completed, and until then it has been read and waits [04 R83]. -/
def execCommandStart (fn q : Nat) (s : State) : Out :=
  .next (if !s.mayStart fn q then s
    else match ((s.fn fn).queue q).fetched with
      | some r => if s.fenced r then s else (s.putQueue fn q { (s.fn fn).queue q with fetched := none }).startCommand r none
      | none =>
        let (s1, r, f) := s.readEntry fn q
        if s1.fenced r then s1.putQueue fn q { (s1.fn fn).queue q with fetched := some r } else s1.startCommand r f)

/-- The first check of a launch packet that fails [04 R88]. -/
def State.launchBad (s : State) (b : List Byte) : Option Nat :=
  let ten := fieldOf b 1 1
  let f := s.fn (ten + 1)
  let x := f.queue (fieldOf b 2 1)
  let cookie := fieldOf b 8 8
  if b.length != 96 || fieldOf b 0 1 != 1 || 1 < fieldOf b 3 1 || !zerosAt b 16 16 then some 1
  else if 16 ≤ ten || !f.enabled then some 2
  else if 64 ≤ fieldOf b 2 1 || !x.en || !x.src then some 3
  else if f.rackck == 0#64 || cookie != f.rackck.toNat then some 4
  else match x.lseq with
    | none => none
    | some n => if fieldOf b 4 4 == (n + 1).toNat then none else some 5

/-- A dropped launch packet: a record of class LAUNCHBAD with the failed check [04 R88]. -/
def State.launchDropped (s : State) (b : List Byte) (n : Nat) : State :=
  if fieldOf b 1 1 < 16 then s.record (fieldOf b 1 1) 0xFFFF 0xFFFF 0 0 { FaultInfo.of 0x10 n with acc := 5 } else s

/-- An accepted launch packet: QFULL while the ring is full, else its entry is appended; a completion raises the queue's vector
[04 R82, R88].  No report goes with QFULL, and an append that faults is answered by a completion with its status and advances nothing
(log 40). -/
def State.launchTaken (s : State) (src : RackSrc) (b : List Byte) : State :=
  let ten := fieldOf b 1 1
  let q := fieldOf b 2 1
  let x := (s.fn (ten + 1)).queue q
  let ent := b.drop 32
  if (x.tail + 1) % x.size == x.head then (s.rackSend src (cplBytes ent csQFULL x.phase x.head 0)).cplVector (ten + 1) q
  else
    match s.vput ten apLocal (BitVec.ofNat 64 (x.base.toNat / 64 * 64 + 64 * x.tail)) ent with
    | (s1, some f) =>
      ((s1.record ten 0xFFFF 0xFFFF 0 0 { f with acc := 5 }).rackSend src (cplBytes ent (faultStatus f) x.phase x.head 0)).cplVector (ten + 1) q
    | (s1, none) =>
      s1.putQueue (ten + 1) q { x with tail := (x.tail + 1) % x.size, lseq := some (BitVec.ofNat 32 (fieldOf b 4 4)), rack := x.rack ++ [((b.getD 3 0#8).getLsbD 0, src)] }

/-- Whether launch packets can come over a transport: a Triwin port in UALink mode whose link is up, or an Ethernet connection in ROD mode
[01 R32, R34; 04 R88]. -/
def State.carriesLaunch (s : State) (src : RackSrc) : Bool :=
  match src with
  | .ualink port => port < 32 && (s.port port).ualink && (s.port port).up
  | .ether peer => s.fb.eth.contains (peer, 1)

/-- LAUNCH_PACKET: over a transport that carries none it is not taken [01 R32, R34; 04 R88]. -/
def execLaunchPacket (p : RackPkt) (s : State) : Out :=
  .next (if !s.carriesLaunch p.src then s
    else match s.launchBad p.bytes with
      | some n => s.launchDropped p.bytes n
      | none => s.launchTaken p.src p.bytes)

/-- The tenant address of an offset of a host window [04 R79, R81]. -/
def Fn.window (f : Fn) (off : Nat) : Word := (f.hwin &&& ~~~0xFFFFFFFF#64) + BitVec.ofNat 64 (off % 2 ^ 32)

/-- The fault record of a BAR2 access [04 R79, R101]. -/
def State.bar2Fault (s : State) (vf : Nat) (f : FaultInfo) : State := s.record (fnTen vf) 0xFFFF 0xFFFF 0 0 f

/-- The stream of a host window's accesses, which travel path CC as those of a control core would [04 R79; 09 R206, R207]. -/
def hostStream (vf : Nat) : Stream := .cc (256 + vf) 0

/-- An access through a host window that meets a peer leaf: it goes on as an access of its own, whose end the host gets when it comes
[04 R79; 12 R278]. -/
def State.bar2Peer (s : State) (vf : Nat) (va : Word) (n : Nat) (kind : OpKind) (d : List Byte) : State :=
  (s.startOp (mkOp (.bar2 vf) (.unit vf) (fnTen vf) kind d (rangeParts va n) apAll)).run

/-- What a read through a host window returns, page by page, each possibly from its staging on path CC [09 R207]. -/
def State.bar2Staged (s : State) (vf : Nat) (ps : List (Loc × Nat × Nat)) (b : List Byte) : State × List Byte :=
  ps.foldl (fun r p =>
    let (s1, d) := r.1.stageRead (hostStream vf) 0 p.1.space.1 p.1.space.2 ((b.drop p.2.1).take p.2.2)
    (s1, r.2 ++ d)) (s, [])

/-- What a write through a host window does to the staging of path CC [09 R207, R215, R218]. -/
def State.bar2Wrote (s : State) (vf : Nat) (ps : List (Loc × Nat × Nat)) (d : List Byte) : State :=
  ps.foldl (fun s p => (s.ccWrote (256 + vf, 0, 0) p.1.space.1 (addrs p.1.space.2 p.2.2) false []).fillBytes (hostStream vf) 0 p.1.space.1
    (bytesAt p.1.space.2 ((d.drop p.2.1).take p.2.2))) s

/-- BAR2_READ: tenant memory through the host window, translated as a control-core access: a peer leaf reaches the peer, whose answer the host
gets when it comes; a faulting read gives 0xFF bytes [04 R79; 12 R278]. -/
def execBar2Read (vf off n : Nat) (s : State) : Out :=
  .next (if vf == 0 || !s.fnOn vf || 2 ^ 32 < off + n then s
    else
      let va := (s.fn vf).window off
      if s.meetsPeer (fnTen vf) needR va n then s.bar2Peer vf va n .read []
      else match s.uget (fnTen vf) needR apAll va n with
        | (s1, .ok b) =>
          let (s2, d) := s1.bar2Staged vf (s1.places (fnTen vf) needR (n / 65536 + 2) 0 va n) b
          { s2 with hostData := d }
        | (s1, .error f) => { s1.bar2Fault vf f with hostData := List.replicate n 0xFF#8 })

/-- BAR2_WRITE: tenant memory through the host window, or a peer's; a faulting write is dropped [04 R79; 12 R278]. -/
def execBar2Write (vf off : Nat) (d : List (BitVec 8)) (s : State) : Out :=
  .next (if vf == 0 || !s.fnOn vf || 2 ^ 32 < off + d.length then s
    else
      let va := (s.fn vf).window off
      if s.meetsPeer (fnTen vf) needW va d.length then s.bar2Peer vf va d.length .write d
      else
        let (s1, f) := s.vput (fnTen vf) apAll va d
        let s2 := s1.bar2Wrote vf (s1.places (fnTen vf) needW (d.length / 65536 + 2) 0 va d.length) d
        match f with
        | none => s2
        | some f => s2.bar2Fault vf f)

end Sys2Proof.Machine
end

