-- ==== Sys2Proof/Machine/Walker.lean ====
section
/-! DEFINITION. The task graph walkers, their predictors, and the queue of slot commands [05 R105, R121 to R124]. -/

namespace Sys2Proof.Machine

/-- A walker with no walk. -/
def GraphWalk.idle : GraphWalk :=
  { active := false, addr := 0, arrive := [], iters := [], elig := [], tasks := [], failed := none, cmd := 0 }

/-- The walker of a tenant. -/
def State.walk (s : State) (ten : Nat) : GraphWalk := tget s.wk.walks GraphWalk.idle ten

/-- The walker of a tenant changed. -/
def State.onWalk (s : State) (ten : Nat) (f : GraphWalk → GraphWalk) : State :=
  { s with wk := { s.wk with walks := tset s.wk.walks ten (f (s.walk ten)) } }

/-- The walk of a tenant over: the walker is free, and what it had asked of a peer finds nobody. -/
def State.stopWalk (s : State) (ten : Nat) : State :=
  let s1 := s.onWalk ten (fun _ => GraphWalk.idle)
  { s1 with wk := { s1.wk with reads := s1.wk.reads.filter (fun x => x.ten != ten) } }

/-- A command written for a slot: queued, or discarded with OVF while 64 are queued [05 R105]. -/
def State.queueCmd (s : State) (slot cmd origin : Nat) : State :=
  if 64 ≤ s.mg.slq.length then { s with mg := { s.mg with slqOvf := true } }
  else { s with mg := { s.mg with slq := s.mg.slq ++ [(slot, cmd, origin)] } }

/-- The address of a task node [05 R121]. -/
def State.nodeVa (s : State) (ten node : Nat) : Word := (s.walk ten).addr + BitVec.ofNat 64 (64 * node)

/-- The peer that a walker's read reaches, if its leaf is a peer leaf [04 R94; 08 R182]. -/
def State.walkPeer (s : State) (ten : Nat) (va : Word) : Option (BitVec 8 × Word) :=
  match s.translate ten va needR apAll with
  | .ok (.peer dev a) => some (dev, a)
  | _ => none

/-- A read of a walker at a peer begun: for a node, or for the condition word of the node with some bytes [05 R121, R123; 08 R182]. -/
def State.askPeer (s : State) (ten node : Nat) (ent : Option (List Byte)) (src : Option (Nat × Nat)) (va : Word) (n : Nat)
    (p : BitVec 8 × Word) : State :=
  let s1 := { s with wk := { s.wk with reads := s.wk.reads ++ [({ ten := ten, num := s.nextOp, node := node, ent := ent, src := src, data := none, bad := none } : WalkRead)] } }
  s1.startOp (mkOp (.walk ten s.nextOp) (.unit (100 + ten)) ten .read [] [⟨0, va, n, .ready (.peer p.1 p.2) false⟩] apAll)

/-- KIND of a node. -/
def nodeKind (b : List Byte) : Nat := fieldOf b 0 1
/-- NEXIT of a node. -/
def nodeExits (b : List Byte) : Nat := fieldOf b 1 1
/-- A successor of a node. -/
def nodeExit (b : List Byte) (i : Nat) : Nat := fieldOf b (0x20 + 2 * i) 2

/-- Whether a node is well formed; SLOT counts in a TASK alone, SH in a COND or WHILE [05 R121]. -/
def nodeOk (b : List Byte) : Bool :=
  let k := nodeKind b
  let n := nodeExits b
  k ≤ 4 && (if k == 4 then n == 0 else decide (1 ≤ n ∧ n ≤ 8)) && fieldOf b 2 1 != 0 && (k != 0 || fieldOf b 4 2 ≤ 255) &&
    zerosAt b 0x1B 1 && zerosAt b 0x30 16 && (List.range 8).all (fun i => i < n || nodeExit b i == 0xFFFF) &&
    (!(k == 1 || k == 2) || (fieldOf b 6 1 ≤ 63 && fieldOf b 8 8 % 8 == 0))

/-- A walk that has failed completes when none of its tasks runs: the failure code, the node, and the record that holds them, unless a read of
the walker has written its own [05 R122, R123]; a walk that ends with BADGRAPH does the same, with its code and node (log 39). -/
def State.walkCheck (s : State) (ten : Nat) : State :=
  let w := s.walk ten
  match w.failed with
  | none => s
  | some (code, node, told) =>
    if !w.tasks.isEmpty then s
    else
      let s1 := if told then s
        else s.record ten 0xFFFF 0xFFFF 0 0 { FaultInfo.of 9 code with info2 := BitVec.ofNat 64 (node % 65536 * 65536) }
      (s1.stopWalk ten).completeId w.cmd code (BitVec.ofNat 64 node)

/-- A walk fails: it dispatches no further node [05 R121, R122]. -/
def State.walkFail (s : State) (ten code node : Nat) (told : Bool) : State :=
  (s.onWalk ten (fun w => { w with failed := some (w.failed.getD (code, node, told)), elig := [] })).walkCheck ten

/-- A read of a walker that faults ends the walk with its record [05 R123; 04 R101]. -/
def State.walkFault (s : State) (ten node : Nat) (f : FaultInfo) : State :=
  (s.record ten 0xFFFF 0xFFFF 0 0 { f with acc := 4 }).walkFail ten (faultStatus f) node true

/-- The predictor learns which TASK was reached from the exit of a task [05 R124]. -/
def State.learn (s : State) (ten node : Nat) (src : Option (Nat × Nat)) : State :=
  match src with
  | none => s
  | some (n, x) =>
    { s with wk := { s.wk with predict := s.wk.predict.filter (fun p => !(p.ten == ten && p.node % 256 == n % 256)) ++ [⟨ten, n, x, node⟩] } }

/-- A node put among the eligible ones with its condition word. -/
def State.addElig (s : State) (ten : Nat) (e : Elig) : State := s.onWalk ten (fun g => { g with elig := g.elig ++ [e] })

/-- A condition word read for a node, a universal acquire at device scope [05 R123; 09 R209] (log 8). -/
def State.gotWord (s : State) (ten node : Nat) (b : List Byte) (src : Option (Nat × Nat)) (r : Except FaultInfo (List Byte)) : State :=
  match r with
  | .error f => s.walkFault ten node f
  | .ok w => (s.dropStage (fun _ => true)).addElig ten ⟨node, b, BitVec.ofNat 64 (leNum w), src⟩

/-- A node becomes eligible: it is judged as read; a TASK is learnt as reached; the condition word of a COND or WHILE is read, once
[05 R121, R123, R124]. -/
def State.nodeReady (s : State) (ten node : Nat) (b : List Byte) (src : Option (Nat × Nat)) : State :=
  if !nodeOk b then s.walkFail ten csBADGRAPH node false
  else if nodeKind b == 1 || nodeKind b == 2 then
    let va := BitVec.ofNat 64 (fieldOf b 8 8)
    match s.walkPeer ten va with
    | some p => s.askPeer ten node (some b) src va 8 p
    | none => let (s1, r) := s.uget ten needR apLocal va 8; s1.gotWord ten node b src r
  else (if nodeKind b == 0 then s.learn ten node src else s).addElig ten ⟨node, b, 0, src⟩

/-- Whether a node is eligible and has not run, or waits for its condition word [05 R121, R123]. -/
def State.waitsToRun (s : State) (ten node : Nat) : Bool :=
  (s.walk ten).elig.any (fun e => e.node == node) || s.wk.reads.any (fun x => x.ten == ten && x.node == node && x.ent.isSome)

/-- The bytes of a node at which an arrival came: it becomes eligible with the arrivals it needs since it last ran; one that comes while the node is
eligible adds nothing [05 R121]. -/
def State.gotNode (s : State) (ten node : Nat) (src : Option (Nat × Nat)) (r : Except FaultInfo (List Byte)) : State :=
  match r with
  | .error f => s.walkFault ten node f
  | .ok b =>
    if s.waitsToRun ten node then s
    else
      let n := tget (s.walk ten).arrive 0 node + 1
      let s1 := s.onWalk ten (fun g => { g with arrive := tset g.arrive node n })
      if n < fieldOf b 2 1 then s1 else s1.nodeReady ten node b src

/-- Whether a walk goes on: it has not failed. -/
def GraphWalk.goes (w : GraphWalk) : Bool := w.active && w.failed.isNone

/-- An arrival at a node, from the task and exit that led to it: the walker reads the node [05 R121, R124]. -/
def State.arriveNode (s : State) (ten : Nat) (src : Option (Nat × Nat)) (node : Nat) : State :=
  if !(s.walk ten).goes || node == 0xFFFF || s.waitsToRun ten node then s
  else
    let va := s.nodeVa ten node
    match s.walkPeer ten va with
    | some p => s.askPeer ten node none src va 64 p
    | none => let (s1, r) := s.uget ten needR apLocal va 64; s1.gotNode ten node src r

/-- Node 0, eligible at the start: it lacks no arrival [05 R121]. -/
def State.firstNode (s : State) (ten : Nat) : State := (s.onWalk ten (fun g => { g with arrive := [(0, 255)] })).arriveNode ten none 0

/-- The oldest answer of a peer taken by a tenant's walker [05 R121, R123; 08 R182]. -/
def State.walkTake (s : State) (ten : Nat) : State :=
  match s.wk.reads.find? (fun x => x.ten == ten && (x.data.isSome || x.bad.isSome)) with
  | none => s
  | some x =>
    let s1 := { s with wk := { s.wk with reads := s.wk.reads.filter (fun y => !(y.ten == ten && y.num == x.num)) } }
    let r : Except FaultInfo (List Byte) := match x.bad with | some f => .error f | none => .ok (x.data.getD [])
    if !(s.walk ten).goes then s1
    else match x.ent with
      | some b => s1.gotWord ten x.node b x.src r
      | none => s1.gotNode ten x.node x.src r

/-- Exits of a node taken [05 R121]. -/
def State.takeExits (s : State) (ten : Nat) (src : Option (Nat × Nat)) (b : List Byte) (is : List Nat) : State :=
  is.foldl (fun s i => s.arriveNode ten src (nodeExit b i)) s

/-- An eligible node of a kind of a tenant's walk. -/
def State.eligNode (s : State) (ten node kind : Nat) : Option Elig :=
  let w := s.walk ten
  if w.goes then w.elig.find? (fun e => e.node == node && nodeKind e.ent == kind) else none

/-- An eligible node runs: it counts its arrivals from now on [05 R121]. -/
def State.takeNode (s : State) (ten : Nat) (e : Elig) : State :=
  s.onWalk ten (fun g => { g with elig := dropFirst (· == e) g.elig, arrive := tset g.arrive e.node 0 })

/-- Exit `min(x, NEXIT - 1)` of a node. -/
def minExit (b : List Byte) (x : Nat) : Nat := if x < nodeExits b - 1 then x else nodeExits b - 1

/-- COND [05 R121, R123]. -/
def execCondNode (ten node : Nat) (s : State) : Out :=
  .next (match s.eligNode ten node 1 with
    | none => s
    | some e => ((s.takeNode ten e).takeExits ten e.src e.ent [minExit e.ent (e.w.toNat / 2 ^ fieldOf e.ent 6 1 % 8)]).run)

/-- WHILE [05 R121, R123]. -/
def execWhileNode (ten node : Nat) (s : State) : Out :=
  .next (match s.eligNode ten node 2 with
    | none => s
    | some e =>
      let n := tget (s.walk ten).iters 0 node
      let lim := fieldOf e.ent 0x1C 4
      let s1 := s.takeNode ten e
      if e.w.getLsbD (fieldOf e.ent 6 1) && (lim == 0 || n < lim) then
        ((s1.onWalk ten (fun g => { g with iters := tset g.iters node (n + 1) })).takeExits ten e.src e.ent [0]).run
      else ((s1.onWalk ten (fun g => { g with iters := tset g.iters node 0 })).takeExits ten e.src e.ent [1]).run)

/-- FORK [05 R121]. -/
def execForkNode (ten node : Nat) (s : State) : Out :=
  .next (match s.eligNode ten node 3 with
    | none => s
    | some e => ((s.takeNode ten e).takeExits ten e.src e.ent (List.range (nodeExits e.ent))).run)

/-- END: the walk completes when no task of it runs [05 R121]. -/
def execEndNode (ten node : Nat) (s : State) : Out :=
  .next (match s.eligNode ten node 4 with
    | none => s
    | some _ =>
      let w := s.walk ten
      if !w.tasks.isEmpty then s
      else (s.stopWalk ten).completeId w.cmd csOK (BitVec.ofNat 64 node))

/-- Whether a core can be staged: it is not bound, or its image leaves the staging buffer free [05 R124]. -/
def State.mayStage (s : State) (p : Byte) : Bool :=
  match s.slots.find? (fun q => q.2.holds && q.2.asRead.places.contains p) with
  | none => true
  | some q => (match q.2.region with | some r => r.sfree | none => (s.image q.2.asRead.img.toNat).any Image.sfree)

/-- The image that the staging buffer of a core holds [05 R124]. -/
def State.stagedImg (s : State) (p : Byte) : Option W32 :=
  (s.wk.staged.find? (fun y => y.die == p.toNat / 64 && y.pos == p.toNat % 64)).map (fun y => y.img)

/-- The ranges of a core cut to what the staging buffer holds, 2 MiB: range and length staged [05 R124]. -/
def stageCut : Nat → List (Nat × Nat) → List (Nat × Nat × Nat)
  | _, [] => []
  | room, (o, n) :: r =>
    if room = 0 then []
    else if n ≤ room then (o, n, n) :: stageCut (room - n) r
    else [(o, n, room)]

/-- An image staged for a core of it at a place: the buffer is its own from now on, and the reads begin [05 R124; 08 R192]. -/
def State.stageCore (s : State) (i : Image) (h : W32) (c : Nat) (p : Byte) : State :=
  let (die, place) := (p.toNat / 64, p.toNat % 64)
  let s1 := { s with wk := { s.wk with staged := s.wk.staged.filter (fun x => !(x.die == die && x.pos == place)) ++ [({ die := die, pos := place, img := h, pieces := [] } : Staged)] } }
  (stageCut 0x200000 (i.core c).ranges).foldl (fun s q =>
    s.startOp { mkOp (.stage die place h c q.1 q.2.1 0) (.config (4 * die + place % 4)) i.ten .read []
      (rangeParts (i.va + BitVec.ofNat 64 q.1) q.2.2) apLocal with graph := true }) s1

/-- The predicted next task staged into the cores of its slot that can be staged: one whose buffer holds what a load still uses is staged once that
is complete, one that holds the image already is left [05 R124]. -/
def State.stageNext (s : State) (ten node : Nat) (used : Byte → Bool) : State :=
  match s.wk.predict.find? (fun p => p.ten == ten && p.node == node) with
  | none => s
  | some p =>
    match s.uget ten needR apLocal (s.nodeVa ten p.next) 64 with
    | (s1, .error _) => s1
    | (s1, .ok b) =>
      let h := BitVec.ofNat 32 (fieldOf b 0x10 4)
      let x := s1.slot (fieldOf b 4 2)
      match (s1.image h.toNat).bind (fun i => if i.ten == ten then some i else none) with
      | none => s1
      | some i =>
        if !nodeOk b || nodeKind b != 0 || x.ten.toNat != ten then s1
        else ((mapIdxFrom (fun c q => (c, q)) 0 (x.places.take i.ncore)).filter (fun q =>
          s1.mayStage q.2 && !used q.2 && s1.stagedImg q.2 != some h)).foldl (fun s q => s.stageCore i h q.1 q.2) s1

/-- The staged bytes of other handles in a slot's cores discarded [05 R124]. -/
def State.dropStaged (s : State) (x : Slot) (h : W32) : State :=
  { s with wk := { s.wk with staged := s.wk.staged.filter (fun y => !(x.places.any (fun c => c.toNat / 64 == y.die && c.toNat % 64 == y.pos) && y.img != h)) } }

/-- A bind record with what a TASK node writes into it [05 R121]. -/
def Slot.ofTask (x : Slot) (b : List Byte) : Slot :=
  { x with l := BitVec.ofNat 8 (fieldOf b 0x1A 1), prio := BitVec.ofNat 8 (fieldOf b 7 1), phase := BitVec.ofNat 8 (fieldOf b 3 1),
           ctx := BitVec.ofNat 16 (fieldOf b 0x18 2), img := BitVec.ofNat 32 (fieldOf b 0x10 4), entry := BitVec.ofNat 32 (fieldOf b 0x14 4),
           basek := BitVec.ofNat 64 (fieldOf b 8 8) }

/-- Whether a TASK of a phase may be dispatched: no task of the walk with a lower phase runs or is eligible, and no node that may lead to one
is still to be evaluated or read [05 R129] (log 39). -/
def State.phaseOpen (s : State) (ten p : Nat) : Bool :=
  let w := s.walk ten
  p == 0 || (w.tasks.all (fun t => p ≤ fieldOf t.ent 3 1) &&
    w.elig.all (fun e => nodeKind e.ent == 4 || (nodeKind e.ent == 0 && p ≤ fieldOf e.ent 3 1)) && s.wk.reads.all (fun x => x.ten != ten))

/-- TASK: with its slot FREE or IDLE, every task of a lower phase committed, at most 16 tasks at once and room in the queue, the bind
record is written and BIND, RECONF or RESTART queued [05 R121, R122, R129]. -/
def execTaskNode (ten node : Nat) (s : State) : Out :=
  .next (match s.eligNode ten node 0 with
    | none => s
    | some e =>
      let n := fieldOf e.ent 4 2
      let x := s.slot n
      if x.ten.toNat != ten then (s.takeNode ten e).walkFail ten csBADGRAPH node false
      else if 16 ≤ (s.walk ten).tasks.length || !(x.st == 0#8 || x.st == 7#8) || x.task.isSome || x.reset.isSome || 64 ≤ s.mg.slq.length ||
          !s.phaseOpen ten (fieldOf e.ent 3 1) then s
      else
        let y := x.ofTask e.ent
        let cmd := if x.st == 0#8 then 1 else if x.asRead.img == y.img then 6 else 2
        let s1 := (s.takeNode ten e).onWalk ten (fun g => { g with tasks := g.tasks ++ [({ node := node, ent := e.ent, slot := n } : TaskRun)] })
        (((s1.putSlot n { y with task := some (ten, node) }).dropStaged y y.img).queueCmd n cmd 1).stageNext ten node
          (fun p => cmd != 6 && y.places.contains p && s.stagedImg p == some y.img)).run

/-- The load of a task is complete: the staging that it held up goes on [05 R124]. -/
def State.stageTask (s : State) (slot : Nat) : State :=
  match (s.slot slot).task with
  | none => s
  | some (ten, node) => s.stageNext ten node (fun _ => false)

/-- The task of a slot, with what its walker holds of it. -/
def State.taskOf (s : State) (slot : Nat) : Option (Nat × TaskRun) :=
  (s.slot slot).task.bind (fun t => ((s.walk t.1).tasks.find? (fun x => x.node == t.2 && x.slot == slot)).map (fun x => (t.1, x)))

/-- The task of a slot taken from its walker. -/
def State.dropTask (s : State) (slot : Nat) : State :=
  match (s.slot slot).task with
  | none => s
  | some (ten, node) =>
    (s.putSlot slot { s.slot slot with task := none }).onWalk ten (fun g => { g with tasks := g.tasks.filter (fun x => !(x.node == node && x.slot == slot)) })

/-- A task fails with a code [05 R122]. -/
def State.taskFail (s : State) (slot code : Nat) : State :=
  match s.taskOf slot with
  | none => s
  | some (ten, t) => (s.dropTask slot).walkFail ten code t.node false

/-- A task ends with an exit; after a failure of the walk its arrival is discarded [05 R121, R122, R124]. -/
def State.taskExit (s : State) (slot x : Nat) : State :=
  match s.taskOf slot with
  | none => s
  | some (ten, t) =>
    let i := minExit t.ent x
    let s1 := s.dropTask slot
    if (s1.walk ten).failed.isSome then s1.walkCheck ten
    else s1.takeExits ten (some (t.node, i)) t.ent [i]

/-- A launch bound to a slot completes; where an access failed, with the record of that [04 R85, R101; 05 R109]. -/
def State.launchDone (s : State) (slot code : Nat) (f : Option FaultInfo) : State :=
  match (s.slot slot).run with
  | none => s
  | some id =>
    let s1 := s.putSlot slot { s.slot slot with run := none }
    match f, s1.runOf id with
    | some f, some r => s1.completeFault r f
    | _, _ => s1.completeId id code (if code == csOK then BitVec.ofNat 64 slot else 0)

/-- What a slot's failure or end means to those that wait for it: its task and its launch fail with a code [05 R122]. -/
def State.slotFailed (s : State) (slot code : Nat) (f : Option FaultInfo) : State := (s.taskFail slot code).launchDone slot code f

end Sys2Proof.Machine
end

