-- ==== Sys2Proof/Machine/Slots.lean ====
section
/-! DEFINITION. Slot commands: the queue, acceptance, loads, drains, saves and restores, the reset of a region
[03 R70; 05 R104 to R107, R410, R113 to R116, R118 to R120]. -/

namespace Sys2Proof.Machine

/-- Whether a slot is in a transient state: LOADING, DRAIN, FREEZING, RESTORING, or a region reset [03 R70; 05 R106]. -/
def Slot.transient (x : Slot) : Bool := x.st == 1#8 || x.st == 3#8 || x.st == 4#8 || x.st == 6#8 || x.reset.isSome

/-- The dies of a record's CMAP. -/
def Slot.dies (x : Slot) : List Nat := x.places.map (fun p => bitsAt p.toNat 6 2)

/-- Whether two lists share a member. -/
def share (a b : List Nat) : Bool := a.any (fun x => b.contains x)

/-- Whether a load or save of a slot is in progress; a drain is the first part of a load [05 R105]. -/
def Slot.loading (x : Slot) : Bool := x.reset.isNone && (x.st == 1#8 || x.st == 3#8 || x.st == 4#8 || x.st == 6#8)

/-- Whether a load or save is in progress on one of some dies [05 R105]. -/
def State.diesBusy (s : State) (ds : List Nat) : Bool := s.slots.any (fun q => q.2.loading && share q.2.asRead.dies ds)

/-- Whether a command carries a load: BIND, RECONF, RESTORE [05 R105]. -/
def loads (cmd : Nat) : Bool := cmd == 1 || cmd == 2 || cmd == 4

/-- A command put among those before it by the PRIO of its slot [05 R105]. -/
def State.byPrio (s : State) (c : Nat × Nat × Nat) : List (Nat × Nat × Nat) → List (Nat × Nat × Nat)
  | [] => [c]
  | d :: r => if (s.slot d.1).prio < (s.slot c.1).prio then c :: d :: r else d :: s.byPrio c r

/-- The first of some commands that can be accepted: none of an earlier command's slot, none whose slot changes its state, none that
loads while its dies are busy, none whose dies a load that waits, for busy dies or behind another, has blocked [05 R105, R106]. -/
def State.chooseCmd (s : State) (slots blocked : List Nat) : List (Nat × Nat × Nat) → Option (Nat × Nat × Nat)
  | [] => none
  | c :: r =>
    let x := s.slot c.1
    let waits := share x.dies blocked || (loads c.2.1 && s.diesBusy x.dies)
    if slots.contains c.1 || x.transient || waits then
      s.chooseCmd (c.1 :: slots) (if loads c.2.1 && waits then x.dies ++ blocked else blocked) r
    else some c

/-- The command that acceptance takes next. -/
def State.nextCmd (s : State) : Option (Nat × Nat × Nat) := s.chooseCmd [] [] (s.mg.slq.foldl (fun l c => s.byPrio c l) [])

/-- Whether the table of [05 R106] gives a command an effect in a state. -/
def cmdFits (st cmd : Nat) : Bool :=
  match cmd with
  | 1 => st == 0
  | 2 => st == 2 || st == 7
  | 3 => st == 2
  | 4 => st == 5
  | 5 => true
  | _ => st == 7

/-- Whether a record has a nonzero reserved field, or a CMAP byte beyond NCORE that is not 0xFF [05 R104]. -/
def Slot.bad (x : Slot) : Bool :=
  bitsAt x.ctx.toNat 12 4 != 0 || bitsAt x.flg.toNat 1 7 != 0 || x.raw.any (fun p => p.2 != 0#8) ||
    (List.range 64).any (fun i => x.ncore.toNat ≤ i && x.place i != 0xFF#8)

/-- Whether a save area address is none [05 R410]. -/
def badSave (a : Word) : Bool := a == 0 || a.toNat % 65536 != 0

/-- CORECONF of a record [05 R107]. -/
def State.coreConflict (s : State) (n : Nat) (x : Slot) : Bool :=
  x.places.any (fun p => 47 < bitsAt p.toNat 0 6) || !distinct x.places ||
    s.slots.any (fun q => q.1 != n && q.2.holds && q.2.asRead.places.any (fun p => x.places.contains p))

/-- The image that a command is checked against: the resident one for RESTART, else the record's, of the slot's tenant. -/
def State.cmdImage (s : State) (x : Slot) (cmd : Nat) : Option Image :=
  let h := if cmd == 6 then (match x.region with | some r => r.img | none => x.img) else x.img
  (s.image h.toNat).bind (fun i => if i.ten == x.ten.toNat then some i else none)

/-- The checks that need the image, in order [05 R410]; the status of an unknown handle is open (log 20). -/
def State.refusedImage (s : State) (n : Nat) (x : Slot) (cmd : Nat) (i : Image) : Option Nat :=
  let held := match x.saved with | some v => v.region.ncore | none => x.ncore.toNat
  if cmd != 6 && (x.ncore.toNat != i.ncore || (cmd == 4 && x.ncore.toNat != held)) then some csBADCORES
  else if (cmd == 1 || cmd == 4) && s.coreConflict n x then some csCORECONF
  else if cmd != 4 && i.nent ≤ x.entry.toNat then some csBADENTRY
  else if x.l == 0#8 || i.lcap < x.l.toNat then some csBADL
  else if cmd != 6 && s.noBound x i then some csNOBOUND
  else none

/-- The status with which a command is refused, by the first check that fails [05 R410]. -/
def State.refused (s : State) (n cmd : Nat) : Option Nat :=
  let x := s.slot n
  if !cmdFits x.st.toNat cmd then some csBADSTATE
  else if x.bad then some csBADBIND
  else if (cmd == 1 || cmd == 4) && badSave x.savek then some csBADSAVE
  else if cmd == 3 || cmd == 5 then none
  else match s.cmdImage x cmd with
    | none => some s.openStatus.1
    | some i => s.refusedImage n x cmd i

/-- A command of a slot decided, when acceptance takes it: a refusal writes LASTST alone, and fails what a walker or a launch waits
for; else ACCT and LASTST are written and the command acts; during a reset of the slot's tenant it is discarded [05 R104, R105, R122,
R131, R410]. -/
def State.accept (s : State) (n cmd : Nat) (g : State → State) : State :=
  match s.nextCmd with
  | none => s
  | some c =>
    if c.1 != n || c.2.1 != cmd then s
    else
      let s1 := { s with mg := { s.mg with slq := dropFirst (· == c) s.mg.slq } }
      if (s.fn ((s.slot n).ten.toNat + 1)).reset then s1
      else
        match s1.refused n cmd with
        | some code =>
          let s2 := { s1.putSlot n { s1.slot n with lastst := BitVec.ofNat 16 code } with freeCount := s1.freeCount + 1 }
          if c.2.2 == 0 then s2 else s2.slotFailed n code none
        | none => g (s1.putSlot n { s1.slot n with acct := BitVec.ofNat 64 s.time, lastst := 0 })

/-- What the acceptance of a load reads and the bounds that it writes; the drain bound is that of the region that drains, else that of the image to
load under the record's L [05 R104, R114, R115] (log 33). -/
def State.putBounds (s : State) (n : Nat) (drain : Option (Nat × Nat)) : State :=
  let x := s.slot n
  let i := s.cmdImage x 1
  let t := match i with | some i => s.loadBound x i | none => none
  let (l, wcl) := drain.getD (x.l.toNat, (i.map (fun i => i.wcl)).getD 0)
  let d := tdrnOf l wcl (Config.freeValue (s.freeCount + 1))
  ({ s with freeCount := s.freeCount + 2 }).putSlot n { x with
    held := some x.record, tload := tloadOf t (Config.freeValue s.freeCount), tdrn := d }

/-- The load of a slot begins: what the region was is gone, and the configuration reader reads [05 R114, R115]. -/
def State.beginLoad (s : State) (n : Nat) : State :=
  let s1 := s.clearRegion n
  (s1.putSlot n { s1.slot n with st := 1 }).beginReads n

/-- BIND [05 R106]. -/
def execBind (slot : Nat) (s : State) : Out := .next (s.accept slot 1 (fun s => (s.putBounds slot none).beginLoad slot)).run

/-- RECONF: from IDLE the load begins; from RUN the region drains, or with DISCARD its live colours are purged [05 R106, R114]. -/
def execReconf (slot : Nat) (s : State) : Out :=
  .next (s.accept slot 2 (fun s =>
    match (s.slot slot).region with
    | none => (s.putBounds slot none).beginLoad slot
    | some r =>
      if (s.slot slot).st == 7#8 then (s.putBounds slot none).beginLoad slot
      else
        let s1 := s.putBounds slot (some (r.l, r.wcl))
        let s2 := s1.putSlot slot { s1.slot slot with st := 3, region := some { r with draining := true } }
        if (s2.slot slot).flg.getLsbD 0 then s2.purgeAll slot else s2)).run

/-- A thread of a region that freezes: a wait without bound is cancelled and its instruction issues again; an answer that has been
given reaches the thread, and what it waited for by the clk has come [05 R118; 06 R153; 12 R314]. -/
def Thread.frozen (t : Thread) : Thread :=
  match t.st with
  | .block (.retry _ _ _) | .block .cfgw | .block .queue | .block .answer | .block (.till _) | .wfe false => { t with st := .run, next := 0 }
  | _ => { t with next := 0 }

/-- A core whose register and CSR writes already issued have landed, each at its own time [06 R153]. -/
def Core.landed (c : Core) : Core :=
  c.startClk ((List.range 4).flatMap (fun i => (c.thread i).pend.map RegPend.ready ++ (c.thread i).csrPend.map CsrPend.ready) |>.foldl max c.clk)

/-- The control cores of a region stop at an instruction boundary, and what its threads wait for at other units is withdrawn
[05 R118 step 5; 06 R153; 12 R314]. -/
def State.freeze (s : State) (n : Nat) : State :=
  let s1 := s.onRegion n (fun r => { r with
    running := false, exit := none, injq := []
    cores := r.cores.map (fun p => (p.1, { p.2.landed with
      thr := p.2.landed.thr.map (fun q => (q.1, q.2.frozen))
      elems := p.2.elems.map (fun q => (q.1, { q.2 with cfgWait := [] })) })) })
  { s1 with wk := { s1.wk with qwaits := s1.wk.qwaits.filter (fun w => w.slot != n) } }

/-- A slot that freezes, once no request of it is outstanding: its control cores stop, its HOLDs go out, and its save begins
[05 R118 steps 4 to 6]. -/
def State.sendHolds (s : State) (slot : Nat) : State :=
  let x := s.slot slot
  if x.st != 4#8 || x.holdSent || s.busySlot slot then s
  else
    let s1 := s.freeze slot
    (s1.putSlot slot { s1.slot slot with holdSent := true }).holdRanks slot

/-- FREEZE: arbiters and channels stop; it saves to the area that its acceptance reads in the record [05 R104, R105, R118 steps 1 to 3]. -/
def execFreeze (slot : Nat) (s : State) : Out :=
  .next (s.accept slot 3 (fun s =>
    let s1 := s.onRegion slot (fun r => { r with halting := true })
    let x := s1.slot slot
    (s1.putSlot slot { x with st := 4, holdSent := false, held := x.held.map (fun a => { a with savek := x.savek }) }).sendHolds slot)).run

/-- RESTORE [05 R106, R120]. -/
def execRestore (slot : Nat) (s : State) : Out :=
  .next (s.accept slot 4 (fun s =>
    let s1 := s.putBounds slot none
    (s1.putSlot slot { s1.slot slot with st := 6 }).beginReads slot)).run

/-- A region whose reset begins: its arbiters and control cores stop, its tokens are gone; its channels start no further record, and in a tenant
reset end with theirs incomplete [03 R70 steps 1, 2 and 5; 08 R201]. -/
def Region.stopped (r : Region) (tenant : Bool) : Region :=
  let chan (c : Chan) : Chan :=
    let rs := if tenant then [] else c.recs.filter (fun o => o.started)
    { c with recs := rs, reading := false, st := if rs.isEmpty then .idle else .drain }
  { r with
    running := false, exit := none, flight := []
    cores := r.cores.map (fun p => (p.1, { p.2 with
      thr := p.2.thr.map (fun q => (q.1, { q.2 with st := .halt })), chans := p.2.chans.map (fun q => (q.1, chan q.2)) })) }

/-- The end of a region reset: what is left of its requests is given up, its memories are zero, its collectives end, the record is free, and what
waits for the slot fails with ABORTED [03 R70 steps 4 to 7; 05 R122]. -/
def State.resetDone (s : State) (n : Nat) : State :=
  let s1 := ((s.giveUp (fun o => o.who.slot == some n)).clearRegion n).abortRanks n
  (s1.putSlot n { s1.slot n with st := 0, held := none, reset := none, holdSent := false }).slotFailed n csABORTED none

/-- The requests of a region reset that are outstanding after 1 ms, treated as timed out; a record that waits for one ends with TIMEOUT, and its CTL
is still written [03 R70 steps 2 and 3]. -/
def State.resetExpire (s : State) (n : Nat) : State :=
  let late (o : Op) : Bool := o.who.slot == some n && (match o.who with | .copyCtl _ _ _ => false | _ => true)
  let recs := s.ms.ops.filterMap (fun o => match o.who with
    | .copySrc sl c ch num _ | .copyDst sl c ch num => if sl == n then some (c, ch, num, o.addr) else none
    | _ => none)
  recs.foldl (fun s p => (s.failRec n p.1 p.2.1 p.2.2.1 { (FaultInfo.of fcTIMEOUT 0) with va := p.2.2.2, acc := 0, mem := true }).flyRec n p.1 p.2.1 p.2.2.1
    (fun o => { o with flying := 0, ready := [] })) (s.giveUp late)

/-- A region reset that goes on: it ends when nothing of the slot is outstanding, and at 2 ms; at 1 ms what is outstanding is treated as timed out
[03 R70]. -/
def State.resetGo (s : State) (n : Nat) : State :=
  match (s.slot n).reset with
  | none => s
  | some k =>
    if !s.busySlot n || k.began + 2000000 ≤ s.time then s.resetDone n
    else if k.began + 1000000 ≤ s.time then (let s1 := (s.resetExpire n).run; if s1.busySlot n then s1 else s1.resetDone n)
    else s

/-- A region reset that begins: what has been issued is let finish, of the copies what has started [03 R70; 08 R201]; one in progress goes on,
but one that a tenant reset supersedes starts again as a part of that [03 R63, R69]. -/
def State.regionReset (s : State) (n : Nat) (tenant : Bool) : State :=
  if (s.slot n).reset.any (fun k => k.tenant || !tenant) then s.resetGo n
  else
    let s1 := (s.cutSlot n (fun o => !tenant && o.who.ofRecord)).dropUnits n
    let x := s1.slot n
    (s1.putSlot n { x with region := x.region.map (fun r => r.stopped tenant), saved := none, load := none, reset := some ⟨s.time, tenant⟩ }).run.resetGo n

/-- RELEASE [05 R106]. -/
def execRelease (slot : Nat) (s : State) : Out :=
  .next (s.accept slot 5 (fun s => if (s.slot slot).st == 0#8 then s else s.regionReset slot false)).run

/-- What a RESTART reads of its slot's record; the cores stay those of the load [05 R105, R106, R108]. -/
def Slot.reread (x : Slot) : Slot :=
  { x with held := x.held.map (fun a => { a with l := x.l, ctx := x.ctx, entry := x.entry, basek := x.basek }) }

/-- RESTART [05 R106, R108, R121]. -/
def execRestart (slot : Nat) (s : State) : Out :=
  .next (s.accept slot 6 (fun s =>
    match s.region slot with
    | none => s
    | some r => (s.putSlot slot (s.slot slot).reread).startRegion slot r)).run

/-- The address and length of a core's share of a save area as saved: 22 MiB apart, 22,912,000 bytes at most [05 R104, R118]. -/
def saveShare (base : Word) (core : Nat) : Word := base + BitVec.ofNat 64 (0x1600000 * core)
/-- Its length. -/
def saveLen : Nat := 22912000

/-- The cores' shares of a save area written, from a draw on; what each byte of them holds has no layout (log 12). -/
def State.saveCores (s : State) (ten : Nat) (base : Word) : List Nat → State × Option FaultInfo
  | [] => (s, none)
  | c :: r =>
    match ({ s with freeCount := s.freeCount + 1 }).vput ten apLocal (saveShare base c) (freeBytes s.freeCount saveLen) with
    | (s1, none) => s1.saveCores ten base r
    | (s1, some f) => (s1, some f)

/-- The cores' shares of a save area read back: the cores whose bytes are not those that the save wrote from its draw on, or the first fault
[05 R120]. -/
def State.saveRead (s : State) (ten : Nat) (base : Word) (draw : Nat) : List Nat → Except FaultInfo (List Nat)
  | [] => .ok []
  | c :: r =>
    match s.vget ten needR apLocal (saveShare base c) saveLen, s.saveRead ten base (draw + 1) r with
    | .error f, _ => .error f
    | .ok _, .error f => .error f
    | .ok b, .ok cs => .ok (if b == freeBytes draw saveLen then cs else c :: cs)

/-- A list with each member changed by a value of its own. -/
def openEach (f : Word → α → α) (draw : Nat) (l : List α) : List α := mapIdxFrom (fun i a => f (Config.freeValue (draw + i)) a) 0 l

/-- A token with an open payload. -/
def Token.scrambled (draw : Nat) (t : Token) : Token :=
  { t with pay := match t.pay with
    | .none => .none
    | .word _ => .word (Config.freeValue draw)
    | .bytes b => .bytes (fit b.length (Config.freeBytes draw b.length)) }

/-- An element whose saved bytes have changed: constants, configuration words, flags, generators, scratch registers, operand memory,
accumulators, held tokens, expectations and counters are open (log 12). -/
def Elem.scrambled (e : Elem) (draw : Nat) : Elem :=
  let w (i : Nat) : Word := Config.freeValue (draw + i)
  { e with
    ecw := openEach (fun v p => (p.1, v.setWidth 32)) draw e.ecw
    k := (List.range 16).map (fun i => (i, (w (16 + i)).setWidth 32))
    estat := (w 32).setWidth 32, gen := (w 33).setWidth 32
    pendK := openEach (fun v p => { p with v := v.setWidth 32 }) (draw + 40) e.pendK
    phases := openEach (fun v p => (p.1, v.setWidth 4)) (draw + 64) e.phases
    pool := mapIdxFrom (fun i y => { y with tok := y.tok.scrambled (draw + 128 + i) }) 0 e.pool
    barv := mapIdxFrom (fun i y => { y with tok := y.tok.scrambled (draw + 2304 + i) }) 0 e.barv
    merges := openEach (fun v m => { m with colour := v.setWidth 8 }) (draw + 4608) e.merges
    loops := openEach (fun v a => { a with v := v }) (draw + 6656) e.loops
    smx := openEach (fun v p => (p.1, { p.2 with m := v.setWidth 32, sg := (v >>> 32).setWidth 32 })) (draw + 8704) e.smx
    se := openEach (fun v p => (p.1, v.setWidth 32)) (draw + 9000) e.se
    ae := { e.ae with pos := (w 34).toNat % (if e.ae.lay.count == 0 then 1 else e.ae.lay.count), sbc := (w 35).setWidth 16
                      lay := ⟨w 36, w 37, w 38, w 39, e.ae.lay.lw4⟩ }
    xe := { e.xe with sends := openEach (fun v y => { y with pseq := v.setWidth 16 }) (draw + 14000) e.xe.sends }
    me := { e.me with
      slots := mapIdxFrom (fun i p => (p.1, { p.2 with bytes := mwrite [] 0 (fit 2048 (Config.freeBytes (draw + i) 2048)) })) 0 e.me.slots
      acc := e.me.acc.map (fun a => (a.1, { a.2 with w := openEach (fun v p => (p.1, v.setWidth 32)) (draw + 16384 + 64 * a.1) a.2.w })) } }

/-- A thread whose saved bytes have changed: its registers, pc and CSRs are open (log 12). -/
def Thread.scrambled (t : Thread) (draw : Nat) : Thread :=
  let w (i : Nat) : Word := Config.freeValue (draw + i)
  { t with
    regs := (List.range 31).map (fun i => (i + 1, w i)), pc := w 31, ie := (w 32).getLsbD 0, inh := (w 32).getLsbD 1, tvec := w 33, epc := w 34
    cause := (w 35).setWidth 8, tval := w 36, scratch := w 37, lcnt := w 38, lbeg := w 39, lend := w 40 }

/-- A core restored from bytes that are not those saved: which value a changed byte changes has no layout, so every value of what the save area
holds is open, in the places and numbers that the core has (log 12). -/
def Core.scrambled (c : Core) (draw : Nat) : Core :=
  let rec_ (v : Word) (o : OwnedRec) : OwnedRec := { o with xr := { o.xr with src := v, dst := v.rotateLeft 17 } }
  { c with
    bufW := mwrite [] 0 (freeBytes draw 0x600000), bufA := mwrite [] 0 (freeBytes (draw + 1) 0x300000), bufC := mwrite [] 0 (freeBytes (draw + 2) 0x180000)
    thr := c.thr.map (fun q => (q.1, q.2.scrambled (draw + 64 * q.1))), ccfg := (Config.freeValue (draw + 300)).setWidth 2
    evpend := (Config.freeValue (draw + 301)).setWidth 4, bars := openEach (fun v p => (p.1, { p.2 with arr := v.setWidth 20 })) (draw + 302) c.bars
    chans := c.chans.map (fun q => (q.1, { q.2 with recs := openEach rec_ (draw + 512 + 512 * q.1) q.2.recs }))
    elems := c.elems.map (fun q => (q.1, q.2.scrambled (draw + 20000 + 30000 * q.1))) }

/-- A saved region with what a fresh load of its image gives: records, shapes, code, places, time-division slots; its own state goes on, that of a core whose
saved bytes have changed is open [05 R118, R120]. -/
def Region.restored (old fresh : Region) (changed : List Nat) (draw now : Nat) : Region :=
  let r : Region := { old with
    l := fresh.l, savek := fresh.savek, running := true, halting := false, idleAt := 0, kHeld := none, started := now, now := 0, injq := [],
    cores := old.cores.map (fun p => let f := fresh.core p.1; let c := if changed.contains p.1 then p.2.scrambled draw else p.2
      (p.1, { c with
        clk := 0
        die := f.die, pos := f.pos, code := f.code, codeLen := f.codeLen
        elems := c.elems.map (fun q => (q.1, { q.2 with recs := (f.elem q.1).recs, shapes := (f.elem q.1).shapes })) })) }
  { r with tdm := if r.det then r.writers else [] }

/-- The QPOPs of a region that waited when it froze, back in the queue unit [05 R118, R126]. -/
def State.requeuePops (s : State) (n : Nat) (r : Region) : State :=
  let ws : List QWait := r.xops.filterMap (fun x => match x.2.2.kind with
    | .qpop => some ⟨false, n, x.1, x.2.1, x.2.2.num, x.2.2.addr, []⟩
    | _ => none)
  ({ s with wk := { s.wk with qwaits := s.wk.qwaits ++ ws } }).queueRun

/-- What waited for the fabric while a region was frozen goes on: launches, receives, completions [02 R61, R62; 15 R387, R389]. -/
def State.wakeRanks (s : State) (n : Nat) : State :=
  let s1 := s.resumeRanks n
  let s2 := s1.fb.colls.foldl (fun s k => (s.startNext k.ten k.num (k.waiting.length + 1)).serveCrecvs k.ten k.num 64) s1
  (s2.fb.recvs.filter (fun v => v.xe.any (fun x => x.1 == n))).foldl (fun s v => s.serveRecvs v.ten.toNat v.red 64) s2

/-- What a load or restore of a slot gives, or why it fails [05 R106, R113, R120]. -/
def State.loaded (s : State) (n : Nat) : Except LoadErr Region :=
  let x := (s.slot n).asRead
  match s.loadRegion x with
  | .error e => .error e
  | .ok r =>
    match x.st == 6#8, x.saved with
    | true, some v =>
      match s.saveRead (x.ten.toNat % 16) x.savek v.draw (List.range r.ncore) with
      | .error f => .error (.access f)
      | .ok cs => .ok (v.region.restored r cs s.freeCount s.time)
    | _, _ => .ok r

/-- The staged bytes of a slot's cores that its load has used, and those of other images where the new one takes the staging buffer's place
[05 R124; 06 R144]. -/
def State.useStaged (s : State) (x : Slot) (sfree : Bool) : State :=
  { s with wk := { s.wk with staged := s.wk.staged.filter (fun y =>
    !((y.img == x.img || !sfree) && x.places.any (fun c => c.toNat / 64 == y.die && c.toNat % 64 == y.pos))) } }

/-- Whether a load in progress has read all it needs [05 R115]. -/
def State.readsDone (s : State) (n : Nat) : Bool := !s.ms.ops.any (fun o => match o.who with | .load sl _ _ _ _ => sl == n | _ => false)

/-- LOAD_COMPLETE: the slot enters RUN, started by [05 R108], or where it was frozen [05 R106, R108, R115, R120]. -/
def execLoadComplete (slot : Nat) (s : State) : Out :=
  let x := s.slot slot
  .next (if !(x.st == 1#8 || x.st == 6#8) || x.reset.isSome || !s.readsDone slot then s
    else match s.loaded slot with
      | .error _ => s
      | .ok r =>
        let s1 := (s.useStaged x.asRead r.sfree).putSlot slot { x with load := none }
        if x.st == 1#8 then ((s1.startRegion slot r).launchDone slot csOK none).stageTask slot
        else (({ s1 with freeCount := s1.freeCount + 2097152 }.putSlot slot { x with st := 2, region := some r, saved := none, load := none, holdSent := false }).requeuePops slot r).wakeRanks slot).run

/-- The error of a load or save of a slot in progress: that of a load, at once where a read failed, else when all is read; or that of the writes of
a save area, once nothing is outstanding; the state keeps what was written before it [05 R106; 08 R193]. -/
def State.slotError (s : State) (n : Nat) : Option (State × LoadErr) :=
  let x := s.slot n
  if x.reset.isSome then none
  else if x.st == 1#8 || x.st == 6#8 then
    (match x.load.bind (fun l => l.err) with
      | some f => some (s, .access f)
      | none => if !s.readsDone n then none else match s.loaded n with | .error e => some (s, e) | .ok _ => none)
  else if x.st == 4#8 && !s.busySlot n then
    match x.region with
    | none => none
    | some r => (match (s.sendHolds n).saveCores r.ten x.asRead.savek (List.range r.ncore) with | (s1, some f) => some (s1, .access f) | (_, none) => none)
  else none

/-- The fault record of a slot's failed load or save: a save's writes, a restore's reads, an image's reads. -/
def slotErrorInfo (st : Nat) (e : LoadErr) : FaultInfo :=
  match e with
  | .access f => if f.acc == 3 || st == 1 then { f with acc := 3 } else f
  | .check _ => e.info

/-- LOAD_FAULT: an accepted load or save fails; the slot enters FAULT with a record and the code in LASTST [05 R106, R122]. -/
def execLoadFault (slot : Nat) (s : State) : Out :=
  .next (match s.slotError slot with
    | none => s
    | some (s1, e) =>
      let s2 := s1.cutSlot slot (fun _ => false)
      let x := s2.slot slot
      let f := slotErrorInfo x.st.toNat e
      ((s2.putSlot slot { x with st := 8, load := none, lastst := BitVec.ofNat 16 e.code }).record (x.asRead.ten.toNat % 16) slot 0xFFFF 0 0
        f).slotFailed slot e.code (match e with | .access _ => some f | .check _ => none)).run

/-- Whether no token of a region is outstanding: every live colour sums to 0, and no thread is inside a memory access
[05 R114]. -/
def Region.drained (r : Region) : Bool :=
  r.liveColours.all (fun c => r.sum c == 0) &&
    r.cores.all (fun p => p.2.thr.all (fun q => match q.2.st with | .block (.op _) => false | _ => true))

/-- DRAIN_COMPLETE [05 R106, R114]. -/
def execDrainComplete (slot : Nat) (s : State) : Out :=
  .next (match (s.slot slot).region with
    | none => s
    | some r => if (s.slot slot).st == 3#8 && (s.slot slot).reset.isNone && r.drained then s.beginLoad slot else s).run

/-- DRAIN_TIMEOUT: t_drain has passed with a colour still live [05 R114]. -/
def execDrainTimeout (slot : Nat) (s : State) : Out :=
  .next (match (s.slot slot).region with
    | none => s
    | some r =>
      let x := s.slot slot
      if x.st != 3#8 || x.reset.isSome || r.wcl == 0 || s.time < x.acct.toNat + r.l * r.wcl + 2000 || r.liveColours.all (fun c => r.sum c == 0) then s
      else (s.purgeAll slot).record r.ten slot 0xFFFF 0 0 (FaultInfo.of 9 1)).run

/-- SAVE_COMPLETE: the HOLDs are out, the region's state lies in the save area, and its cores are free [05 R106, R107, R118]. -/
def execSaveComplete (slot : Nat) (s : State) : Out :=
  .next (match (s.slot slot).region with
    | none => s
    | some r =>
      if (s.slot slot).st != 4#8 || (s.slot slot).reset.isSome || s.busySlot slot then s
      else
        let s0 := s.sendHolds slot
        match s0.saveCores r.ten (s0.slot slot).asRead.savek (List.range r.ncore) with
        | (_, some _) => s
        | (s1, none) =>
          let s2 := s1.dropUnits slot
          s2.putSlot slot { s2.slot slot with st := 5, region := none, saved := (s0.region slot).map (fun q => ⟨q, s0.freeCount⟩) }).run

/-- Whether a task can end: no live colour, every copy channel in IDLE or ERR, no other thread inside a memory access
[12 R310]. -/
def Region.mayExit (r : Region) (core thr : Nat) : Bool :=
  r.live == 0 && r.cores.all (fun p => p.2.chans.all (fun q => q.2.st == .idle || q.2.st == .err)) &&
    r.cores.all (fun p => p.2.thr.all (fun q => (p.1 == core && q.1 == thr) || (match q.2.st with | .block (.op _) => false | _ => true)))

/-- The region of a slot stopped by EXIT: its threads halt, their waits are cancelled, its effects are visible, the slot is IDLE
[12 R310]. -/
def State.stopTask (s : State) (slot core : Nat) : State :=
  let s1 := ((s.freeze slot).dropPath slot core 7 3).onRegion slot (fun r => { r with
    cores := r.cores.map (fun p => (p.1, { p.2 with thr := p.2.thr.map (fun q => (q.1, { q.2 with st := .halt })) })) })
  s1.putSlot slot { s1.slot slot with st := 7 }

/-- TSIG EXIT: injection stalls, the thread waits until the region has nothing outstanding, the region stops, and its task ends with
the exit; a second EXIT during the first has no effect [05 R121; 12 R310]. -/
def execTsigExit (_h : CcHd) (x : BitVec 3) (s : State) : Out :=
  .next (match s.ccOf with
    | none => s
    | some k =>
      let mine := k.r.exit.all (fun (e : Nat × Nat × BitVec 3) => e.1 == k.core && e.2.1 == k.thr)
      if !mine then k.put s k.t.advance
      else if (s.slot k.slot).st == 2#8 && k.r.mayExit k.core k.thr then ((k.put s k.t.advance).stopTask k.slot k.core).taskExit k.slot x.toNat
      else k.wait (s.onRegion k.slot (fun r => { r with exit := some (k.core, k.thr, x) })) (k.opnd 0 0 0)).run

end Sys2Proof.Machine
end

