-- ==== Sys2Proof/Machine/Commands.lean ====
section
/-! DEFINITION. The host commands [02 R58; 03 R73, R74; 04 R85, R86, R89, R98; 05 R109 to R113, R118, R121]. -/

namespace Sys2Proof.Machine

/-- An operand of a command. -/
def Run.arg (r : Run) (o n : Nat) : Nat := fieldOf r.ent o n

/-- The tenant of a command. -/
def Run.ten (r : Run) : Nat := fnTen r.fn

/-- A running command of an opcode, not yet taken up: its effect [04 R83, R85]. -/
def State.command (s : State) (id opc : Nat) (g : Run → State) : Out :=
  .next (match s.runOf id with
    | none => s
    | some r => if r.arg 2 1 == opc && r.stage == 0 then (g r).run else s)

/-- A running command that waits for what it has started. -/
def State.stageRun (s : State) (id n : Nat) : State :=
  { s with hs := { s.hs with runs := s.hs.runs.map (fun r => if r.id == id then { r with stage := n } else r) } }

/-- NOP [04 R85]. -/
def execNop (run : Nat) (s : State) : Out := s.command run 0 (fun r => s.complete r csOK 0)

/-- A measurement register [03 R73]. -/
def State.measOf (s : State) (i : Nat) : List Byte := fit 64 (tget s.mg.meas [] i)
/-- The image log of a tenant [03 R73]. -/
def State.ilogOf (s : State) (ten : Nat) : List Byte := fit 64 (tget s.mg.ilog [] ten)

/-- A measurement register extended [03 R73]. -/
def State.extend (s : State) (i : Nat) (d : List Byte) : State :=
  { s with mg := { s.mg with meas := tset s.mg.meas i (digestOf (s.measOf i ++ d)) } }

/-- An image log extended [03 R73]. -/
def State.extendLog (s : State) (ten : Nat) (d : List Byte) : State :=
  { s with mg := { s.mg with ilog := tset s.mg.ilog ten (digestOf (s.ilogOf ten ++ d)) } }

/-- An element's entry of the load report [05 R111]. -/
def ElemDesc.report (d : ElemDesc) : List Byte := leOf 2 d.rnrec ++ leOf 2 d.rnpool ++ leOf 1 d.rnslot ++ [0#8] ++ leOf 2 d.rnser

/-- The load report of an image [05 R111]. -/
def Image.report (i : Image) : List Byte :=
  (List.range i.ncore).flatMap (fun c => (List.range 64).flatMap (fun e => ((i.core c).desc e).report))

/-- The handle of the next image: 32 bits that the spec leaves open, of no registered image [04 R85; 05 R113] (log 21). -/
def State.newHandle (s : State) : Nat :=
  let w := (Config.freeValue s.freeCount).toNat
  (((List.range (s.hs.images.length + 1)).map (fun i => (w + i) % 2 ^ 32)).find? (fun h => s.hs.images.all (fun p => p.1 != h))).getD (w % 2 ^ 32)

/-- An image accepted: its handle, its log, its completion [03 R73; 05 R111, R113]. -/
def State.imgAccept (s : State) (r : Run) (i : Image) : State :=
  let h := s.newHandle
  let s1 := ({ s with hs := { s.hs with images := s.hs.images ++ [(h, i)] }, freeCount := s.freeCount + 1 }).extendLog i.ten i.digest
  s1.complete r csOK (BitVec.ofNat 64 (h + i.lcap % 2 ^ 8 * 2 ^ 32 + i.gran % 2 ^ 24 * 2 ^ 40))

/-- An access of a command to a range that meets a peer leaf: an operation of its own, and the command waits for its end [04 R85, R94]. -/
def State.cmdPeer (s : State) (r : Run) (kind : OpKind) (graph : Bool) (va : Word) (n : Nat) (d : List Byte) : State :=
  ((s.startOp { mkOp (.cmd r.id) (.unit r.fn) r.ten kind d (rangeParts va n) apAll with graph := graph }).stageRun r.id 1).run

/-- Bytes that a command needs, and what it does with them: at a tenant address, or at a host bus address for PF0; what a peer sent it has, as far
as that goes [04 R85, R94, R95]. -/
def State.operand (s : State) (r : Run) (need : Need) (a n : Nat) (g : State → List Byte → State) : State :=
  let va := BitVec.ofNat 64 a
  if r.fn == 0 then g s (mread s.ms.host a n)
  else match r.bad, r.input with
    | some f, _ => s.completeFault r (if need.g then { f with acc := 3 } else f)
    | none, some b => if n ≤ b.length then g s (b.take n) else s.cmdPeer r .read need.g va n []
    | none, none =>
      if s.meetsPeer r.ten need va n then s.cmdPeer r .read need.g va n []
      else match s.uget r.ten need apAll va n with
        | (s1, .error f) => s1.completeFault r (if need.g then { f with acc := 3 } else f)
        | (s1, .ok b) => g s1 b

/-- A command with what it has read kept while it waits. -/
def State.keepInput (s : State) (id : Nat) (b : List Byte) : State :=
  { s with hs := { s.hs with runs := s.hs.runs.map (fun r => if r.id == id then { r with input := some b } else r) } }

/-- Bytes that a command writes, and what it does then; `kept` is what it has read [04 R85, R94, R95]. -/
def State.result (s : State) (r : Run) (a : Nat) (b kept : List Byte) (g : State → State) : State :=
  let va := BitVec.ofNat 64 a
  if r.fn == 0 then g (s.hostWrite a b)
  else if r.wrote then g s
  else if r.bad.isSome then s.completeFault r (r.bad.getD (FaultInfo.of 9 0))
  else if s.meetsPeer r.ten needW va b.length then (s.keepInput r.id kept).cmdPeer r .write false va b.length b
  else match s.nput r.ten apAll va b with
    | (s1, none) => g s1
    | (s1, some f) => s1.completeFault r f

/-- IMGREG: the checks in their order, the load report, the handle [05 R111, R113]. -/
def execImgreg (run : Nat) (s : State) : Out :=
  s.command run 1 (fun r =>
    let va := r.arg 8 8
    let reg := r.arg 16 8
    if reg < 256 then s.complete r csBADHDR 0
    else s.operand r needG va 256 (fun s h =>
      if !headerOk h reg then s.complete r csBADHDR 0
      else s.operand r needG va (fieldOf h 0x1C 4) (fun s b =>
        if !tablesOk b then s.complete r csBADHDR 0
        else match (Image.ofBytes r.ten (BitVec.ofNat 64 va) b).check b with
          | .error code => s.complete r code 0
          | .ok i =>
            let rpt := fieldOf b 0x10 8
            if rpt == 0 then s.imgAccept r i else s.result r rpt i.report b (fun s => s.imgAccept r i))))

/-- Whether a bind record, or what a slot holds, uses an image handle [04 R85; 05 R118]. -/
def Slot.uses (x : Slot) (h : Nat) : Bool :=
  ((x.st != 0#8 || x.run.isSome || x.task.isSome) && (x.img.toNat == h || x.asRead.img.toNat == h)) || (match x.region with | some r => r.img.toNat == h | none => false) ||
    (match x.saved with | some v => v.region.img.toNat == h | none => false)

/-- IMGDROP [04 R85; 05 R118]; the status of an unknown handle is open (log 20). -/
def execImgdrop (run : Nat) (s : State) : Out :=
  s.command run 2 (fun r =>
    let h := r.arg 8 4
    match (s.image h).bind (fun i => if i.ten == r.ten then some i else none) with
    | none => let (c, s1) := s.openStatus; s1.complete r c 0
    | some _ => if s.slots.any (fun q => q.2.uses h) then s.complete r csBADSTATE 0
      else ({ s with
        hs := { s.hs with images := s.hs.images.filter (fun p => p.1 != h) }
        wk := { s.wk with staged := s.wk.staged.filter (fun y => y.img.toNat != h) } }).complete r csOK 0)

/-- Whether a place is taken: bound, or in the record of a launch that waits. -/
def State.taken (s : State) (p : Byte) : Bool := s.bound p || s.slots.any (fun q => q.2.run.isSome && q.2.places.contains p)

/-- The free places, lowest first: Dealer's choice (log 21). -/
def State.freePlaces (s : State) : List Byte :=
  ((List.range 4).flatMap (fun d => (List.range 48).map (fun c => BitVec.ofNat 8 (64 * d + c)))).filter (fun p => !s.taken p)

/-- The lowest free slot that nothing waits for: Dealer's choice (log 21). -/
def State.freeSlot (s : State) : Option Nat :=
  (List.range 256).find? (fun n => (s.slot n).st == 0#8 && (s.slot n).run.isNone && (s.slot n).task.isNone && !s.mg.slq.any (fun c => c.1 == n))

/-- The bind record that Dealer writes for a launch [04 R85; 05 R104]. -/
def Run.bindRecord (r : Run) (x : Slot) (cores : List Byte) : Slot :=
  { x with ten := BitVec.ofNat 8 r.ten, ncore := BitVec.ofNat 8 (r.arg 0x1C 1), l := BitVec.ofNat 8 (r.arg 0x1D 1), prio := BitVec.ofNat 8 (r.arg 0x18 1)
           phase := BitVec.ofNat 8 (r.arg 0x19 1), ctx := BitVec.ofNat 16 (r.arg 0x1A 2), img := BitVec.ofNat 32 (r.arg 8 4)
           entry := BitVec.ofNat 32 (r.arg 12 4), basek := BitVec.ofNat 64 (r.arg 16 8), savek := BitVec.ofNat 64 (r.arg 32 8), flg := 0, raw := []
           cmap := (List.range 64).map (fun i => (i, cores.getD i 0xFF#8)), run := some r.id }

/-- LAUNCH: Dealer chooses a slot and cores, writes the record and queues BIND; the command completes when the region runs or the
command is refused [04 R85; 05 R109, R410]. -/
def execLaunch (run : Nat) (s : State) : Out :=
  s.command run 3 (fun r =>
    if badSave (BitVec.ofNat 64 (r.arg 32 8)) then s.complete r csBADSAVE 0
    else match (s.image (r.arg 8 4)).bind (fun i => if i.ten == r.ten then some i else none) with
      | none => let (c, s1) := s.openStatus; s1.complete r c 0
      | some i =>
        let n := r.arg 0x1C 1
        if n != i.ncore then s.complete r csBADCORES 0
        else if 64 ≤ s.mg.slq.length then s
        else match s.freeSlot with
          | none => s.complete r csNOSLOT 0
          | some slot =>
            let cores := s.freePlaces.take n
            if cores.length < n then s.complete r csNOSLOT 0
            else ((s.putSlot slot (r.bindRecord (s.slot slot) cores)).stageRun r.id 1).queueCmd slot 1 2)

/-- WALK: the tenant's walker starts on a graph, when it has no walk; node 0 is eligible [04 R85; 05 R121]. -/
def execWalk (run : Nat) (s : State) : Out :=
  s.command run 4 (fun r =>
    if (s.walk r.ten).active then s
    else
      let s1 := (s.onWalk r.ten (fun _ => { GraphWalk.idle with active := true, addr := BitVec.ofNat 64 (r.arg 8 8), cmd := r.id })).stageRun r.id 1
      (s1.firstNode r.ten).run)

/-- COPY: bytes copied by the DMA engine of h [04 R85]. -/
def execCopy (run : Nat) (s : State) : Out :=
  s.command run 5 (fun r =>
    let n := r.arg 0x18 4
    if n == 0 then s.complete r csBADCMD 0
    else s.operand r needR (r.arg 8 8) n (fun s b => s.result r (r.arg 16 8) b b (fun s => s.complete r csOK 0)))

/-- A translation unit without the entries of a tenant that overlap a range, and without its walk cache; its walks start again
[04 R98]. -/
def Xunit.invalidate (x : Xunit) (ten lo n root : Nat) : Xunit :=
  { x with
    tlb := x.tlb.filter (fun t => !(t.ten == ten && (n == 0 || (t.base * 2 ^ t.bits < lo + n && lo < (t.base + 1) * 2 ^ t.bits))))
    cache := x.cache.filter (fun c => c.ten != ten)
    walks := x.walks.map (fun w => if w.ten == ten then { w with level := 0, table := root } else w) }

/-- A translation unit of a tenant whose translation is disabled: nothing of the tenant stays. -/
def Xunit.dropTenant (x : Xunit) (ten : Nat) : Xunit :=
  { tlb := x.tlb.filter (fun t => t.ten != ten), cache := x.cache.filter (fun c => c.ten != ten), walks := x.walks.filter (fun w => w.ten != ten)
    misses := x.misses.filter (fun m => m.ten != ten) }

/-- Queued misses of every unit walked while walkers are free [04 R97]. -/
def State.walkMoreAll (s : State) : State := (s.ms.units.map (fun p => p.1)).foldl (fun s u => s.walkMore u 320) s

/-- The translations of a tenant removed from every unit, and its walks started again; with translation disabled they fault XLATE, and queued misses
of other tenants take their walkers [04 R91, R97, R98]. -/
def State.invalidate (s : State) (ten lo n : Nat) : State :=
  match s.rootTable ten with
  | some root => s.withMs (fun m => { m with units := m.units.map (fun p => (p.1, p.2.invalidate ten lo n root)) })
  | none => State.walkMoreAll (s.withMs (fun m => { m with
      units := m.units.map (fun p => (p.1, p.2.dropTenant ten))
      ops := m.ops.map (fun o => if o.ten == ten then { o with parts := o.parts.map (fun p =>
        if p.st == .walking then { p with st := .bad (xlFault fcXLATE p.va o.need.acc 0) } else p) } else o) }))

/-- Whether an access that began before a number has a translation in use [04 R98]. -/
def State.usesOld (s : State) (ten lim : Nat) : Bool :=
  s.ms.ops.any (fun o => o.ten == ten && o.id < lim && o.parts.any (fun p => match p.st with | .ready _ _ | .sent _ _ => true | _ => false))

/-- INVTLB: the entries go at once; the command completes when no earlier access is left that may have used one [04 R98]. -/
def execInvtlb (run : Nat) (s : State) : Out :=
  .next (match s.runOf run with
    | none => s
    | some r =>
      if r.arg 2 1 != 6 then s
      else if r.stage == 0 then ((s.invalidate r.ten (r.arg 8 8) (r.arg 16 8)).stageRun run (s.nextOp + 1)).run
      else if s.usesOld r.ten (r.stage - 1) then s
      else s.complete r csOK 0)

/-- RESREP [04 R85, R89]. -/
def execResrep (run : Nat) (s : State) : Out :=
  s.command run 7 (fun r => s.result r (r.arg 8 8) (s.report (if r.fn == 0 then none else some r.ten)) [] (fun s => s.complete r csOK 0))

/-- The bytes of a seal table entry without its signature (log 10). -/
def SealWin.bytes (w : SealWin) : List Byte := leOf 8 w.base ++ leOf 8 w.len ++ leOf 1 w.ten ++ w.dig

/-- DEVID as reported: 64 zero bytes without an identity key [03 R74, R76]. -/
def State.devidBytes (s : State) : List Byte := if s.mg.lcs == 0#3 || s.mg.lcs == 4#3 then List.replicate 64 0#8 else fit 64 Config.devId

/-- Bytes 0 to 0x30F of an attestation report [03 R74]. -/
def State.attestHead (s : State) (ten : Option Nat) (nonce : List Byte) : List Byte :=
  leOf 4 1 ++ leOf 1 s.mg.lcs.toNat ++ leOf 1 (ten.getD 255) ++ leOf 1 s.self.toNat ++ [0#8] ++ leOf 8 s.mg.wrcnt.toNat ++ s.devidBytes ++ fit 64 nonce ++
    (List.range 8).flatMap s.measOf ++ (match ten with | some t => s.ilogOf t | none => List.replicate 64 0#8) ++
    digestOf (s.mg.seals.flatMap (fun w => w.bytes ++ w.sig))

/-- ATTEST [03 R74; 04 R85, R86]. -/
def execAttest (run : Nat) (s : State) : Out :=
  s.command run 8 (fun r =>
    if s.mg.lcs == 0#3 || s.mg.lcs == 4#3 then s.complete r csNOKEY 0
    else s.operand r needR (r.arg 8 8) 64 (fun s nonce =>
      let h := s.attestHead (if r.fn == 0 then none else some r.ten) nonce
      s.result r (r.arg 16 8) (h ++ fit 4627 (Config.signature h)) nonce (fun s => s.complete r csOK 0)))

/-- EXTMEAS [03 R73; 04 R85]. -/
def execExtmeas (run : Nat) (s : State) : Out :=
  s.command run 9 (fun r =>
    let i := r.arg 8 1
    if i != 6 && i != 7 then s.complete r csBADCMD 0
    else s.operand r needR (r.arg 16 8) 64 (fun s d => (s.extend i d).complete r csOK 0))

/-- A collective about to be loaded: its tricks, none for a graph that fails [02 R55, R58]. -/
structure Loading where
  kind  : Nat
  group : Nat
  fmt   : Nat
  rop   : Nat
  alg   : Nat
  root  : Nat
  size  : Nat

/-- The operands of CLOAD [04 R85]. -/
def Run.loading (r : Run) : Loading :=
  { kind := r.arg 9 1, group := r.arg 10 1, alg := r.arg 11 1, fmt := r.arg 12 1, rop := r.arg 13 1, root := r.arg 14 1, size := r.arg 16 8 }

/-- The chunk size and the steps of a built-in collective on this rank: with AUTO both the algorithm and the chunk size come from the selection
registers; else a chunk is the least power of two that keeps the graph within 4,096 tricks (log 14) [02 R57, R58]. -/
def State.builtin (s : State) (l : Loading) (ranks : List (BitVec 8)) : Nat × List (List Step1) :=
  let n := ranks.length
  let alg := if l.alg == 4 then s.autoAlg l.size n else l.alg
  let steps := builtinSteps l.kind alg n (ranks.findIdx (fun d => d == s.self)) l.root l.size (trickSize l.fmt)
  (if l.alg == 4 then s.autoChunk l.size n else leastChunk steps, steps)

/-- Whether a collective is in use: an instance runs, or a launch waits [02 R58, R62]. -/
def Coll.busy (k : Coll) : Bool := k.running.isSome || !k.waiting.isEmpty

/-- A collective loaded: it replaces one of its number, whose routes go [02 R58, R62; 18 R405]. -/
def State.putColl (s : State) (ten num : Nat) (l : Loading) (ts : List Trick) : State :=
  s.withFb (fun f => { f with
    routes := f.routes.filter (fun (x : Route) => !(x.ten.toNat == ten && x.coll == num))
    colls := f.colls.filter (fun (k : Coll) => !(k.ten == ten && k.num == num)) ++
      [{ ten := ten, num := num, kind := l.kind, group := l.group, tricks := ts, inst := 0, running := none, waiting := [], early := [], here := []
         heldAt := none, holds := [], skewed := false, aborted := false, results := [] }] })

/-- The checks of CLOAD from the group on, then the load [02 R58]; a broadcast root that is no rank of the group is BADOP (log 14). -/
def State.loadColl (s : State) (r : Run) (l : Loading) (own : List Trick) : State :=
  let num := r.arg 8 1
  match s.group r.ten l.group with
  | none => s.complete r csBADGROUP 0
  | some ranks =>
    if l.kind == 5 && ranks.length ≤ l.root then s.complete r csBADOP 0
    else
      let g := s.builtin l ranks
      let n := if l.kind == 0 then own.length else builtinCount g.1 g.2
      let others := s.fb.colls.filter (fun k => !(k.ten == r.ten && k.num == num))
      if 4096 < n then s.complete r csTOOBIG 0
      else if (s.coll r.ten num).any Coll.busy then s.complete r csBUSY 0
      else if 64 < others.length + 1 || 65536 < others.foldl (fun a k => a + k.tricks.length) n then s.complete r csSEQFULL 0
      else (s.putColl r.ten num l (if l.kind == 0 then own else builtinTricks g.1 g.2 ranks l.fmt l.rop)).complete r csOK (BitVec.ofNat 64 n)

/-- CLOAD [02 R57, R58]. -/
def execCload (run : Nat) (s : State) : Out :=
  s.command run 10 (fun r =>
    let l := r.loading
    let n := r.arg 0x18 2
    if 63 < r.arg 8 1 then s.complete r csBADCMD 0
    else if 5 < l.kind || 4 < l.alg || 3 < l.fmt || 2 < l.rop || (l.kind == 0 && (n == 0 || 4096 < n)) then s.complete r csBADOP 0
    else if l.kind != 0 then s.loadColl r l []
    else s.operand r needR l.size (32 * n) (fun s b =>
        let ws := (List.range n).map (fun i => fieldOf b (32 * i) 32)
        if !ws.all (trickOk n) then s.complete r csBADOP 0 else s.loadColl r l (ws.map Trick.ofNat)))

/-- Whether a group is used by a loaded collective or by an active reduction of this device's units [02 R54, R58]. -/
def State.groupBusy (s : State) (ten g : Nat) : Bool :=
  s.fb.colls.any (fun k => k.ten == ten && k.group == g) ||
    s.fb.melds.any (fun p => p.2.any (fun m => m.ten.toNat == ten && m.up.isNone && m.mcg == g))

/-- CGROUP [02 R58]; a count byte of 0 stands for 256 (log 22). -/
def execCgroup (run : Nat) (s : State) : Out :=
  s.command run 11 (fun r =>
    let g := r.arg 8 1
    let n := if r.arg 9 1 == 0 then 256 else r.arg 9 1
    if 63 < g then s.complete r csBADCMD 0
    else s.operand r needR (r.arg 16 8) n (fun s b =>
        if !distinct b || b.any (fun d => !s.inDomain d) || !b.contains s.self then s.complete r csBADGROUP 0
        else if s.groupBusy r.ten g then s.complete r csBUSY 0
        else
          (s.withFb (fun f => { f with groups := f.groups.filter (fun (x : Nat × Nat × List (BitVec 8)) => !(x.1 == r.ten && x.2.1 == g)) ++
            [(r.ten, g, b)] })).complete r csOK 0))

/-- CDROP [02 R58]. -/
def execCdrop (run : Nat) (s : State) : Out :=
  s.command run 12 (fun r =>
    let num := r.arg 8 1
    if 63 < num then s.complete r csBADCMD 0
    else if (s.coll r.ten num).any Coll.busy then s.complete r csBUSY 0
    else (s.withFb (fun f => { f with colls := f.colls.filter (fun (k : Coll) => !(k.ten == r.ten && k.num == num)) })).complete r csOK 0)

end Sys2Proof.Machine
end

