-- ==== Sys2Proof/Machine/Registers.lean ====
section
/-! DEFINITION. The device management registers, the tenant and queue registers, the slot table as bytes [01 R26, R31; 02 R37, R46, R57,
R59, R411; 03 R64; 04 R80 to R82, R90, R91; 05 R104, R105; 07 R174; 08 R194]. -/

namespace Sys2Proof.Machine

/-- The management registers changed. -/
def State.onMg (s : State) (f : Mgmt → Mgmt) : State := { s with mg := f s.mg }

/-- Data returned to the outside, little-endian in `n` bytes. -/
def State.answerOut (s : State) (n v : Nat) : State := { s with hostData := leOf n v }

/-- RSTSTAT [03 R64]. -/
def State.rststat (s : State) : Nat :=
  s.mg.cause.toNat * 2 ^ 5 + s.mg.sealFail.toNat * 2 ^ 4 + s.mg.degr.toNat * 2 ^ 3 + s.mg.lcs.toNat

/-- HSTAT of a stack [01 R26]. -/
def State.hstatOf (s : State) (st : Nat) : Nat :=
  let h := tget s.ms.hstat Hstat.zero st
  let off := if st < 8 then tget s.ms.hoffl 0#32 st != 0#32 else s.ms.farBad.contains st
  h.carep.toNat + h.cecnt.toNat * 2 ^ 16 + h.uecnt.toNat * 2 ^ 32 + h.retrn.toNat * 2 ^ 40 + off.toNat * 2 ^ 48

/-- MESTAT of a memory edge [08 R194]. -/
def State.mestatOf (s : State) (e : Nat) : Nat := (tget s.ms.late 0#32 e).toNat * 2 ^ 32 + (tget s.ms.tmo 0#32 e).toNat

/-- VWSTAT [02 R46]. -/
def State.vwstat (s : State) : Nat := s.mg.vwLate.toNat * 2 ^ 32 + s.mg.sync.toNat * 2 ^ 16 + s.mg.offs.toNat

/-- DOMCFG [02 R411]. -/
def State.domcfg (s : State) : Nat := s.mg.dy.toNat * 2 ^ 12 + s.mg.dx.toNat * 2 ^ 8 + s.mg.x.toNat * 2 ^ 4 + s.mg.y.toNat

/-- The K that VWCFG holds: as written [02 R46]. -/
def State.vwcfg (s : State) : Nat := match s.mg.vwNext with | some (k, _) => k.toNat | none => s.mg.vwK.toNat

/-- A write of RSTSTAT: SEALFAIL and DEGR are cleared by 1 [03 R64]. -/
def State.rststatWrite (s : State) (v : W32) : State :=
  s.onMg (fun m => { m with sealFail := m.sealFail && !v.getLsbD 4, degr := m.degr && !v.getLsbD 3 })

/-- Whether a value of TRIMAP is refused [01 R31, R32]. -/
def State.trimapBad (s : State) (v : W32) : Bool :=
  let t30 := bitsAt v.toNat 0 5
  let t31 := bitsAt v.toNat 8 5
  let on30 := v.getLsbD 5
  let on31 := v.getLsbD 13
  (on30 && 29 < t30) || (on31 && 29 < t31) || (on30 && on31 && t30 == t31) || (on30 && (s.port 30).ualink) || (on31 && (s.port 31).ualink)

/-- The port whose traffic a physical port carries under TRIMAP [01 R31]. -/
def State.roleOf (s : State) (q : Nat) : Nat :=
  let w := s.mg.trimap.toNat
  if q == 30 && bitsAt w 5 1 == 1 then bitsAt w 0 5 else if q == 31 && bitsAt w 13 1 == 1 then bitsAt w 8 5 else q

/-- A write of TRIMAP: packets queued at a port whose part changes, a spare or the port that it replaces, are lost, and their copies go out
again by the port that stands for theirs [01 R31; 02 R41, R42]. -/
def State.trimapWrite (s : State) (v : W32) : State :=
  if s.trimapBad v then s
  else
    let s1 := s.onMg (fun m => { m with trimap := v &&& 0x3F3F#32 })
    let dest (q : Nat) : Nat := if q < 32 then s1.physPort (s.roleOf q) else q
    let hit (q : Nat) : Bool := dest q != q || (List.range 32).any (fun p => dest p == q && p != q)
    let s2 := s1.withFb (fun f => { f with
      out := f.out.filter (fun o => !hit o.port)
      custody := f.custody.map (fun c => { c with port := dest c.port })
      held := f.held.map (fun h => { h with port := dest h.port })
      flows := f.flows.map (fun g => { g with port := dest g.port }) })
    ((List.range 32).filter (fun p => hit p && (s.port p).up && !(s.port p).ualink)).foldl (fun s p => s.linkBack p) s2

/-- A write of DOMCFG [02 R411]. -/
def State.domcfgWrite (s : State) (v : W32) : State :=
  let n := v.toNat
  if bitsAt n 8 4 < bitsAt n 4 4 || bitsAt n 12 4 < bitsAt n 0 4 then s
  else s.onMg (fun m => { m with dy := BitVec.ofNat 4 (bitsAt n 12 4), dx := BitVec.ofNat 4 (bitsAt n 8 4), x := BitVec.ofNat 4 (bitsAt n 4 4), y := BitVec.ofNat 4 (bitsAt n 0 4) })

/-- A write of VWCFG: K from the next multiple of 2^16 ns on [02 R46]. -/
def State.vwcfgWrite (s : State) (v : W32) : State :=
  let k := bitsAt v.toNat 0 5
  if k < 8 || 16 < k then s
  else s.onMg (fun m => { m with vwK := s.vwNow, vwNext := some (BitVec.ofNat 5 k, (s.time / 65536 + 1) * 65536) })

/-- A region whose count goes on under the detection time that stands [07 R174]. -/
def Region.holdK (r : Region) (k : Nat) : Region :=
  { r with kHeld := some (r.kHeld.getD k) }

/-- A write of DLKCFG [07 R174]. -/
def State.dlkcfgWrite (s : State) (v : W32) : State :=
  let k := bitsAt v.toNat 0 5
  if k < 10 || 30 < k then s
  else
    let old := s.mg.dlkK.toNat
    ({ s with slots := s.slots.map (fun (p : Nat × Slot) => (p.1, { p.2 with region := p.2.region.map (fun (r : Region) => r.holdK old) })) }).onMg (fun m => { m with
      dlkK := BitVec.ofNat 5 k })

/-- Whether two windows overlap [04 R90]. -/
def windowsClash (v w : Nat) : Bool :=
  let lo (x : Nat) : Nat := bitsAt x 24 24
  let n (x : Nat) : Nat := bitsAt x 0 24
  bitsAt v 63 1 == 1 && bitsAt w 63 1 == 1 && bitsAt v 61 2 == bitsAt w 61 2 && lo v < lo w + n w && lo w < lo v + n v && n v != 0 && n w != 0

/-- A write of a window register [04 R90]. -/
def State.twinWrite (s : State) (ten w : Nat) (v : Word) : State :=
  let x := v &&& 0xE000FFFFFFFFFFFF#64
  if 16 ≤ ten || 16 ≤ w || bitsAt v.toNat 61 2 == 3 ||
      s.mg.twin.any (fun p => p.1 / 16 != ten && windowsClash x.toNat p.2.toNat) then s
  else s.onMg (fun m => { m with twin := tset m.twin (16 * ten + w) x })

/-- SLCMD written by Dealer: the slot, and a command queued [05 R105]. -/
def State.slcmdWrite (s : State) (v : Word) : State :=
  let n := bitsAt v.toNat 8 8
  let c := bitsAt v.toNat 0 4
  let s1 := s.onMg (fun m => { m with slcmd := BitVec.ofNat 8 n })
  if 1 ≤ c && c ≤ 6 then s1.queueCmd n c 0 else s1

/-- The 128 bytes of a bind record [05 R104]. -/
def Slot.bytes (x : Slot) : List Byte :=
  let rsv (i : Nat) : Byte := tget x.raw 0#8 i
  leOf 1 x.st.toNat ++ leOf 1 x.ten.toNat ++ leOf 1 x.ncore.toNat ++ leOf 1 x.l.toNat ++ leOf 1 x.prio.toNat ++ leOf 1 x.phase.toNat ++
    leOf 2 x.ctx.toNat ++ leOf 4 x.img.toNat ++ leOf 4 x.entry.toNat ++ leOf 8 x.basek.toNat ++ leOf 8 x.savek.toNat ++ leOf 1 x.flg.toNat ++
    (List.range 7).map (fun i => rsv (0x21 + i)) ++ leOf 8 x.acct.toNat ++ leOf 2 x.lastst.toNat ++ leOf 2 x.tdrn.toNat ++ leOf 2 x.tload.toNat ++
    (List.range 10).map (fun i => rsv (0x36 + i)) ++ (List.range 64).map x.place

/-- A bind record from 128 bytes: STATE, ACCT, LASTST, TDRN and TLOAD are the hardware's and stay [05 R104]. -/
def Slot.ofBytes (x : Slot) (b : List Byte) : Slot :=
  { x with
    ten := BitVec.ofNat 8 (fieldOf b 1 1), ncore := BitVec.ofNat 8 (fieldOf b 2 1), l := BitVec.ofNat 8 (fieldOf b 3 1), prio := BitVec.ofNat 8 (fieldOf b 4 1)
    phase := BitVec.ofNat 8 (fieldOf b 5 1), ctx := BitVec.ofNat 16 (fieldOf b 6 2), img := BitVec.ofNat 32 (fieldOf b 8 4)
    entry := BitVec.ofNat 32 (fieldOf b 12 4), basek := BitVec.ofNat 64 (fieldOf b 16 8), savek := BitVec.ofNat 64 (fieldOf b 24 8)
    flg := BitVec.ofNat 8 (fieldOf b 32 1)
    raw := ((List.range 7).map (fun i => 0x21 + i) ++ (List.range 10).map (fun i => 0x36 + i)).map (fun i => (i, b.getD i 0#8))
    cmap := (List.range 64).map (fun i => (i, b.getD (0x40 + i) 0#8)) }

/-- Bytes written over a list from an index. -/
def overlay (b : List Byte) (o : Nat) (d : List Byte) : List Byte := b.take o ++ d ++ b.drop (o + d.length)

/-- A write of Dealer into the slot table [05 R104]. -/
def State.slotTableWrite (s : State) (off n : Nat) (v : Word) : State :=
  let i := off / 128
  if 256 ≤ i then s else s.putSlot i ((s.slot i).ofBytes (overlay (s.slot i).bytes (off % 128) (leOf n v.toNat)))

/-- A management register as 64 bits, at an offset that is a multiple of 8 [04 R80]. -/
def State.pfReg (s : State) (o : Nat) : Nat :=
  if o == 0 then s.mg.slot.toNat * 2 ^ 8 + s.mg.ten.toNat * 2 ^ 4
  else if o == 8 then s.rststat
  else if o == 0x10 then s.mg.dlkK.toNat
  else if o == 0x18 then s.mg.trimap.toNat
  else if o == 0x20 then s.domcfg
  else if 0x100 ≤ o && o < 0x180 then s.hstatOf ((o - 0x100) / 8)
  else if 0x200 ≤ o && o < 0x240 then (tget s.ms.hoffl 0#32 ((o - 0x200) / 8)).toNat
  else if 0x300 ≤ o && o < 0x380 then s.mestatOf ((o - 0x300) / 8)
  else if o == 0x1000 then s.mg.tccfg.toNat
  else if o == 0x1008 then s.vwcfg
  else if o == 0x1010 then s.vwstat
  else if 0x2000 ≤ o && o < 0x2040 then (tget s.mg.csel 0#64 ((o - 0x2000) / 8)).toNat
  else if o == 0x2040 then s.mg.chold.toNat
  else if o == 0x2048 then s.mg.ctmo.toNat
  else if o == 0x2050 then s.mg.cstale.toNat
  else if 0x2080 ≤ o && o < 0x2100 then (tget s.mg.kq 0#15 ((o - 0x2080) / 8)).toNat
  else if o == 0x3000 then s.mg.slcmd.toNat * 2 ^ 8
  else if o == 0x3008 then s.mg.slqOvf.toNat * 2 ^ 7 + s.mg.slq.length
  else if 0x10000 ≤ o && o < 0x10080 then (tget s.mg.ptroot 0#64 ((o - 0x10000) / 8)).toNat
  else if 0x11000 ≤ o && o < 0x11800 then (tget s.mg.twin 0#64 ((o - 0x11000) / 8)).toNat
  else if 0x400000 ≤ o && o < 0x408000 then fieldOf ((s.slot ((o - 0x400000) / 128)).bytes) ((o - 0x400000) % 128) 8
  else 0

/-- Whether the register at an offset has 64 bits that are written [04 R80]. -/
def pfWide (o : Nat) : Bool := (0x2000 ≤ o && o < 0x2040) || o == 0x3000 || (0x10000 ≤ o && o < 0x10080) || (0x11000 ≤ o && o < 0x11800)

/-- A write of 4 or 8 bytes to the 64 bits of a register: the other half keeps its value. -/
def merge64 (old : Nat) (hi : Bool) (n : Nat) (v : Word) : Word :=
  if n == 8 then v
  else if hi then BitVec.ofNat 64 (old % 2 ^ 32 + v.toNat % 2 ^ 32 * 2 ^ 32)
  else BitVec.ofNat 64 (old / 2 ^ 32 * 2 ^ 32 + v.toNat % 2 ^ 32)

/-- The bits of TCCFG that take writes: classes 1 to 6 [02 R37]. -/
def tccfgOf (v : W32) : W32 := (v &&& 0x0FFFFFF0#32) ||| 7#32

/-- A write to a management register that starts no reset, at an offset that is a multiple of 8 [04 R80]. -/
def State.pfWrite (s : State) (dealer : Bool) (o : Nat) (v : Word) : State :=
  let w : W32 := v.setWidth 32
  if o == 8 then s.rststatWrite w
  else if o == 0x10 then s.dlkcfgWrite w
  else if o == 0x18 then s.trimapWrite w
  else if o == 0x20 then s.domcfgWrite w
  else if o == 0x1000 then s.onMg (fun m => { m with tccfg := tccfgOf w })
  else if o == 0x1008 then s.vwcfgWrite w
  else if 0x2000 ≤ o && o < 0x2040 then s.onMg (fun m => { m with csel := tset m.csel ((o - 0x2000) / 8) (v &&& 0xCFCFCFCFCFCFCFCF#64) })
  else if o == 0x2040 then s.onMg (fun m => { m with chold := w })
  else if o == 0x2048 then s.onMg (fun m => { m with ctmo := w })
  else if 0x2080 ≤ o && o < 0x2100 then s.onMg (fun m => { m with kq := tset m.kq ((o - 0x2080) / 8) (v.setWidth 15) })
  else if o == 0x3000 then (if dealer then s.slcmdWrite v else s)
  else if o == 0x3008 then (if dealer then s.onMg (fun m => { m with slqOvf := m.slqOvf && !v.getLsbD 7 }) else s)
  else if 0x10000 ≤ o && o < 0x10080 then s.onMg (fun m => { m with ptroot := tset m.ptroot ((o - 0x10000) / 8) (v &&& 0xFFFFF00001#64) })
  else if 0x11000 ≤ o && o < 0x11800 then s.twinWrite ((o - 0x11000) / 128) ((o - 0x11000) % 128 / 8) v
  else s

/-- FRCFG as read [04 R81]. -/
def Fn.frcfg (f : Fn) : Nat := f.fren.toNat * 2 ^ 31 + f.frsize.toNat

/-- Whether a fault ring is full [04 R101]. -/
def Fn.ringFull (f : Fn) : Bool := (f.frtail.toNat + 1) % 2 ^ f.frsize.toNat == f.frhead.toNat % 2 ^ f.frsize.toNat

/-- TSTAT: a tenant reset in progress; the fault ring is full, with a record dropped or not [04 R81, R101] (log 34). -/
def Fn.tstat (f : Fn) : Nat := f.reset.toNat + (f.frfull || (f.fren && f.ringFull)).toNat * 2

/-- QCFG as read [04 R82]. -/
def Queue.cfg (x : Queue) : Nat :=
  x.en.toNat * 2 ^ 31 + x.qerr.toNat * 2 ^ 30 + x.src.toNat * 2 ^ 29 + x.ien.toNat * 2 ^ 28 + x.csz.toNat * 2 ^ 20 + x.ssz.toNat * 2 ^ 16

/-- A queue register as 64 bits; QDOOR reads the head [04 R81]. -/
def Queue.reg (x : Queue) (o : Nat) : Nat :=
  match o with
  | 0 => x.base.toNat
  | 8 => x.cqbase.toNat
  | 16 => x.cfg
  | 24 => x.head
  | 32 => x.cqhead
  | _ => 0

/-- A tenant register as stored, at an offset that is a multiple of 8; RACKCK as stored, which reads as 0 [04 R81]. -/
def Fn.reg (f : Fn) (o : Nat) : Nat :=
  if 0x1000 ≤ o && o < 0x2000 then (f.queue ((o - 0x1000) / 64)).reg (o % 64)
  else match o with
    | 0x0 => f.tstat
    | 0x8 => f.frbase.toNat
    | 0x10 => f.frcfg
    | 0x18 => f.frhead.toNat
    | 0x20 => f.frtail.toNat
    | 0x28 => f.frlost.toNat
    | 0x30 => f.rackck.toNat
    | 0x38 => f.hwin.toNat
    | _ => 0

/-- A write to a queue register [04 R81 to R83]; the bases only while the queue is disabled. -/
def Queue.write (x : Queue) (o : Nat) (v : Word) : Queue :=
  match o with
  | 0 => if x.en then x else { x with base := v }
  | 8 => if x.en then x else { x with cqbase := v }
  | 16 => x.config (v.setWidth 32)
  | 24 => x.door v.toNat
  | 32 => { x with cqhead := v.toNat % 2 ^ 32 }
  | _ => x

/-- A write to a register of the tenant map [04 R81]; PF0 has the queue registers alone [04 R79].  A write of FRHEAD that leaves the ring
not full ends FRFULL, and FRCFG takes EN with a size outside 4 to 12 as written (log 34). -/
def Fn.write (f : Fn) (pf : Bool) (o : Nat) (v : Word) : Fn :=
  if 0x1000 ≤ o && o < 0x2000 then { f with queues := tset f.queues ((o - 0x1000) / 64) ((f.queue ((o - 0x1000) / 64)).write (o % 64) v) }
  else if pf then f
  else match o with
    | 0x8 => if f.fren then f else { f with frbase := v }
    | 0x10 => if f.fren then f else { f with fren := v.getLsbD 31, frsize := BitVec.ofNat 4 (bitsAt v.toNat 0 4) }
    | 0x18 => let g := { f with frhead := v.setWidth 32 }; { g with frfull := g.frfull && g.ringFull }
    | 0x30 => { f with rackck := v }
    | 0x38 => { f with hwin := v }
    | _ => f

/-- Whether the register of the tenant map at an offset has 64 bits that are written. -/
def fnWide (o : Nat) : Bool :=
  if 0x1000 ≤ o && o < 0x2000 then o % 64 == 0 || o % 64 == 8 else o == 0x8 || o == 0x30 || o == 0x38

/-- A write of a host to a tenant's or PF0's queue map: an enabled function, 4 or 8 bytes aligned [04 R80, R81]. -/
def State.fnRegWrite (s : State) (fn o n : Nat) (v : Word) : State :=
  let a := o / 8 * 8
  let f := s.fn fn
  if !s.fnOn fn || !((n == 4 || n == 8) && o % n == 0) then s
  else if o % 8 == 4 && !fnWide a then s
  else
    let s1 := s.putFn fn (f.write (fn == 0) a (merge64 (f.reg a) (o % 8 == 4) n v))
    if 0x1000 ≤ a && a < 0x2000 then s1.queueWritten fn ((a - 0x1000) / 64) else s1

/-- What a register of the tenant map reads as, 64 bits: RACKCK reads as 0, and ignored bits as 0 [04 R81] (log 34). -/
def Fn.view (f : Fn) (pf : Bool) (o : Nat) : Nat :=
  if pf && !(0x1000 ≤ o && o < 0x2000) then 0
  else match o with
    | 0x8 => f.frbase.toNat / 64 * 64
    | 0x30 => 0
    | 0x38 => f.hwin.toNat / 2 ^ 32 * 2 ^ 32
    | _ => f.reg o

/-- What a read of n bytes answers: PF0 (0) or a VF (1 to 16) in its BAR0, Dealer at its local map (17), PF0 in its BAR2 (18).
Other than 4 or 8 bytes aligned reads all ones [04 R79 to R81].  What a read clears is `State.readClear`. -/
def State.regRead (s : State) (fn addr n : Nat) : Nat :=
  let a := addr / 8 * 8
  let v := if fn == 0 || fn == 17 then s.pfReg a else if fn == 18 then (s.fn 0).view true a
    else if s.fnOn fn then (s.fn fn).view false a else 0
  if !((n == 4 || n == 8) && addr % n == 0) then 2 ^ (8 * n) - 1
  else if addr % 8 == 4 then v / 2 ^ 32 else v % 2 ^ (8 * n)

/-- A counter that a read clears where the read covers its first byte [00 R6; 04 R80]. -/
def rcField (lo n at_ : Nat) (v : BitVec k) : BitVec k := if lo ≤ at_ && at_ < lo + n then 0 else v

/-- What a read of n bytes clears: the RC fields that it reads, by PF0 or Dealer in the device map, or in a VF's map [00 R6; 01 R26; 02 R46,
R59; 04 R80, R81; 08 R194]. -/
def State.readClear (s : State) (fn addr n : Nat) : State :=
  let a := addr / 8 * 8
  let lo := addr % 8
  if !((n == 4 || n == 8) && addr % n == 0) then s
  else if fn == 0 || fn == 17 then
    if 0x100 ≤ a && a < 0x180 then
      let st := (a - 0x100) / 8
      let h := tget s.ms.hstat Hstat.zero st
      let z : Hstat := { carep := rcField lo n 0 h.carep, cecnt := rcField lo n 2 h.cecnt, uecnt := rcField lo n 4 h.uecnt, retrn := rcField lo n 5 h.retrn }
      s.withMs (fun m => { m with hstat := tset m.hstat st z })
    else if 0x300 ≤ a && a < 0x380 then
      let e := (a - 0x300) / 8
      s.withMs (fun m => { m with tmo := tset m.tmo e (rcField lo n 0 (tget m.tmo 0#32 e)), late := tset m.late e (rcField lo n 4 (tget m.late 0#32 e)) })
    else if a == 0x1010 then s.onMg (fun m => { m with vwLate := rcField lo n 4 m.vwLate })
    else if a == 0x2050 then s.onMg (fun m => { m with cstale := rcField lo n 0 m.cstale })
    else s
  else if 1 ≤ fn && fn ≤ 16 && s.fnOn fn && a == 0x28 then s.putFn fn { s.fn fn with frlost := rcField lo n 0 (s.fn fn).frlost }
  else s

/-- A register read of n bytes: the answer, and what the read clears [00 R6; 04 R80, R81]. -/
def State.readReg (s : State) (fn addr n : Nat) : State := (s.answerOut n (s.regRead fn addr n)).readClear fn addr n

/-- RSTSTAT_WRITE [03 R64]. -/
def execRststatWrite (v : BitVec 32) (s : State) : Out := .next (s.rststatWrite v)

/-- TRIMAP_WRITE [01 R31]. -/
def execTrimapWrite (v : BitVec 32) (s : State) : Out := .next (s.trimapWrite v)

/-- DOMCFG_WRITE [02 R411]. -/
def execDomcfgWrite (v : BitVec 32) (s : State) : Out := .next (s.domcfgWrite v)

/-- VWCFG_WRITE [02 R46]. -/
def execVwcfgWrite (v : BitVec 32) (s : State) : Out := .next (s.vwcfgWrite v)

/-- VW_K_TAKE_EFFECT [02 R46]. -/
def execVwKTakeEffect (s : State) : Out :=
  .next (match s.mg.vwNext with
    | some (k, due) => if due ≤ s.time then s.onMg (fun m => { m with vwK := k, vwNext := none }) else s
    | none => s)

/-- DLKCFG_WRITE [07 R174]. -/
def execDlkcfgWrite (v : BitVec 32) (s : State) : Out := .next (s.dlkcfgWrite v)

/-- TWIN_WRITE [04 R90]. -/
def execTwinWrite (ten w : Nat) (v : BitVec 64) (s : State) : Out := .next (s.twinWrite ten w v)

/-- HSTAT_READ: the counters are cleared [01 R26]. -/
def execHstatRead (stack : Nat) (s : State) : Out :=
  .next (if stack < 16 then (s.answerOut 8 (s.hstatOf stack)).withMs (fun m => { m with hstat := tset m.hstat stack Hstat.zero }) else s)

/-- MESTAT_READ [08 R194]. -/
def execMestatRead (edge : Nat) (s : State) : Out :=
  .next (if edge < 16 then (s.answerOut 8 (s.mestatOf edge)).withMs (fun m => { m with late := tset m.late edge 0, tmo := tset m.tmo edge 0 }) else s)

/-- VWSTAT_READ: LATE is cleared [02 R46]. -/
def execVwstatRead (s : State) : Out := .next ((s.answerOut 8 s.vwstat).onMg (fun m => { m with vwLate := 0 }))

/-- CSTALE_READ [02 R59]. -/
def execCstaleRead (s : State) : Out := .next ((s.answerOut 8 s.mg.cstale.toNat).onMg (fun m => { m with cstale := 0 }))

/-- FRLOST_READ [04 R81]. -/
def execFrlostRead (fn : Nat) (s : State) : Out :=
  .next (if fn == 0 || !s.fnOn fn then s else (s.answerOut 8 (s.fn fn).frlost.toNat).putFn fn { s.fn fn with frlost := 0 })

/-- VERSION [03 R76]. -/
def execVersion (s : State) : Out := .next (s.answerOut 1 1)

/-- Whether a reset of one of the five kinds is in progress [03 R63]. -/
def State.resetting (s : State) : Bool :=
  s.mg.held || s.mg.stage != .none || s.hs.fns.any (fun p => p.2.reset) || s.slots.any (fun p => p.2.reset.isSome)

/-- STATUS: a reset in progress, a throttled die, SEALFAIL, DEGR [03 R76]. -/
def execStatus (s : State) : Out :=
  let busy := s.resetting
  .next (s.answerOut 1 (busy.toNat + (!s.mg.throttle.isEmpty).toNat * 2 + s.mg.sealFail.toNat * 4 + s.mg.degr.toNat * 8))

/-- TEMP: the highest reading of d0 to d3 or h in 1/16 °C [03 R76]. -/
def execTemp (die : Nat) (s : State) : Out := .next (if die ≤ 4 then s.answerOut 2 ((tget s.mg.temps 0 die) % 65536).toNat else s)

/-- POWER [03 R76]. -/
def execPower (s : State) : Out := .next (s.answerOut 2 s.mg.power.toNat)

/-- PLIMIT_READ [03 R76]. -/
def execPlimitRead (s : State) : Out := .next (s.answerOut 2 s.mg.plimit.toNat)

/-- PLIMIT_WRITE: a limit of 500 to 3,000 W [03 R76]. -/
def execPlimitWrite (v : BitVec 16) (s : State) : Out :=
  .next (if v < 500 || 3000 < v then s else s.onMg (fun m => { m with plimit := v }))

/-- SMBUS_RSTSTAT [03 R76]. -/
def execSmbusRststat (s : State) : Out := .next (s.answerOut 4 s.rststat)

/-- SMBUS_HSTAT [03 R76]. -/
def execSmbusHstat (stack : Nat) (s : State) : Out := .next (if stack < 16 then s.answerOut 8 (s.hstatOf stack) else s)

/-- LCS [03 R76]. -/
def execLcs (s : State) : Out := .next (s.answerOut 1 s.mg.lcs.toNat)

/-- DEVID [03 R76]. -/
def execDevid (s : State) : Out := .next { s with hostData := s.devidBytes }

end Sys2Proof.Machine
end

