-- ==== Sys2Proof/Machine/Reset.lean ====
section
/-! DEFINITION. Resets, power, life cycle, measured boot, sealed windows, throttle, functions, and the register writes that start a reset
[01 R13, R15; 03 R63 to R73; 04 R78, R80]. -/

namespace Sys2Proof.Machine

/-- The place of a stack's offset in the device physical map [01 R17]. -/
def stackPa (st off : Nat) : Nat := if st < 8 then st * 2 ^ 36 + off else 2 ^ 39 + (st - 8) * 2 ^ 36 + off

/-- A memory with the bytes of a test left, the others zero. -/
def mkeep (m : Memory) (f : Nat → Bool) : Memory := m.filter (fun c => f c.1)

/-- The HBM and its ECC errors with the places of a test left, the others wiped by writing zeros [03 R65]. -/
def State.wipeHbm (s : State) (keep : Nat → Nat → Bool) : State :=
  s.withMs (fun m => { m with
    hbm := m.hbm.map (fun p => (p.1, mkeep p.2 (keep p.1)))
    ce := m.ce.filter (fun p => keep p.1 p.2), ue := m.ue.filter (fun p => keep p.1 p.2) })

/-- Whether an offset of a stack lies in a sealed window. -/
def State.sealedAt (s : State) (st off : Nat) : Bool := s.sealedRange (stackPa st off) 1

/-- Whether an offset of an expander lies in an enabled CXL window of some tenants [04 R90]. -/
def State.cxlOwned (s : State) (tens : List Nat) (port off : Nat) : Bool := tens.any (fun t => s.inWindow t 2 (port * 2 ^ 44 + off) 1)

/-- The CXL windows of some tenants on a port wiped. -/
def State.wipeCxl (s : State) (tens : List Nat) (port : Nat) : State :=
  s.withMs (fun m => { m with cxl := tset m.cxl port (mkeep (tget m.cxl [] port) (fun a => !s.cxlOwned tens port a)) })

/-- The boot stages of [03 R73] measured and run in order; one whose signature fails does not run, and the device stays in reset.  MEAS5,
of the life-cycle byte and the fuse bytes, is extended last, after a boot that has not failed (log 10). -/
def State.bootFrom (s : State) : List Nat → State
  | [] => s.extend 5 (digestOf (leOf 1 s.mg.lcs.toNat ++ Config.bootStage 5))
  | i :: r =>
    let s1 := s.extend i (digestOf (Config.bootStage i))
    if Config.bootOk i then s1.bootFrom r else s1.onMg (fun m => { m with held := true })

/-- Measured boot [03 R73]. -/
def State.boot (s : State) : State := s.bootFrom [0, 1, 2, 3, 4]

/-- The boundaries, channels and ports as training leaves them [01 R11, R25, R29; 03 R64, R66]: how much of each trains is open (log 6).  Each
boundary loses some of its 48 modules and is recorded with their number; each near stack loses some channels; each port comes up at x4 or
x2 or stays down.  The result is kept as the repair map, from which a warm reset (`keep`) starts; a part that does not retrain from it trains from the beginning, and
that too sets DEGR.  DEGR tells of anything degraded or failed. -/
def State.trained (s : State) (keep : Bool) : State :=
  let w (i : Nat) : Word := Config.freeValue (s.freeCount + i)
  let anew (i : Nat) : Bool := keep && (w 18).getLsbD i
  let miss (b : Nat) : Nat := let old := if keep && !anew b then tget s.mg.repair 0 b else 0; old + (w (1 + b)).toNat % (49 - old)
  let bounds := ((List.range 8).map (fun b => (b, miss b))).filter (fun p => p.2 != 0)
  let hoffl := ((List.range 8).map (fun i => (i, (w (9 + i)).setWidth 32))).filter (fun p => p.2 != 0#32)
  let ports := s.fb.ports.map (fun p => (p.1, { p.2 with up := (w 0).getLsbD p.1, lanes := if (w 17).getLsbD p.1 then 2 else 4 }))
  { s with
    mg := { s.mg with
      bounds := bounds, repair := bounds
      degr := (List.range 48).any anew || !bounds.isEmpty || !hoffl.isEmpty || ports.any (fun p => !p.2.up || p.2.lanes != 4) }
    ms := { s.ms with hoffl := hoffl }
    fb := { s.fb with ports := ports }
    freeCount := s.freeCount + 19 }

/-- The state after reset and training with what no reset touches: time, the agenda, counters, host memory, expanders, what has gone out, sensors,
fuses and the seal table (logs 1, 23). -/
def State.afterReset (s : State) (time cause : Nat) : State :=
  State.trained (keep := cause == 3) { State.reset with
    mg := { Mgmt.reset with lcs := s.mg.lcs, seals := s.mg.seals, cause := BitVec.ofNat 3 cause, repair := s.mg.repair, power := s.mg.power, temps := s.mg.temps, thrLog := s.mg.thrLog, nacks := s.mg.nacks }
    hs := { State.reset.hs with rackOut := s.hs.rackOut }
    ms := { MemSys.reset with host := s.ms.host, cxl := s.ms.cxl }
    fb := { Fabric.reset with wire := s.fb.wire, ethOut := s.fb.ethOut }
    agenda := s.agenda, time := time, freeCount := s.freeCount, nextOp := s.nextOp, hostData := s.hostData, msis := s.msis }

/-- A life-cycle reset: a cold reset that also erases the seal table and wipes every HBM byte and every expander [03 R72]. -/
def State.lifeReset (s : State) (cause : Nat) : State :=
  let s1 := s.afterReset 0 cause
  ({ s1 with mg := { s1.mg with seals := [] }, ms := { s1.ms with cxl := [] } }).boot

/-- A cold reset: every memory and register clear, then measured boot; with an unfinished life-cycle wipe, that first
[03 R63, R65, R72]. -/
def State.coldReset (s : State) (cause : Nat) : State := if s.mg.wipe then s.lifeReset cause else (s.afterReset 0 cause).boot

/-- A seal table entry that checks: its signature, and the digest of its window [03 R68]. -/
def State.sealGood (s : State) (w : SealWin) : Bool :=
  Config.sigOk 1 w.bytes w.sig && digestOf (mread (s.stack (paStack w.base)) (bitsAt w.base 0 36) w.len) == w.dig

/-- A sealed window put in its place by base. -/
def insertSeal (w : SealWin) : List SealWin → List SealWin
  | [] => [w]
  | x :: r => if w.base < x.base then w :: x :: r else x :: insertSeal w r

/-- A sealed window that failed its recheck: removed, wiped, reported [03 R68]. -/
def State.dropSeal (s : State) (w : SealWin) : State :=
  let s1 := s.onMg (fun m => { m with seals := m.seals.filter (fun x => x.base != w.base), sealFail := true })
  let s2 := s1.wipeHbm (fun st off => !(w.base ≤ stackPa st off && stackPa st off < w.base + w.len))
  (s2.recordOpen w.ten 0xFFFF 0xFFFF 0 0 { FaultInfo.of 0xE 0 with va := 0 }).msi 0 2

/-- Step 5 of a warm reset: every sealed window rechecked in ascending base order [03 R68]. -/
def State.recheckSeals (s : State) : State :=
  (s.mg.seals.foldr insertSeal []).foldl (fun s w => if s.sealGood w then s else s.dropSeal w) s

/-- Steps 1 to 3 of a warm reset and the HBM part of step 4: everything stops, the on-chip state goes, the parts retrain, HBM is wiped.  The tenant
windows stand until the expanders are wiped, the fault rings for the records of step 5 (log 23) [03 R65, R66]. -/
def State.warmStart (s : State) : State :=
  let keep (st off : Nat) : Bool := stackLimit ≤ off || s.sealedAt st off
  let s1 := s.wipeHbm keep
  let s2 := s1.afterReset s.time 3
  { s2 with
    mg := { s2.mg with wrcnt := s.mg.wrcnt + 1, twin := s.mg.twin }
    hs := { s2.hs with fns := s.hs.fns }
    ms := { s2.ms with hbm := s1.ms.hbm, ce := s1.ms.ce, ue := s1.ms.ue } }

/-- Steps 5 and 6 of a warm reset, once the expanders are wiped [03 R65, R66]. -/
def State.warmFinish (s : State) : State :=
  let s1 := (s.onMg (fun m => { m with twin := [], stage := .none })).recheckSeals
  ({ s1 with hs := { s1.hs with fns := [] } }).boot

/-- The expander ports with a tenant window, and those of them that support Secure Erase [03 R65, R66]. -/
def State.cxlPorts (s : State) : List Nat :=
  [0, 1].filter (fun p => s.mg.twin.any (fun q => let v := q.2.toNat; bitsAt v 63 1 == 1 && bitsAt v 61 2 == 2 && bitsAt v 0 24 != 0 && bitsAt v 44 1 == p ||
    bitsAt v 63 1 == 1 && bitsAt v 61 2 == 2 && p * 2 ^ 44 < (bitsAt v 24 24 + bitsAt v 0 24) * 2 ^ 21 && bitsAt v 24 24 * 2 ^ 21 < (p + 1) * 2 ^ 44))

/-- The rank of the device reset in progress: one that waits, or one that a failed boot holds in reset [03 R63, R73]. -/
def State.resetRank (s : State) : Option Nat :=
  match s.mg.stage with
  | .fused => some 2
  | .warmErase _ _ => some 3
  | .none => if !s.mg.held then none else if s.mg.cause == 3#3 then some 3 else if s.mg.cause == 4#3 then some 2 else some 1

/-- A device reset of a rank requested: it merges with a reset of its rank or a wider one in progress, and supersedes a narrower one
[03 R63]. -/
def State.request (s : State) (rank : Nat) (g : State → State) : State :=
  match s.resetRank with
  | some k => if rank < k then g s else s
  | none => g s

/-- A warm reset: steps 1 to 3; then the expanders without Secure Erase get zeros at once, and the others are waited for; then the rest
[03 R66]. -/
def State.warmReset (s : State) : State :=
  s.request 3 (fun s =>
    let (er, zero) := (s.cxlPorts.filter (fun p => Config.cxlErase p), s.cxlPorts.filter (fun p => !Config.cxlErase p))
    let s1 := zero.foldl (fun s p => s.wipeCxl (List.range 16) p) s.warmStart
    if er.isEmpty then s1.warmFinish else s1.onMg (fun m => { m with stage := .warmErase er s.time }))

/-- An expander wiped in a warm reset; the last one lets it go on [03 R66]. -/
def State.erased (s : State) (port : Nat) (ports : List Nat) (began : Nat) : State :=
  let rest := ports.filter (fun p => p != port)
  if rest.isEmpty then s.warmFinish else s.onMg (fun m => { m with stage := .warmErase rest began })

/-- SECURE_ERASE_COMPLETION [03 R66]. -/
def execSecureEraseCompletion (port : Nat) (s : State) : Out :=
  .next (match s.mg.stage with
    | .warmErase ports began =>
      if ports.contains port then (s.withMs (fun m => { m with cxl := tset m.cxl port [] })).erased port ports began else s
    | _ => s)

/-- SECURE_ERASE_TIMEOUT: after 10 s the port writes zeros itself [03 R66]. -/
def execSecureEraseTimeout (port : Nat) (s : State) : Out :=
  .next (match s.mg.stage with
    | .warmErase ports began =>
      if ports.contains port && 10000000000 ≤ s.time - began then (s.wipeCxl (List.range 16) port).erased port ports began else s
    | _ => s)

/-- COLD_RESET by request [03 R63]. -/
def execColdReset (s : State) : Out := .next (s.request 1 (fun s => s.coldReset 1))

/-- WARM_RESET [03 R66]. -/
def execWarmReset (s : State) : Out := .next s.warmReset

/-- POWER_ON: a cold reset; after the overtemperature cut its cause is that [01 R15; 03 R63, R64]. -/
def execPowerOn (s : State) : Out := .next (if s.mg.powered then s else s.coldReset s.mg.cause.toNat)

/-- POWER_FAIL: everything ends; what is unfinished of a life-cycle change is left to the next cold reset [03 R72]. -/
def execPowerFail (s : State) : Out := .next (s.onMg (fun m => { m with powered := false, cause := 0, stage := .none }))

/-- The tenant of a slot's record. -/
def Slot.tenant (x : Slot) : Nat := x.asRead.ten.toNat

/-- Steps 2 to 4 of a tenant reset: its collectives, connections, queues and commands [03 R69]. -/
def State.tenantClose (s : State) (ten : Nat) : State :=
  let s3 := (s.fb.colls.filter (fun k => k.ten == ten)).foldl (fun s k => s.endInst ten k.num clABORTED true) s
  let b4 : BitVec 4 := BitVec.ofNat 4 ten
  let s4 := s3.withFb (fun f => { f with
    colls := f.colls.filter (fun (k : Coll) => k.ten != ten)
    groups := f.groups.filter (fun (g : Nat × Nat × List (BitVec 8)) => g.1 != ten)
    routes := f.routes.filter (fun (x : Route) => x.ten != b4)
    recvs := f.recvs.filter (fun (x : Receiver) => x.ten != b4)
    outs := f.outs.filter (fun (x : OutStream) => x.ten != b4)
    melds := f.melds.map (fun (p : Nat × List Meld) => (p.1, p.2.filter (fun (m : Meld) => m.ten != b4)))
    conns := f.conns.filter (fun (c : Conn) => c.ten != b4)
    awaits := f.awaits.filter (fun (p : Packet) => p.ten != b4) })
  let read := (s4.fn (ten + 1)).queues.filterMap (fun p => p.2.fetched)
  let s5 := (s4.hs.runs.filter (fun r => r.fn == ten + 1) ++ read).foldl (fun s r => s.complete r csABORTED 0) s4
  let s6 := s5.stopWalk ten
  s6.putFn (ten + 1) { s6.fn (ten + 1) with queues := [], reset := true, closing := false }

/-- The slots of a tenant whose region reset has not ended. -/
def State.tenantSlots (s : State) (ten : Nat) : List Nat := (s.slots.filter (fun p => p.2.tenant == ten && p.2.reset.isSome)).map (fun p => p.1)

/-- A tenant reset that begins: its queued slot commands go, and each of its regions is reset; with the last of them done, steps 2 to 4 follow
[03 R69; 05 R131].  Resets of other tenants and of their slots go on beside it: R63's merging is taken of one target (log 23). -/
def State.tenantStart (s : State) (ten : Nat) : State :=
  if 16 ≤ ten || (s.fn (ten + 1)).reset then s
  else
    let mine := (s.slots.filter (fun p => p.2.tenant == ten && (p.2.st != 0#8 || p.2.task.isSome || p.2.run.isSome))).map (fun p => p.1)
    let s1 := s.onMg (fun m => { m with slq := m.slq.filter (fun c => (s.slot c.1).tenant != ten) })
    let s2 := mine.foldl (fun s n => s.regionReset n true) (s1.putFn (ten + 1) { s1.fn (ten + 1) with reset := true, closing := true })
    if (s2.tenantSlots ten).isEmpty then s2.tenantClose ten else s2

/-- The last step of a tenant reset: its windows are wiped but for sealed bytes, its keys and translations go, its vector is raised
[03 R69; 04 R87, R97, R98]. -/
def State.tenantWipe (s : State) (ten : Nat) : State :=
  let owned (st off : Nat) : Bool := s.inWindow ten (if st < 8 then 0 else 1) (stackPa st off) 1
  let s1 := s.wipeHbm (fun st off => !owned st off || s.sealedAt st off)
  let s2 := [0, 1].foldl (fun s p => s.wipeCxl [ten] p) s1
  let s3 := (s2.withMs (fun m => { m with units := m.units.map (fun p => (p.1, p.2.dropTenant ten)) })).walkMoreAll
  let s4 := { s3 with wk := { s3.wk with predict := s3.wk.predict.filter (fun p => p.ten != ten) } }
  (s4.putFn (ten + 1) { s4.fn (ten + 1) with reset := false, rackck := 0 }).msi (ten + 1) 65

/-- A tenant reset that goes on: its regions' resets, then steps 2 to 4, then, once none of the tenant's requests is left at a memory, which discards
what it has held for 1.5 ms, the wipe [03 R69, R70; 08 R193]. -/
def State.tenantGo (s : State) (ten : Nat) : State :=
  let s1 := (s.tenantSlots ten).foldl (fun s n => s.resetGo n) s
  if !(s1.tenantSlots ten).isEmpty then s1
  else
    let s2 := if (s1.fn (ten + 1)).closing then s1.tenantClose ten else s1
    if s2.ms.reqs.any (fun q => q.ten == ten) then s2 else s2.tenantWipe ten

/-- TENANT_RESET: the reset begins, or, begun, goes on to its end [03 R63, R69]. -/
def execTenantReset (ten : Nat) (s : State) : Out :=
  .next (if 16 ≤ ten then s else if (s.fn (ten + 1)).reset then s.tenantGo ten else s.tenantStart ten).run

/-- REGION_RESET: the reset begins, or, begun, goes on to its end [03 R70]. -/
def execRegionReset (slot : Nat) (s : State) : Out := .next (if slot < 256 then s.regionReset slot false else s).run

/-- A write of RSTCTL: its fields, and the reset that KIND names [03 R63, R64]. -/
def State.rstctlWrite (s : State) (v : W32) : State :=
  let s1 := s.onMg (fun m => { m with slot := BitVec.ofNat 8 (bitsAt v.toNat 8 8), ten := BitVec.ofNat 4 (bitsAt v.toNat 4 4) })
  if s.resetRank.isSome && 2 < bitsAt v.toNat 0 3 then s1
  else match bitsAt v.toNat 0 3 with
  | 1 => s1.request 1 (fun s => s.coldReset 1)
  | 2 => s1.warmReset
  | 3 => s1.tenantStart (bitsAt v.toNat 4 4)
  | 4 => s1.regionReset (bitsAt v.toNat 8 8) false
  | _ => s1

/-- A write to the device management map: 4 or 8 bytes, aligned [04 R80]. -/
def State.mapWrite (s : State) (dealer : Bool) (o n : Nat) (v : Word) : State :=
  let a := o / 8 * 8
  if !((n == 4 || n == 8) && o % n == 0) then s
  else if 0x400000 ≤ o && o < 0x408000 then (if dealer then s.slotTableWrite (o - 0x400000) n v else s)
  else if o % 8 == 4 && !pfWide a then s
  else
    let old := if a == 0x3000 then s.pfReg a else if pfWide a then s.pfReg a else 0
    let x := merge64 old (o % 8 == 4) n v
    if a == 0 then s.rstctlWrite (x.setWidth 32) else s.pfWrite dealer a x

/-- REGISTER_WRITE: by PF0 (0) or a VF (1 to 16) in its BAR0, by Dealer at its local map (17), by PF0 in its BAR2 (18)
[04 R79 to R82; 05 R104, R105]. -/
def execRegisterWrite (fn addr n : Nat) (v : BitVec 64) (s : State) : Out :=
  .next (if fn == 0 then s.mapWrite false addr n v
    else if fn == 17 then s.mapWrite true addr n v
    else if fn == 18 then s.fnRegWrite 0 addr n v
    else if fn ≤ 16 then s.fnRegWrite fn addr n v
    else s).run

/-- SMBUS_RESET [03 R76]. -/
def execSmbusReset (kind : BitVec 8) (s : State) : Out :=
  .next (match kind.toNat with
    | 1 => s.request 1 (fun s => s.coldReset 1)
    | 2 => s.warmReset
    | _ => s)

/-- The life-cycle transitions [03 R71]. -/
def lcsMay (now tgt : Nat) : Bool :=
  match now with
  | 0 => tgt == 1
  | 1 => tgt == 2 || tgt == 3
  | 2 => tgt == 3 || tgt == 4
  | 3 => tgt == 4
  | _ => false

/-- LIFECYCLE_TRANSITION: a command signed with the owner key that the table lists blows the fuses; the reset follows with the next step,
unless power fails first [03 R71, R72]. -/
def execLifecycleTransition (tgt : Nat) (sig : List (BitVec 8)) (s : State) : Out :=
  .next (if lcsMay s.mg.lcs.toNat tgt && Config.sigOk 0 (leOf 1 tgt) sig then
      s.request 2 (fun s => s.onMg (fun m => { m with lcs := BitVec.ofNat 3 tgt, wipe := true, stage := .fused }))
    else s)

/-- The leaves of a table of a tenant that map a range, and the tables below: the addresses of their entries [03 R67; 04 R91 to R93]. -/
def State.leavesOf (s : State) (lo n : Nat) : Nat → Nat → Nat → List Nat
  | 0, _, _ => []
  | f + 1, level, table =>
    (List.range (if level == 0 then 131072 else 32)).flatMap (fun i =>
      let a := table + 8 * i
      let e := leNum (mread (s.stack (paStack a)) (bitsAt a 0 36) 8)
      if bitsAt e 0 1 == 0 then []
      else if bitsAt e 1 1 == 0 then s.leavesOf lo n f (level + 1) (bitsAt e 8 32 * 2 ^ 8)
      else
        let pa := bitsAt e 20 41 * 2 ^ 16
        if bitsAt e 2 3 ≤ 1 && pa < lo + n && lo < pa + 2 ^ pageBits level then [a] else [])

/-- Every page-table leaf that maps a range marked as without write permission [03 R67]. -/
def State.sealLeaves (s : State) (lo n : Nat) : State :=
  let as := (List.range 16).flatMap (fun t => match s.rootTable t with | some root => s.leavesOf lo n 4 0 root | none => [])
  as.foldl (fun s a => s.hbmWrite (paStack a) (bitsAt a 0 36) (leOf 1 (leNum (mread (s.stack (paStack a)) (bitsAt a 0 36) 1) &&& 0x7F))) s

/-- Whether a window can be sealed: whole 2 MiB units of one populated stack, at most 64, none overlapped [03 R67]. -/
def State.maySeal (s : State) (base len : Nat) : Bool :=
  base % 0x200000 == 0 && len % 0x200000 == 0 && len != 0 && base < 2 ^ 40 && bitsAt base 0 36 + len ≤ stackLimit && s.mg.seals.length < 64 &&
    !s.sealedRange base len

/-- SEAL: the digest, the signed entry, the leaves without write permission [03 R67]; in every life-cycle state (log 10). -/
def execSealImage (base len ten : Nat) (s : State) : Out :=
  .next (if !s.maySeal base len || 16 ≤ ten then s
    else
      let w : SealWin := { base := base, len := len, ten := ten, dig := digestOf (mread (s.stack (paStack base)) (bitsAt base 0 36) len), sig := [] }
      (s.sealLeaves base len).onMg (fun m => { m with seals := m.seals ++ [{ w with sig := Config.signature w.bytes }] }))

/-- UNSEAL [03 R68]. -/
def execUnsealImage (base : Nat) (s : State) : Out := .next (s.onMg (fun m => { m with seals := m.seals.filter (fun w => w.base != base) }))

/-- The sensors as read: the highest reading of a die in 1/16 °C, the module power in W. -/
def State.sensed (s : State) (die : Nat) (t : Int) (w : Nat) : State :=
  s.onMg (fun m => { m with temps := tset m.temps die t, power := BitVec.ofNat 16 w })

/-- The causes of throttle that hold: bit 0 a sensor at 105 °C or more, bit 1 power above the limit [01 R13] (log 23). -/
def State.throttleCause (s : State) (t : Int) (w : Nat) : Nat := (if 1680 ≤ t then 1 else 0) + (if s.mg.plimit.toNat < w then 2 else 0)

/-- The cause of the last entry of a die into throttle. -/
def Mgmt.entryCause (m : Mgmt) (die : Nat) : Nat := ((m.thrLog.filter (fun x => x.1 == die && x.2.1)).getLast?.map (fun x => x.2.2)).getD 0

/-- THROTTLE_ENTRY: 105 °C, or power above the limit, recorded with the die and every cause that holds [01 R13; 04 R87]. -/
def execThrottleEntry (die : Nat) (t : Int) (w : Nat) (s : State) : Out :=
  let s1 := s.sensed die t w
  .next (if 4 < die then s
    else if (1680 ≤ t || s.mg.plimit.toNat < w) && !s.mg.throttle.contains die then
      (s1.onMg (fun m => { m with throttle := m.throttle ++ [die], thrLog := m.thrLog ++ [(die, true, s.throttleCause t w)] })).msi 0 1
    else s1)

/-- THROTTLE_EXIT: 100 °C or less and power below the limit, recorded with the die and the cause of the entry that ends
[01 R13; 04 R87] (log 23). -/
def execThrottleExit (die : Nat) (t : Int) (w : Nat) (s : State) : Out :=
  let s1 := s.sensed die t w
  .next (if 4 < die then s
    else if t ≤ 1600 && w < s.mg.plimit.toNat && s.mg.throttle.contains die then
      (s1.onMg (fun m => { m with throttle := m.throttle.filter (fun d => d != die), thrLog := m.thrLog ++ [(die, false, m.entryCause die)] })).msi 0 1
    else s1)

/-- OVERTEMP_CUT: at 115 °C power is removed [01 R15]. -/
def execOvertempCut (die : Nat) (t : Int) (s : State) : Out :=
  .next (if 4 < die then s
    else
      let s1 := s.onMg (fun m => { m with temps := tset m.temps die t })
      if 1840 ≤ t then s1.onMg (fun m => { m with powered := false, cause := 2, stage := .none }) else s1)

/-- FUNCTION_LEVEL_RESET of PF0: its queues are disabled and its registers clear, those of its BAR2; the device map of BAR0 is the device's and
stays, and commands of PF0 in progress end without a completion, which has no ring left (log 34) [04 R78]. -/
def execFunctionLevelReset (s : State) : Out :=
  .next (({ s with hs := { s.hs with runs := s.hs.runs.filter (fun r => r.fn != 0) } }).putFn 0 Fn.reset0)

/-- VF_ENABLE: tenant n - 1 exists from now on, with its image log at zero [03 R69, R73; 04 R78]. -/
def execVfEnable (vf : Nat) (s : State) : Out :=
  .next (if vf == 0 || 16 < vf || (s.fn vf).enabled then s
    else (s.putFn vf { Fn.reset0 with enabled := true }).onMg (fun m => { m with ilog := tdel m.ilog (vf - 1) }))

/-- VF_DISABLE: tenant n - 1 exists no longer [04 R78]. -/
def execVfDisable (vf : Nat) (s : State) : Out :=
  .next (if vf == 0 || 16 < vf then s else s.putFn vf { s.fn vf with enabled := false })

end Sys2Proof.Machine
end

