-- ==== Sys2Proof/Machine/Dispatch.lean ====
section
/-! DEFINITION. Dispatch: one arm per constructor of Instr, each one call of its meaning. -/

namespace Sys2Proof.Machine

/-- The meaning of an instruction or event. -/
def exec (i : Instr) (s : State) : Host.Outcome State Fault Refusal :=
  match i with
  | .add h d a b => Sys2Proof.Machine.execAdd h d a b s
  | .sub h d a b => Sys2Proof.Machine.execSub h d a b s
  | .and h d a b => Sys2Proof.Machine.execAnd h d a b s
  | .or h d a b => Sys2Proof.Machine.execOr h d a b s
  | .xor h d a b => Sys2Proof.Machine.execXor h d a b s
  | .sll h d a b => Sys2Proof.Machine.execSll h d a b s
  | .srl h d a b => Sys2Proof.Machine.execSrl h d a b s
  | .sra h d a b => Sys2Proof.Machine.execSra h d a b s
  | .slt h d a b => Sys2Proof.Machine.execSlt h d a b s
  | .sltu h d a b => Sys2Proof.Machine.execSltu h d a b s
  | .mul h d a b => Sys2Proof.Machine.execMul h d a b s
  | .mulh h d a b => Sys2Proof.Machine.execMulh h d a b s
  | .mulhu h d a b => Sys2Proof.Machine.execMulhu h d a b s
  | .min h d a b => Sys2Proof.Machine.execMin h d a b s
  | .max h d a b => Sys2Proof.Machine.execMax h d a b s
  | .addi h d a im => Sys2Proof.Machine.execAddi h d a im s
  | .andi h d a im => Sys2Proof.Machine.execAndi h d a im s
  | .ori h d a im => Sys2Proof.Machine.execOri h d a im s
  | .xori h d a im => Sys2Proof.Machine.execXori h d a im s
  | .slli h d a im => Sys2Proof.Machine.execSlli h d a im s
  | .srli h d a im => Sys2Proof.Machine.execSrli h d a im s
  | .srai h d a im => Sys2Proof.Machine.execSrai h d a im s
  | .slti h d a im => Sys2Proof.Machine.execSlti h d a im s
  | .sltiu h d a im => Sys2Proof.Machine.execSltiu h d a im s
  | .lui h d im => Sys2Proof.Machine.execLui h d im s
  | .ld1 h d a im => Sys2Proof.Machine.execLd1 h d a im s
  | .ld2 h d a im => Sys2Proof.Machine.execLd2 h d a im s
  | .ld4 h d a im => Sys2Proof.Machine.execLd4 h d a im s
  | .ld8 h d a im => Sys2Proof.Machine.execLd8 h d a im s
  | .ld1z h d a im => Sys2Proof.Machine.execLd1z h d a im s
  | .ld2z h d a im => Sys2Proof.Machine.execLd2z h d a im s
  | .ld4z h d a im => Sys2Proof.Machine.execLd4z h d a im s
  | .st1 h b a im => Sys2Proof.Machine.execSt1 h b a im s
  | .st2 h b a im => Sys2Proof.Machine.execSt2 h b a im s
  | .st4 h b a im => Sys2Proof.Machine.execSt4 h b a im s
  | .st8 h b a im => Sys2Proof.Machine.execSt8 h b a im s
  | .beq h b a im => Sys2Proof.Machine.execBeq h b a im s
  | .bne h b a im => Sys2Proof.Machine.execBne h b a im s
  | .blt h b a im => Sys2Proof.Machine.execBlt h b a im s
  | .bge h b a im => Sys2Proof.Machine.execBge h b a im s
  | .bltu h b a im => Sys2Proof.Machine.execBltu h b a im s
  | .bgeu h b a im => Sys2Proof.Machine.execBgeu h b a im s
  | .jal h d im => Sys2Proof.Machine.execJal h d im s
  | .jalr h d a im => Sys2Proof.Machine.execJalr h d a im s
  | .loopi h c im => Sys2Proof.Machine.execLoopi h c im s
  | .loopr h a im => Sys2Proof.Machine.execLoopr h a im s
  | .amadd h d a b e o z => Sys2Proof.Machine.execAmadd h d a b e o z s
  | .amswp h d a b e o z => Sys2Proof.Machine.execAmswp h d a b e o z s
  | .amcas h d a b e o z => Sys2Proof.Machine.execAmcas h d a b e o z s
  | .ammax h d a b e o z => Sys2Proof.Machine.execAmmax h d a b e o z s
  | .ammin h d a b e o z => Sys2Proof.Machine.execAmmin h d a b e o z s
  | .fence h e o => Sys2Proof.Machine.execFence h e o s
  | .xfence h p q o => Sys2Proof.Machine.execXfence h p q o s
  | .gload h d a f => Sys2Proof.Machine.execGload h d a f s
  | .cfgw h a b n => Sys2Proof.Machine.execCfgw h a b n s
  | .cfgwApply slot core elem => Sys2Proof.Machine.execCfgwApply slot core elem s
  | .kset h a b m => Sys2Proof.Machine.execKset h a b m s
  | .inj h a b => Sys2Proof.Machine.execInj h a b s
  | .injt h a b c r => Sys2Proof.Machine.execInjt h a b c r s
  | .mark h a m => Sys2Proof.Machine.execMark h a m s
  | .purge h d a => Sys2Proof.Machine.execPurge h d a s
  | .clrset h d a b => Sys2Proof.Machine.execClrset h d a b s
  | .dlq h d a f => Sys2Proof.Machine.execDlq h d a f s
  | .sbind h a b n => Sys2Proof.Machine.execSbind h a b n s
  | .sbar h d a => Sys2Proof.Machine.execSbar h d a s
  | .swait h d a im => Sys2Proof.Machine.execSwait h d a im s
  | .chstart h d a c => Sys2Proof.Machine.execChstart h d a c s
  | .chstat h d e c => Sys2Proof.Machine.execChstat h d e c s
  | .tbinit h a b => Sys2Proof.Machine.execTbinit h a b s
  | .tbarr h a b => Sys2Proof.Machine.execTbarr h a b s
  | .tbwait h d a b => Sys2Proof.Machine.execTbwait h d a b s
  | .qpushc h d a b => Sys2Proof.Machine.execQpushc h d a b s
  | .qclose h d a => Sys2Proof.Machine.execQclose h d a s
  | .tsigExit h x => Sys2Proof.Machine.execTsigExit h x s
  | .tsigMsi h v => Sys2Proof.Machine.execTsigMsi h v s
  | .tsigWake h a t => Sys2Proof.Machine.execTsigWake h a t s
  | .trap h c => Sys2Proof.Machine.execTrap h c s
  | .eret h => Sys2Proof.Machine.execEret h s
  | .wfe h => Sys2Proof.Machine.execWfe h s
  | .yield h => Sys2Proof.Machine.execYield h s
  | .csrr h d c => Sys2Proof.Machine.execCsrr h d c s
  | .csrw h d a c => Sys2Proof.Machine.execCsrw h d a c s
  | .csrs h d a c => Sys2Proof.Machine.execCsrs h d a c s
  | .csrc h d a c => Sys2Proof.Machine.execCsrc h d a c s
  | .asynchronousTrap slot core => Sys2Proof.Machine.execAsynchronousTrap slot core s
  | .illegal w => Sys2Proof.Machine.execIllegal w s
  | .steer h => Sys2Proof.Machine.execSteer h s
  | .select h => Sys2Proof.Machine.execSelect h s
  | .merge h => Sys2Proof.Machine.execMerge h s
  | .dup h => Sys2Proof.Machine.execDup h s
  | .sink h => Sys2Proof.Machine.execSink h s
  | .cinc h => Sys2Proof.Machine.execCinc h s
  | .center h => Sys2Proof.Machine.execCenter h s
  | .cexit h => Sys2Proof.Machine.execCexit h s
  | .loopn h count => Sys2Proof.Machine.execLoopn h count s
  | .loopnStep slot core elem node ctx => Sys2Proof.Machine.execLoopnStep slot core elem node ctx s
  | .invar h => Sys2Proof.Machine.execInvar h s
  | .purgen h => Sys2Proof.Machine.execPurgen h s
  | .gate h => Sys2Proof.Machine.execGate h s
  | .join h => Sys2Proof.Machine.execJoin h s
  | .barv h bcore bar => Sys2Proof.Machine.execBarv h bcore bar s
  | .barrierArrival slot core idx => Sys2Proof.Machine.execBarrierArrival slot core idx s
  | .barrierRelease slot core elem bcore bar => Sys2Proof.Machine.execBarrierRelease slot core elem bcore bar s
  | .qpop h => Sys2Proof.Machine.execQpop h s
  | .qtry h => Sys2Proof.Machine.execQtry h s
  | .eos h => Sys2Proof.Machine.execEos h s
  | .sadd h imm => Sys2Proof.Machine.execSadd h imm s
  | .ssub h imm => Sys2Proof.Machine.execSsub h imm s
  | .smul h imm => Sys2Proof.Machine.execSmul h imm s
  | .sand h imm => Sys2Proof.Machine.execSand h imm s
  | .sor h imm => Sys2Proof.Machine.execSor h imm s
  | .sxor h imm => Sys2Proof.Machine.execSxor h imm s
  | .sshl h imm => Sys2Proof.Machine.execSshl h imm s
  | .sshr h imm => Sys2Proof.Machine.execSshr h imm s
  | .ssra h imm => Sys2Proof.Machine.execSsra h imm s
  | .smin h imm => Sys2Proof.Machine.execSmin h imm s
  | .smax h imm => Sys2Proof.Machine.execSmax h imm s
  | .scmp h sel => Sys2Proof.Machine.execScmp h sel s
  | .ssel h => Sys2Proof.Machine.execSsel h s
  | .sconst h imm => Sys2Proof.Machine.execSconst h imm s
  | .skrd h sel => Sys2Proof.Machine.execSkrd h sel s
  | .sfadd h imm => Sys2Proof.Machine.execSfadd h imm s
  | .sfmul h imm => Sys2Proof.Machine.execSfmul h imm s
  | .scvt h l => Sys2Proof.Machine.execScvt h l s
  | .vadd h l => Sys2Proof.Machine.execVadd h l s
  | .vsub h l => Sys2Proof.Machine.execVsub h l s
  | .vmul h l => Sys2Proof.Machine.execVmul h l s
  | .vfma h l => Sys2Proof.Machine.execVfma h l s
  | .vmax h l => Sys2Proof.Machine.execVmax h l s
  | .vmin h l => Sys2Proof.Machine.execVmin h l s
  | .vabs h l => Sys2Proof.Machine.execVabs h l s
  | .vscl h l => Sys2Proof.Machine.execVscl h l s
  | .vmov h l => Sys2Proof.Machine.execVmov h l s
  | .vexp2 h l => Sys2Proof.Machine.execVexp2 h l s
  | .vlog2 h l => Sys2Proof.Machine.execVlog2 h l s
  | .vrcp h l => Sys2Proof.Machine.execVrcp h l s
  | .vrsq h l => Sys2Proof.Machine.execVrsq h l s
  | .vcvt h l => Sys2Proof.Machine.execVcvt h l s
  | .vbscale h l => Sys2Proof.Machine.execVbscale h l s
  | .vquant h l => Sys2Proof.Machine.execVquant h l s
  | .vrowmax h l => Sys2Proof.Machine.execVrowmax h l s
  | .vrowsum h l => Sys2Proof.Machine.execVrowsum h l s
  | .vsmx h l => Sys2Proof.Machine.execVsmx h l s
  | .vsmxf h l => Sys2Proof.Machine.execVsmxf h l s
  | .vtrans h l => Sys2Proof.Machine.execVtrans h l s
  | .vsel h l => Sys2Proof.Machine.execVsel h l s
  | .vcmp h l => Sys2Proof.Machine.execVcmp h l s
  | .vclamp h l => Sys2Proof.Machine.execVclamp h l s
  | .vbcast h l => Sys2Proof.Machine.execVbcast h l s
  | .vzero h l => Sys2Proof.Machine.execVzero h l s
  | .mclaim h l => Sys2Proof.Machine.execMclaim h l s
  | .mrel h l => Sys2Proof.Machine.execMrel h l s
  | .mldb h l => Sys2Proof.Machine.execMldb h l s
  | .mbcb h l => Sys2Proof.Machine.execMbcb h l s
  | .bBroadcast slot core => Sys2Proof.Machine.execBBroadcast slot core s
  | .msel h l => Sys2Proof.Machine.execMsel h l s
  | .mma h l => Sys2Proof.Machine.execMma h l s
  | .mmas h l => Sys2Proof.Machine.execMmas h l s
  | .mzero h l => Sys2Proof.Machine.execMzero h l s
  | .mdrn h l => Sys2Proof.Machine.execMdrn h l s
  | .msave h l => Sys2Proof.Machine.execMsave h l s
  | .mrest h l => Sys2Proof.Machine.execMrest h l s
  | .spld h l => Sys2Proof.Machine.execSpld h l s
  | .spst h l => Sys2Proof.Machine.execSpst h l s
  | .spw h l => Sys2Proof.Machine.execSpw h l s
  | .spup h l => Sys2Proof.Machine.execSpup h l s
  | .spdn h l => Sys2Proof.Machine.execSpdn h l s
  | .spmax h l => Sys2Proof.Machine.execSpmax h l s
  | .sparg h l => Sys2Proof.Machine.execSparg h l s
  | .spnrm h l => Sys2Proof.Machine.execSpnrm h l s
  | .spcvt h l => Sys2Proof.Machine.execSpcvt h l s
  | .spzero h l => Sys2Proof.Machine.execSpzero h l s
  | .aload h l => Sys2Proof.Machine.execAload h l s
  | .astore h l => Sys2Proof.Machine.execAstore h l s
  | .agath h l => Sys2Proof.Machine.execAgath h l s
  | .ascat h l => Sys2Proof.Machine.execAscat h l s
  | .acfg h l => Sys2Proof.Machine.execAcfg h l s
  | .aeos h l => Sys2Proof.Machine.execAeos h l s
  | .wld h l => Sys2Proof.Machine.execWld h l s
  | .wst h l => Sys2Proof.Machine.execWst h l s
  | .waveRelease slot core elem => Sys2Proof.Machine.execWaveRelease slot core elem s
  | .rld h l => Sys2Proof.Machine.execRld h l s
  | .rst h l => Sys2Proof.Machine.execRst h l s
  | .ratom h l => Sys2Proof.Machine.execRatom h l s
  | .rfen h => Sys2Proof.Machine.execRfen h s
  | .smsend h l => Sys2Proof.Machine.execSmsend h l s
  | .smrecv h l => Sys2Proof.Machine.execSmrecv h l s
  | .claunch h coll => Sys2Proof.Machine.execClaunch h coll s
  | .crecv h coll => Sys2Proof.Machine.execCrecv h coll s
  | .fencex h l => Sys2Proof.Machine.execFencex h l s
  | .tbarv h l => Sys2Proof.Machine.execTbarv h l s
  | .tokenLanding slot idx => Sys2Proof.Machine.execTokenLanding slot idx s
  | .talonRefetch slot core idx => Sys2Proof.Machine.execTalonRefetch slot core idx s
  | .markerTake slot core elem => Sys2Proof.Machine.execMarkerTake slot core elem s
  | .retirementSnapshot slot => Sys2Proof.Machine.execRetirementSnapshot slot s
  | .leadColourBroadcast slot core elem => Sys2Proof.Machine.execLeadColourBroadcast slot core elem s
  | .deadlock slot => Sys2Proof.Machine.execDeadlock slot s
  | .read idx => Sys2Proof.Machine.execRead idx s
  | .write idx => Sys2Proof.Machine.execWrite idx s
  | .maskedWrite idx => Sys2Proof.Machine.execMaskedWrite idx s
  | .memReply idx => Sys2Proof.Machine.execMemReply idx s
  | .requestTimeout idx => Sys2Proof.Machine.execRequestTimeout idx s
  | .parityAlert stack chan => Sys2Proof.Machine.execParityAlert stack chan s
  | .channelRetrain stack chan ok => Sys2Proof.Machine.execChannelRetrain stack chan ok s
  | .farChainFail stack => Sys2Proof.Machine.execFarChainFail stack s
  | .elementRequest edge idx => Sys2Proof.Machine.execElementRequest edge idx s
  | .gatherRowTimeout edge row => Sys2Proof.Machine.execGatherRowTimeout edge row s
  | .tableWalkRead unit idx => Sys2Proof.Machine.execTableWalkRead unit idx s
  | .recordRead slot core ch => Sys2Proof.Machine.execRecordRead slot core ch s
  | .sectorLand slot core ch idx => Sys2Proof.Machine.execSectorLand slot core ch idx s
  | .nop run => Sys2Proof.Machine.execNop run s
  | .imgreg run => Sys2Proof.Machine.execImgreg run s
  | .imgdrop run => Sys2Proof.Machine.execImgdrop run s
  | .launch run => Sys2Proof.Machine.execLaunch run s
  | .walk run => Sys2Proof.Machine.execWalk run s
  | .copy run => Sys2Proof.Machine.execCopy run s
  | .invtlb run => Sys2Proof.Machine.execInvtlb run s
  | .resrep run => Sys2Proof.Machine.execResrep run s
  | .attest run => Sys2Proof.Machine.execAttest run s
  | .extmeas run => Sys2Proof.Machine.execExtmeas run s
  | .cload run => Sys2Proof.Machine.execCload run s
  | .cgroup run => Sys2Proof.Machine.execCgroup run s
  | .cdrop run => Sys2Proof.Machine.execCdrop run s
  | .qdoor fn q v => Sys2Proof.Machine.execQdoor fn q v s
  | .queueEnable fn q v => Sys2Proof.Machine.execQueueEnable fn q v s
  | .queueDisable fn q v => Sys2Proof.Machine.execQueueDisable fn q v s
  | .qerrClear fn q => Sys2Proof.Machine.execQerrClear fn q s
  | .commandStart fn q => Sys2Proof.Machine.execCommandStart fn q s
  | .launchPacket p => Sys2Proof.Machine.execLaunchPacket p s
  | .bar2Read vf off n => Sys2Proof.Machine.execBar2Read vf off n s
  | .bar2Write vf off d => Sys2Proof.Machine.execBar2Write vf off d s
  | .bind slot => Sys2Proof.Machine.execBind slot s
  | .reconf slot => Sys2Proof.Machine.execReconf slot s
  | .freeze slot => Sys2Proof.Machine.execFreeze slot s
  | .restore slot => Sys2Proof.Machine.execRestore slot s
  | .release slot => Sys2Proof.Machine.execRelease slot s
  | .restart slot => Sys2Proof.Machine.execRestart slot s
  | .loadComplete slot => Sys2Proof.Machine.execLoadComplete slot s
  | .loadFault slot => Sys2Proof.Machine.execLoadFault slot s
  | .drainComplete slot => Sys2Proof.Machine.execDrainComplete slot s
  | .drainTimeout slot => Sys2Proof.Machine.execDrainTimeout slot s
  | .saveComplete slot => Sys2Proof.Machine.execSaveComplete slot s
  | .taskNode ten node => Sys2Proof.Machine.execTaskNode ten node s
  | .condNode ten node => Sys2Proof.Machine.execCondNode ten node s
  | .whileNode ten node => Sys2Proof.Machine.execWhileNode ten node s
  | .forkNode ten node => Sys2Proof.Machine.execForkNode ten node s
  | .endNode ten node => Sys2Proof.Machine.execEndNode ten node s
  | .coldReset => Sys2Proof.Machine.execColdReset s
  | .warmReset => Sys2Proof.Machine.execWarmReset s
  | .tenantReset ten => Sys2Proof.Machine.execTenantReset ten s
  | .regionReset slot => Sys2Proof.Machine.execRegionReset slot s
  | .powerOn => Sys2Proof.Machine.execPowerOn s
  | .secureEraseTimeout port => Sys2Proof.Machine.execSecureEraseTimeout port s
  | .lifecycleTransition tgt sig => Sys2Proof.Machine.execLifecycleTransition tgt sig s
  | .sealImage base len ten => Sys2Proof.Machine.execSealImage base len ten s
  | .unsealImage base => Sys2Proof.Machine.execUnsealImage base s
  | .throttleEntry die t w => Sys2Proof.Machine.execThrottleEntry die t w s
  | .throttleExit die t w => Sys2Proof.Machine.execThrottleExit die t w s
  | .overtempCut die t => Sys2Proof.Machine.execOvertempCut die t s
  | .rststatWrite v => Sys2Proof.Machine.execRststatWrite v s
  | .trimapWrite v => Sys2Proof.Machine.execTrimapWrite v s
  | .domcfgWrite v => Sys2Proof.Machine.execDomcfgWrite v s
  | .vwcfgWrite v => Sys2Proof.Machine.execVwcfgWrite v s
  | .vwKTakeEffect => Sys2Proof.Machine.execVwKTakeEffect s
  | .dlkcfgWrite v => Sys2Proof.Machine.execDlkcfgWrite v s
  | .twinWrite ten w v => Sys2Proof.Machine.execTwinWrite ten w v s
  | .hstatRead stack => Sys2Proof.Machine.execHstatRead stack s
  | .mestatRead edge => Sys2Proof.Machine.execMestatRead edge s
  | .vwstatRead => Sys2Proof.Machine.execVwstatRead s
  | .cstaleRead => Sys2Proof.Machine.execCstaleRead s
  | .frlostRead fn => Sys2Proof.Machine.execFrlostRead fn s
  | .registerWrite fn addr n v => Sys2Proof.Machine.execRegisterWrite fn addr n v s
  | .version => Sys2Proof.Machine.execVersion s
  | .status => Sys2Proof.Machine.execStatus s
  | .temp die => Sys2Proof.Machine.execTemp die s
  | .power => Sys2Proof.Machine.execPower s
  | .plimitRead => Sys2Proof.Machine.execPlimitRead s
  | .plimitWrite v => Sys2Proof.Machine.execPlimitWrite v s
  | .smbusRststat => Sys2Proof.Machine.execSmbusRststat s
  | .smbusHstat stack => Sys2Proof.Machine.execSmbusHstat stack s
  | .smbusReset kind => Sys2Proof.Machine.execSmbusReset kind s
  | .lcs => Sys2Proof.Machine.execLcs s
  | .devid => Sys2Proof.Machine.execDevid s
  | .fabricWrite p => Sys2Proof.Machine.execFabricWrite p s
  | .fabricReadRequest p => Sys2Proof.Machine.execFabricReadRequest p s
  | .fabricReadReply p => Sys2Proof.Machine.execFabricReadReply p s
  | .fabricAtomic p => Sys2Proof.Machine.execFabricAtomic p s
  | .fabricAtomicReply p => Sys2Proof.Machine.execFabricAtomicReply p s
  | .meldPacket p => Sys2Proof.Machine.execMeldPacket p s
  | .chunk p => Sys2Proof.Machine.execChunk p s
  | .custodyAck p => Sys2Proof.Machine.execCustodyAck p s
  | .deliveryAck p => Sys2Proof.Machine.execDeliveryAck p s
  | .connectionAck p => Sys2Proof.Machine.execConnectionAck p s
  | .errorNotice p => Sys2Proof.Machine.execErrorNotice p s
  | .hold p => Sys2Proof.Machine.execHold p s
  | .resume p => Sys2Proof.Machine.execResume p s
  | .abort p => Sys2Proof.Machine.execAbort p s
  | .armed p => Sys2Proof.Machine.execArmed p s
  | .syncMessage t => Sys2Proof.Machine.execSyncMessage t s
  | .syncLost => Sys2Proof.Machine.execSyncLost s
  | .custodyTimeout idx => Sys2Proof.Machine.execCustodyTimeout idx s
  | .connectionTimeout idx => Sys2Proof.Machine.execConnectionTimeout idx s
  | .ackTimer idx => Sys2Proof.Machine.execAckTimer idx s
  | .holdPacketTimeout idx => Sys2Proof.Machine.execHoldPacketTimeout idx s
  | .linkDown port => Sys2Proof.Machine.execLinkDown port s
  | .linkUp port => Sys2Proof.Machine.execLinkUp port s
  | .connectionFetch idx => Sys2Proof.Machine.execConnectionFetch idx s
  | .outputSegment unit red => Sys2Proof.Machine.execOutputSegment unit red s
  | .outputEnd unit red => Sys2Proof.Machine.execOutputEnd unit red s
  | .endAck p => Sys2Proof.Machine.execEndAck p s
  | .outputPacketArrival p => Sys2Proof.Machine.execOutputPacketArrival p s
  | .send ten coll trick => Sys2Proof.Machine.execSend ten coll trick s
  | .recv ten coll trick => Sys2Proof.Machine.execRecv ten coll trick s
  | .rreduce ten coll trick => Sys2Proof.Machine.execRreduce ten coll trick s
  | .trickCopy ten coll trick => Sys2Proof.Machine.execTrickCopy ten coll trick s
  | .meld ten coll trick => Sys2Proof.Machine.execMeld ten coll trick s
  | .signal ten coll trick => Sys2Proof.Machine.execSignal ten coll trick s
  | .trickComplete ten coll trick => Sys2Proof.Machine.execTrickComplete ten coll trick s
  | .collectiveTimeout ten coll => Sys2Proof.Machine.execCollectiveTimeout ten coll s
  | .holdLimit ten coll => Sys2Proof.Machine.execHoldLimit ten coll s
  | .peerHoldExpiry ten coll => Sys2Proof.Machine.execPeerHoldExpiry ten coll s
  | .secureEraseCompletion port => Sys2Proof.Machine.execSecureEraseCompletion port s
  | .powerFail => Sys2Proof.Machine.execPowerFail s
  | .functionLevelReset => Sys2Proof.Machine.execFunctionLevelReset s
  | .vfEnable vf => Sys2Proof.Machine.execVfEnable vf s
  | .vfDisable vf => Sys2Proof.Machine.execVfDisable vf s
  | .heldRequestDiscard idx => Sys2Proof.Machine.execHeldRequestDiscard idx s
  | .completionTimeout idx => Sys2Proof.Machine.execCompletionTimeout idx s
  | .connectionSetUp peer mode => Sys2Proof.Machine.execConnectionSetUp peer mode s

end Sys2Proof.Machine
end

