-- ==== Sys2Proof/Machine/Outside.lean ====
section
/-! DEFINITION. Acts of the outside, of firmware and of open timing that the table of events has no row for [01 R29, R32; 02 R37, R38; 03 R75,
R76; 04 R80] (logs 1, 6). -/

namespace Sys2Proof.Machine

/-- A link between two other devices goes down or comes up, as this device learns; packets that had no path are routed again [02 R38]. -/
def State.farLink (s : State) (a b : BitVec 8) (up : Bool) : State :=
  let rest := s.fb.downs.filter (fun l => !(l == (a, b) || l == (b, a)))
  if up then (s.withFb (fun f => { f with downs := rest })).retryHeld else s.withFb (fun f => { f with downs := rest ++ [(a, b)] })

/-- A command code that is not listed is NACKed [03 R76]. -/
def State.nack (s : State) : State := s.onMg (fun m => { m with nacks := m.nacks + 1 })

/-- A read of a sideband command code; RESET is written only, and a read of it answers nothing [03 R75, R76]. -/
def State.smbusRead (s : State) (code : Nat) : Out :=
  if code == 0 then execVersion s
  else if code == 1 then execStatus s
  else if 0x10 ≤ code && code ≤ 0x14 then execTemp (code - 0x10) s
  else if code == 0x20 then execPower s
  else if code == 0x21 then execPlimitRead s
  else if code == 0x30 then execSmbusRststat s
  else if 0x40 ≤ code && code ≤ 0x4F then execSmbusHstat (code - 0x40) s
  else if code == 0x50 then .next s
  else if code == 0x60 then execLcs s
  else if code == 0x61 then execDevid s
  else .next s.nack

/-- Whether a sideband command code is listed [03 R76]. -/
def smbusListed (code : Nat) : Bool :=
  code ≤ 1 || (0x10 ≤ code && code ≤ 0x14) || code == 0x20 || code == 0x21 || code == 0x30 || (0x40 ≤ code && code ≤ 0x50) || code == 0x60 || code == 0x61

/-- A write of a sideband command code: one whose Packet Error Code is wrong is ignored; PLIMIT and RESET alone are written, and a write of
another listed code changes nothing [03 R75, R76]. -/
def State.smbusWrite (s : State) (code v : Nat) (badPec : Bool) : Out :=
  if !smbusListed code then .next s.nack
  else if badPec then .next s
  else if code == 0x21 then execPlimitWrite (BitVec.ofNat 16 v) s
  else if code == 0x50 then execSmbusReset (BitVec.ofNat 8 v) s
  else .next s

/-- An act that is no event of the table. -/
def State.outside (s : State) (o : Outside) : Out :=
  match o with
  | .transmit port => .next (s.transmit port)
  | .portMode port ualink => .next (s.portMode port ualink)
  | .laneSpeed port slow => .next (if port < 32 then s.putPort port { s.port port with slow := slow } else s)
  | .laneFail port => .next (s.laneFail port).run
  | .hop slot idx => .next (s.hopToken slot idx)
  | .prefetch u thr space addr => .next (s.prefetch u thr space addr)
  | .farLink a b up => .next (s.farLink a b up)
  | .regRead fn addr n => .next (s.readReg fn addr n)
  | .saveBegin slot => .next (s.sendHolds slot).run
  | .walkTake ten => .next (s.walkTake ten).run
  | .smbusRead code => s.smbusRead code
  | .smbusWrite code v badPec => s.smbusWrite code v badPec

end Sys2Proof.Machine
end

