-- ==== Sys2Proof/Machine/Move.lean ====
section
/-! DEFINITION. What one move of the agenda does: a clk of a control core, a waiting unit, a firing arbiter, an event, time
[06 R152, R155; 07 R162; 12 R314] (log 1). -/

namespace Sys2Proof.Machine

/-- What follows a next state; a fault or refusal stays. -/
def thenOut (o : Out) (f : State → Out) : Out :=
  match o with
  | .next s => f s
  | .fault r => .fault r
  | .refused r => .refused r

/-- The state with the focus on a thread of a core. -/
def State.focusThread (s : State) (slot core thr : Nat) (w : W32) (issue : Bool) : State :=
  { s with focus := { s.focus with slot := slot, core := core, thr := thr, word := w, issue := issue } }

/-- The word at a thread's pc fetched, decoded and run; a word that is none, or no instruction, is ILLEGAL
[06 R155; 11 R272]. -/
def State.runWord (s : State) (slot core thr : Nat) (issue : Bool) : Out :=
  match s.region slot with
  | none => .next s
  | some r =>
    match (r.core core).fetch ((r.core core).thread thr).pc with
    | none => exec (.illegal none) (s.focusThread slot core thr 0 issue)
    | some w =>
      let s1 := (if issue then s.onRegion slot (fun r => r.putCore core ((r.core core).issued thr w)) else s).focusThread slot core thr w issue
      match decodeWord w.toNat with
      | .ok i => exec i s1
      | .error _ => exec (.illegal (some w)) s1

/-- The end of a core's clk. -/
def State.endClk (s : State) (slot core : Nat) : State := s.onRegion slot (fun r => r.putCore core (r.core core).endClk)

/-- Whether a core of a slot takes an asynchronous trap now. -/
def State.asyncAt (s : State) (slot core : Nat) : Bool := (s.region slot).any (fun r => (r.core core).asyncNow.isSome)

/-- Time has come to the clk of a core [00 R1]. -/
def State.reach (s : State) (r : Region) (core : Nat) : State := (s.setTime (max s.time (r.started + (r.core core).clk))).takeTurns

/-- One clk of a control core, a ns: what was issued becomes readable, a pending asynchronous trap is taken, and the thread whose turn it is
issues [00 R1; 06 R152, R153, R155]. -/
def State.coreClk (s0 : State) (slot core : Nat) : Out :=
  match s0.region slot with
  | none => .next s0
  | some r =>
    if !r.running || r.ncore ≤ core then .next s0
    else
      let s1 := (s0.reach r core).onRegion slot (fun r => r.putCore core ((r.core core).startClk r.now))
      thenOut (thenOut (if s1.asyncAt slot core then exec (.asynchronousTrap slot core) s1 else .next s1) (fun s2 =>
        match (s2.region slot).bind (fun r => (r.core core).pick) with
        | some i => s2.runWord slot core i true
        | none => .next s2)) (fun s3 => .next (s3.endClk slot core))

/-- A thread whose answer has arrived goes on. -/
def Thread.answered (t : Thread) : Thread :=
  match t.st with
  | .block .answer => { t with st := .run }
  | _ => t

/-- The unit that a blocked thread waits for answers, or looks at it again [12 R314]. -/
def State.pollThread (s : State) (slot core thr : Nat) : Out :=
  match s.region slot with
  | none => .next s
  | some r =>
    let t := (r.core core).thread thr
    if !r.running || r.ncore ≤ core then .next s
    else match t.st with
      | .block .answer => .next (s.putThread slot core thr t.answered)
      | .block (.retry _ _ _) => s.runWord slot core thr false
      | _ => .next s

/-- The tags and rows of the units that tokens at a node may form: of a token that is not sticky, of a sticky token at a
monadic node, and of a virtual zero [07 R158 to R160, R180]. -/
def Elem.unitsAt (e : Elem) (node : Nat) (mono : Bool) : List (BitVec 12 × BitVec 8 × BitVec 5) :=
  ((e.pool.filter (fun y => y.tok.node.toNat == node && (mono || y.tok.act != 1#2))).map (fun y => (y.tok.ctx, y.tok.colour, y.tok.row)) ++
    (e.vzeros.filter (fun z => z.node == node)).map (fun z => (z.ctx, z.colour, 0#5))).eraseDups

/-- The age key of a unit: the oldest colour first, then the lowest row [07 R162]. -/
def unitKey (lead : BitVec 8) (u : BitVec 12 × BitVec 8 × BitVec 5) : Nat := 32 * (u.2.1 - lead).toNat + u.2.2.toNat

/-- The order in which an arbiter looks at the nodes [07 R162]; before its first firing it begins at the node where it
stands (log 7). -/
def Elem.nodeOrder (e : Elem) : List Nat :=
  let n := e.nrec
  let next := (List.range n).map (fun i => (e.arb.cur + (if e.arb.run == 0 then 0 else 1) + i) % n)
  if e.arb.run < 64 && !e.arb.yld && e.arb.run != 0 then e.arb.cur :: next else next

/-- A firing that an arbiter may start: the node, tag and row of its unit, and its instruction. -/
abbrev Candidate := (Nat × BitVec 12 × BitVec 8 × BitVec 5) × Instr

/-- A candidate put in its place among candidates in order. -/
def insertUnit (lead : BitVec 8) (u : Candidate) : List Candidate → List Candidate
  | [] => [u]
  | v :: r => if unitKey lead u.1.2 ≤ unitKey lead v.1.2 then u :: v :: r else v :: insertUnit lead u r

/-- The step firings of the activations at a node [13 R324]. -/
def Elem.stepsAt (e : Elem) (slot core elem node : Nat) : List Candidate :=
  (e.loops.filter (fun a => a.node == node)).map (fun a => ((node, a.ctx, a.k, 0#5), .loopnStep slot core elem node a.ctx.toNat))

/-- The firings of a node's units [07 R160]. -/
def Elem.firingsAt (e : Elem) (node : Nat) : List Candidate :=
  match decodeOp (e.rec_ node).toNat with
  | .ok i => (e.unitsAt node ((recHd (e.rec_ node)).mm == 0#2)).map (fun u => ((node, u), i))
  | .error _ => []

/-- The candidates of an element in the arbiter's order: node by node, the oldest colour and the lowest row first [07 R162]. -/
def Elem.candidates (e : Elem) (slot core elem : Nat) : List Candidate :=
  e.nodeOrder.flatMap (fun n => (e.stepsAt slot core elem n ++ e.firingsAt n).foldr (insertUnit e.lead) [])

/-- The state with the focus on a unit of a node. -/
def State.focusUnit (s : State) (slot core elem : Nat) (u : Nat × BitVec 12 × BitVec 8 × BitVec 5) : State :=
  { s with focus := { s.focus with slot := slot, core := core, elem := elem, node := u.1, ctx := u.2.1, colour := u.2.2.1, row := some u.2.2.2 } }

/-- The arbiter of an element. -/
def State.arbOf (s : State) (slot core elem : Nat) : Option Arb := (s.region slot).map (fun r => (r.elem core elem).arb)

/-- Whether the firing of a node sends tokens after it has begun: a reply, a release, the end of a broadcast or of a stream
[07 R164, R167; 13 R327; 14 R349, R356; 15 R371]. -/
def sendsLater (i : Instr) : Bool :=
  match i with
  | .barv _ _ _ | .mbcb _ _ | .msave _ _ | .mrest _ _ | .aload _ _ | .astore _ _ | .agath _ _ | .ascat _ _ | .wld _ _ | .wst _ _ | .aeos _ _
  | .rld _ _ | .rst _ _ | .ratom _ _ | .rfen _ | .fencex _ _ | .tbarv _ _ | .qpop _ | .smsend _ _ | .smrecv _ _ | .claunch _ _ | .crecv _ _ => true
  | _ => false

/-- The tokens that a firing of a node has sent. -/
def Region.sentBy (r0 r1 : Region) (core elem node : Nat) : List Flight :=
  (r1.flight.drop r0.flight.length).filter (fun f =>
    match f.arc with | .node c e n _ => c == core && e == elem && n == node | _ => false)

/-- A token on each arc of a node on which a firing has sent none: one that it may send later. -/
def Region.owedBy (r : Region) (core elem node : Nat) (sent : List Flight) : List Flight :=
  let h := recHd ((r.elem core elem).rec_ node)
  [(0, h.d0), (1, h.d1)].filterMap (fun p =>
    let f : Flight := { arc := .node core elem node p.1, sender := core, tok := (Token.mk0 .nil 0 0 0 .none).to p.2 }
    if noDest p.2 || sent.any (fun g => g.arc == f.arc) then none else some f)

/-- Whether tokens can be placed at their elements, one after the other [07 R166]. -/
def State.placesAll (s : State) (slot : Nat) : List Flight → Bool
  | [] => true
  | f :: fs =>
    match s.region slot with
    | none => true
    | some r =>
      match (s.putRegion slot { r with flight := [f] }).landFlight slot 0 f with
      | some s1 => s1.placesAll slot fs
      | none => false

/-- Whether a firing of a node has credit for the first flit of every token that it sends, at once or later, and can place those that stay in its
element [07 R160, R167] (log 49). -/
def State.sentWithin (s s1 : State) (slot core elem node : Nat) (later : Bool) : Bool :=
  match s.region slot, s1.region slot with
  | some r, some r1 =>
    let sent := r.sentBy r1 core elem node
    let own := sent.filter (fun f => (r.pathOf slot f).isEmpty)
    s.hasCredit r slot (sent ++ (if later then r.owedBy core elem node sent else [])) &&
      own.all (fun f => !r.flight.any (fun g => g.arc == f.arc)) && s1.placesAll slot own
  | _, _ => true

/-- The first candidate whose firing begins, fired: a firing that has begun has changed the arbiter, and one that lacks the credit or the place for
a token does not begin [07 R160, R162, R167]. -/
def State.fireFirst (s : State) (slot core elem : Nat) : List Candidate → Out
  | [] => .next s
  | u :: rest =>
    match exec u.2 (s.focusUnit slot core elem u.1) with
    | .next s1 =>
      if s1.arbOf slot core elem == s.arbOf slot core elem || !s.sentWithin s1 slot core elem u.1.1 (sendsLater u.2) then s.fireFirst slot core elem rest
      else .next s1
    | o => o

/-- The firing arbiter of an element chooses: a waiting marker first, then a firing [07 R162]; on a throttled die a firing starts only
in an even clk [01 R13]. -/
def State.arbitrate (s : State) (slot core elem : Nat) : Out :=
  match s.region slot with
  | none => .next s
  | some r =>
    let e := r.elem core elem
    if !r.acts || r.ncore ≤ core || !e.used then .next s
    else if !e.markers.isEmpty then exec (.markerTake slot core elem) s
    else if !s.mayFire r core elem then .next s
    else s.fireFirst slot core elem (e.candidates slot core elem)

/-- Whether an instruction is an event: a step that no program word names. -/
def isEvent (i : Instr) : Bool :=
  match i with
  | .illegal _ => false
  | i => i.bits == 0

/-- Time passes, and with it the turns of requests that wait [05 R130]. -/
def State.pass (s : State) (ns : Nat) : State := (s.setTime (s.time + ns)).takeTurns

/-- What an event of the agenda does; the step of a loop is a firing, which its element's arbiter starts [07 R162; 13 R324]. -/
def State.event (s : State) (i : Instr) : Out :=
  match i with
  | .loopnStep slot core elem _ _ => s.arbitrate slot core elem
  | i => if isEvent i then exec i s else .next s

/-- One move; an instruction word is never an event of its own. -/
def State.move (s : State) (m : Move) : Out :=
  match m with
  | .core sl c => s.coreClk sl c
  | .poll sl c t => s.pollThread sl c t
  | .fire sl c e => s.arbitrate sl c e
  | .op i => s.event i
  | .tick n => .next (s.pass n)
  | .outside o => s.outside o

/-- Whether a move acts without power: power coming on; time passes [03 R63, R72]. -/
def Move.powersOn (m : Move) : Bool :=
  match m with
  | .op .powerOn => true
  | .tick _ => true
  | _ => false

/-- Whether a move acts while the device stays in reset, after a failed boot or in a warm reset that waits for its expanders: the sideband,
power, resets and what can request one, the expanders; time passes [03 R63, R64, R66, R72, R73, R75]. -/
def Move.resets (m : Move) : Bool :=
  match m with
  | .tick _ => true
  | .op i => (match i with
    | .powerOn | .coldReset | .powerFail | .smbusReset _ | .version | .status | .temp _ | .power | .plimitRead | .plimitWrite _
    | .smbusRststat | .smbusHstat _ | .lcs | .devid | .overtempCut _ _ | .throttleEntry _ _ _ | .throttleExit _ _ _
    | .secureEraseCompletion _ | .secureEraseTimeout _ | .warmReset | .lifecycleTransition _ _ => true
    | .registerWrite fn addr _ _ => (fn == 0 || fn == 17) && addr == 0
    | _ => false)
  | .outside o => (match o with | .smbusRead _ | .smbusWrite _ _ _ => true | _ => false)
  | _ => false

/-- With nothing on the agenda: the core of the focus runs a clk, its answered threads first; without a region there, a ns
passes (log 1). -/
def State.idle (s : State) : Out :=
  match s.region s.focus.slot with
  | none => .next (s.pass 1)
  | some r =>
    let c := r.core s.focus.core
    let c1 := (List.range 4).foldl (fun c i => c.putThread i (c.thread i).answered) c
    (s.putRegion s.focus.slot (r.putCore s.focus.core c1)).coreClk s.focus.slot s.focus.core

/-- Code memory with a word, at the start of a running region of one core whose thread 0 runs. -/
def fetchRegion (w : Nat) : Region :=
  let c : Core := { Core.empty with code := mwrite [] 0 (leOf 4 w), codeLen := 1, thr := [(0, { Thread.start 0 with st := .run })] }
  { Region.empty with cores := [(0, c)] }

/-- A record as node 0 of an element of its class, with an operand at every port that its match mode needs. -/
def fireRegion (w : Nat) : Region :=
  let cls := w / 2 ^ 93
  let op := w / 2 ^ 87 % 512
  let el := if op == 14 || op == 15 then 56 else match cls with
    | 2 => 16
    | 3 => 0
    | 4 => 32
    | 5 => 40
    | 6 => 56
    | _ => 16
  let r := BitVec.ofNat 96 w
  let t (p : BitVec 2) : Held := ⟨{ Token.scalarOf 0 0 0 with port := p }, .general, .none⟩
  let e : Elem := { Elem.empty with used := true, nrec := 1, npool := 8, ecw := [(4, 4#32)], recs := [(0, r)], pool := (mmPorts (recHd r).mm).map t }
  { Region.empty with cores := [(0, { Core.empty with elems := [(el, e)] })], next := 1, owners := [⟨0, 0⟩] }

/-- The state with a word placed where the next step runs it: a control-core word at the pc of a thread that runs, or a node
record in an element whose arbiter chooses next (log 1). -/
def State.placeWord (s : State) (nbits w : Nat) : State :=
  let r := if nbits ≤ 32 then fetchRegion (w % 2 ^ 32) else fireRegion (w % 2 ^ 96)
  let m : Move := if nbits ≤ 32 then .core 0 0 else .fire 0 0 ((r.core 0).elems.headD (0, Elem.empty)).1
  { s.putSlot 0 { s.slot 0 with st := 2, region := some r } with agenda := [m] }

/-- Whether a move is the loss of power. -/
def Move.powersOff (m : Move) : Bool :=
  match m with
  | .op i => (match i with | .powerFail | .overtempCut _ _ => true | _ => false)
  | _ => false

/-- Whether the device stays in reset: a failed boot, or a warm reset under way [03 R66, R73]. -/
def State.inReset (s : State) : Bool := s.mg.held || s.mg.stage != .none

/-- Whether the reset of a life-cycle change is the next thing to happen: its fuses are blown, and power does not fail first
[03 R72]. -/
def State.resetsNow (s : State) : Bool := s.mg.powered && s.mg.stage == .fused && !(s.agenda.head?.any Move.powersOff)

/-- One step: the next move of the agenda, or what happens of itself.  Without power nothing acts but power coming on, and the machine
stops when nothing more is on the agenda; in reset only the sideband, power, resets and expanders act. -/
def State.advance (s : State) : Out :=
  if s.resetsNow then .next (s.lifeReset 4)
  else match s.agenda with
  | [] => if !s.mg.powered then .fault .powerRemoved else if s.inReset then .next (s.pass 1) else s.idle
  | m :: rest =>
    let s1 := { s with agenda := rest }
    if (!s.mg.powered && !m.powersOn) || (s.inReset && !m.resets && !m.powersOff) then .next s1 else s1.move m

end Sys2Proof.Machine
end

