-- ==== Sys2Proof/Machine/Step.lean ====
section
/-! DEFINITION. Step: one step of the machine, and the placing of one word for the next step. -/

namespace Sys2Proof.Machine

/-- One step of the machine [95]: one move of the agenda, or what happens of itself (log 1). -/
def step (s : State) : Host.Outcome State Fault Refusal := s.advance

/-- The state with an instruction placed where the next step runs it (log 1). -/
def State.withFetchWord (s : State) (nbits w : Nat) : State := s.placeWord nbits w

end Sys2Proof.Machine
end

