-- ==== Sys2Proof/Certificates/Slice0/Obligations.lean ====
section
/-! DEFINITION. The statements for the provers: one `def Obligations.<Name> : Prop` each, over the helpers of `Sys2Proof.Claims`. -/

namespace Sys2Proof.Claims

open Sys2Proof Sys2Proof.Machine

/-! Reading the machine -/

/-- Every byte of memory reads as before: stacks, expanders, host memory, and the buffers of every core. -/
def SameMemory (s t : State) : Prop :=
  (∀ l, t.locRead l 1 = s.locRead l 1) ∧ ∀ sl c b a, t.bufRead sl c b a 1 = s.bufRead sl c b a 1

/-- The parts of the machine outside regions and the memory system, and every other slot, are as before. -/
def SameOutside (sl : Nat) (s t : State) : Prop :=
  t.mg = s.mg ∧ t.hs = s.hs ∧ t.fb = s.fb ∧ t.wk = s.wk ∧ t.time = s.time ∧ t.msis = s.msis ∧
    ∀ i, i ≠ sl → t.slot i = s.slot i

/-- Every thread but one is as before, and so are the elements, barriers, copy channels and buffers of every core. -/
def OnlyThread (sl c th : Nat) (s t : State) : Prop :=
  SameOutside sl s t ∧ SameMemory s t ∧
    (∀ sl' c' th', (sl', c', th') ≠ (sl, c, th) → t.thread sl' c' th' = s.thread sl' c' th') ∧
    ∀ r r', s.region sl = some r → t.region sl = some r' →
      r'.flight = r.flight ∧ r'.lead = r.lead ∧ r'.next = r.next ∧ r'.owners = r.owners ∧
      (∀ c' e, r'.elem c' e = r.elem c' e) ∧
      ∀ c', (r'.core c').bars = (r.core c').bars ∧ (r'.core c').chans = (r.core c').chans ∧ (r'.core c').evpend = (r.core c').evpend ∧
        (r'.core c').counts = (r.core c').counts ∧ (r'.core c').code = (r.core c').code

/-- The exception registers and the CSRs of a thread that no instruction but CSRW, CSRS, CSRC, a trap and ERET writes. -/
def SameTrapRegs (a b : Thread) : Prop :=
  b.ie = a.ie ∧ b.inh = a.inh ∧ b.tvec = a.tvec ∧ b.epc = a.epc ∧ b.cause = a.cause ∧ b.tval = a.tval ∧ b.scratch = a.scratch

/-! The control core -/

/-- The focus's thread past an instruction that transfers no control: its result in RD readable `lat` clk later and discarded for
register 0 [06 R153; 11 R268], the pc by 4 or by the hardware loop [12 R276, R287]. -/
def past (k : Cc) (d : BitVec 5) (lat : Nat) (v : Word) : Thread :=
  let p := if d = 0#5 then k.t.pend else k.t.pend ++ [⟨k.c.clk + lat, d, v⟩]
  if k.t.lcnt ≠ 0#64 ∧ k.t.pc = k.t.lend - 4#64 then
    if k.t.lcnt = 1#64 then { k.t with pend := p, lcnt := 0#64, pc := k.t.lend }
    else { k.t with pend := p, lcnt := k.t.lcnt - 1#64, pc := k.t.lbeg }
  else { k.t with pend := p, pc := k.t.pc + 4#64 }

/-- An instruction answers the state in which the focus's thread is `t` and nothing else has changed. -/
def givesThread (s : State) (k : Cc) (i : Instr) (t : Thread) : Prop :=
  exec i s = .next (s.putThread k.slot k.core k.thr t)

/-- The focus's thread blocked until a clk. -/
def until_ (k : Cc) (lat : Nat) (t : Thread) : Thread := { t with st := .block (.till (k.c.clk + lat)) }

/-- The focus's thread past an instruction whose answer a unit gives: the thread is blocked until the answer arrives, and its next instruction reads it
in RD [06 R153]. -/
def answered (k : Cc) (d : BitVec 5) (v : Word) : Thread := { past k d 0 v with st := .block .answer }

/-- 1 or 0. -/
def bit (p : Prop) [Decidable p] : Word := if p then 1#64 else 0#64

/-- The entry into the trap handler of the focus's thread [06 R155]. -/
def trapped (k : Cc) (code : Nat) (tv epc : Word) : Thread :=
  { k.t with epc := epc, cause := BitVec.ofNat 8 code, tval := tv, inh := true, pc := k.t.tvec &&& ~~~3#64, st := .run }

end Sys2Proof.Claims

open Sys2Proof Sys2Proof.Machine Sys2Proof.Claims

/-- R280: what each instruction of the ALU group writes to RD, as integers, and when it is readable. -/
def Obligations.AluRegisterResult : Prop :=
  ∀ (s : State) (k : Cc), s.ccOf = some k → ∀ (h : CcHd) (d a b : BitVec 5),
    let x := k.t.rd a
    let y := k.t.rd b
    let n := y.toNat % 64
    let res (i : Instr) (lat : Nat) (v : Word) : Prop := givesThread s k i (past k d lat v)
    res (.add h d a b) 2 (BitVec.ofNat 64 (x.toNat + y.toNat)) ∧
    res (.sub h d a b) 2 (BitVec.ofInt 64 (x.toInt - y.toInt)) ∧
    res (.and h d a b) 2 (x &&& y) ∧
    res (.or h d a b) 2 (x ||| y) ∧
    res (.xor h d a b) 2 (x ^^^ y) ∧
    res (.sll h d a b) 2 (BitVec.ofNat 64 (x.toNat * 2 ^ n)) ∧
    res (.srl h d a b) 2 (BitVec.ofNat 64 (x.toNat / 2 ^ n)) ∧
    res (.sra h d a b) 2 (BitVec.ofInt 64 (x.toInt / 2 ^ n)) ∧
    res (.slt h d a b) 2 (bit (x.toInt < y.toInt)) ∧
    res (.sltu h d a b) 2 (bit (x.toNat < y.toNat)) ∧
    res (.mul h d a b) 4 (BitVec.ofNat 64 (x.toNat * y.toNat)) ∧
    res (.mulh h d a b) 4 ((x.signExtend 128 * y.signExtend 128).extractLsb' 64 64) ∧
    res (.mulhu h d a b) 4 ((x.setWidth 128 * y.setWidth 128).extractLsb' 64 64) ∧
    res (.min h d a b) 2 (if x.toInt ≤ y.toInt then x else y) ∧
    res (.max h d a b) 2 (if x.toInt ≤ y.toInt then y else x)

/-- R281: what each immediate form writes to RD, all after 2 clk. -/
def Obligations.ImmediateResult : Prop :=
  ∀ (s : State) (k : Cc), s.ccOf = some k → ∀ (h : CcHd) (d a : BitVec 5) (i : BitVec 13) (n : BitVec 6) (u : BitVec 18),
    let x := k.t.rd a
    let res (i : Instr) (v : Word) : Prop := givesThread s k i (past k d 2 v)
    res (.addi h d a i) (BitVec.ofInt 64 (x.toInt + i.toInt)) ∧
    res (.andi h d a i) (x &&& BitVec.ofNat 64 i.toNat) ∧
    res (.ori h d a i) (x ||| BitVec.ofNat 64 i.toNat) ∧
    res (.xori h d a i) (x ^^^ BitVec.ofNat 64 i.toNat) ∧
    res (.slli h d a n) (BitVec.ofNat 64 (x.toNat * 2 ^ n.toNat)) ∧
    res (.srli h d a n) (BitVec.ofNat 64 (x.toNat / 2 ^ n.toNat)) ∧
    res (.srai h d a n) (BitVec.ofInt 64 (x.toInt / 2 ^ n.toNat)) ∧
    res (.slti h d a i) (bit (x.toInt < i.toInt)) ∧
    res (.sltiu h d a i) (bit (x.toNat < (BitVec.ofInt 64 i.toInt).toNat)) ∧
    res (.lui h d u) (BitVec.ofInt 64 (u.toInt * 2 ^ 13))

/-- R284, R285, R286: branches, jumps and the start of a hardware loop. -/
def Obligations.ControlFlowResult : Prop :=
  ∀ (s : State) (k : Cc), s.ccOf = some k → ∀ (h : CcHd) (d a b : BitVec 5) (i : BitVec 13) (u : BitVec 18) (c : BitVec 10),
    let x := k.t.rd a
    let y := k.t.rd b
    let goes (p : Prop) [Decidable p] : Thread :=
      if p then { k.t with pc := BitVec.ofInt 64 (k.t.pc.toInt + 4 * i.toInt) } else past k 0 0 0
    let link (pc : Word) : Thread :=
      { k.t with pend := if d = 0#5 then k.t.pend else k.t.pend ++ [⟨k.c.clk + 2, d, k.t.pc + 4⟩], pc := pc }
    let loop (n : Nat) : Thread :=
      let e := k.t.pc + 4 + 4 * BitVec.ofNat 64 i.toNat
      { k.t with lbeg := k.t.pc + 4, lend := e, lcnt := BitVec.ofNat 64 n, pc := if n = 0 then e else k.t.pc + 4 }
    givesThread s k (.beq h b a i) (goes (x = y)) ∧
    givesThread s k (.bne h b a i) (goes (x ≠ y)) ∧
    givesThread s k (.blt h b a i) (goes (x.toInt < y.toInt)) ∧
    givesThread s k (.bge h b a i) (goes (x.toInt ≥ y.toInt)) ∧
    givesThread s k (.bltu h b a i) (goes (x.toNat < y.toNat)) ∧
    givesThread s k (.bgeu h b a i) (goes (x.toNat ≥ y.toNat)) ∧
    givesThread s k (.jal h d u) (link (BitVec.ofInt 64 (k.t.pc.toInt + 4 * u.toInt))) ∧
    ((x.toInt + i.toInt) % 4 = 0 → givesThread s k (.jalr h d a i) (link (BitVec.ofInt 64 (x.toInt + i.toInt)))) ∧
    (i ≠ 0#13 → givesThread s k (.loopi h c i) (loop c.toNat)) ∧
    (i ≠ 0#13 → givesThread s k (.loopr h a i) (loop (x.toNat % 2 ^ 32)))

/-- R154, R155, R311, R312, R313: TRAP enters the handler with EPC at the next word, ERET returns, WFE consumes the event or waits, YIELD goes on, and CSRR, CSRW, CSRS and CSRC answer the old
value and write the new one 2 clk later; the loop registers at once. What the hardware loop does at a word that writes its own registers is the model's (log 46). -/
def Obligations.SystemGroupResult : Prop :=
  ∀ (s : State) (k : Cc), s.ccOf = some k → ∀ (h : CcHd) (d a : BitVec 5) (c : BitVec 10) (n : BitVec 12) (old : Word),
    let x := k.t.rd a
    let after (v : Word) : Thread :=
      let t := past k d 2 old
      if n = 0x008#12 then { t with lcnt := v } else if n = 0x009#12 then { t with lbeg := v }
      else if n = 0x00A#12 then { t with lend := v } else { t with csrPend := t.csrPend ++ [⟨k.c.clk + 2, n, v⟩] }
    (k.t.inh = false → k.t.tvec &&& ~~~3#64 ≠ 0#64 →
      givesThread s k (.trap h c) (trapped k 5 (BitVec.ofNat 64 c.toNat) (k.t.pc + 4))) ∧
    givesThread s k (.eret h) { k.t with pc := k.t.epc, inh := false } ∧
    (k.t.event = true → givesThread s k (.wfe h) { past k 0 0 0 with event := false }) ∧
    (k.t.event = false → givesThread s k (.wfe h) { k.t with st := .wfe false }) ∧
    (∃ t, exec (.yield h) s = .next t ∧ t.thread k.slot k.core k.thr = past k 0 0 0 ∧
      ∀ r, t.region k.slot = some r → (r.core k.core).cur = if k.c.cur = k.thr then (k.thr + 1) % 4 else k.c.cur) ∧
    (s.csrRead k n.toNat = some old → givesThread s k (.csrr h d n) (past k d 2 old)) ∧
    (s.csrRead k n.toNat = some old → csrWritable n.toNat = true →
      givesThread s k (.csrw h d a n) (after x) ∧
      givesThread s k (.csrs h d a n) (after (if n = 0x104#12 then x else old ||| x)) ∧
      givesThread s k (.csrc h d a n) (if n = 0x104#12 then past k d 2 old else after (old &&& ~~~x)))

/-- R155, R277, R285, R286, R288, R292, R299, R300, R303, R305, R307 to R310, R313: each trap that a control-core instruction raises when it issues: ILLEGAL of words and
operands, MISALIGN, LACCESS of windows, elements and cores, TRAPI, CSRBAD. A thread that can enter its handler has EPC at the instruction (at the next for
TRAP), CAUSE, TVAL, INH and the pc; one that cannot is in HALT, and the device records OPFAULT with INFO1 0x100 plus the code; nothing else changes (R279). -/
def Obligations.SynchronousTrapEntry : Prop :=
  ∀ (s : State) (k : Cc), s.ccOf = some k → ∀ (h : CcHd) (d a b : BitVec 5) (i : BitVec 13) (c : BitVec 10) (n : BitVec 12) (w : W32) (e o l : BitVec 3)
    (z t : BitVec 2) (m : BitVec 8) (f : BitVec 4),
    let entry (code : Nat) (tv epc : Word) : State :=
      if k.t.inh = false ∧ k.t.tvec &&& ~~~3#64 ≠ 0#64 then s.putThread k.slot k.core k.thr (trapped k code tv epc)
      else (s.putThread k.slot k.core k.thr { k.t with st := .halt }).record k.r.ten k.slot 0xFFFF 0 0
        { cls := 9, va := 0, acc := 6, info1 := BitVec.ofNat 64 (0x100 + code), info2 := 0 }
    let traps (j : Instr) (code : Nat) (tv : Word) : Prop := exec j s = .next (entry code tv k.t.pc)
    let x := k.t.rd a
    let y := k.t.rd b
    let va := x + i.signExtend 64
    let word := BitVec.ofNat 64 s.focus.word.toNat
    let outside (v : Word) (size : Nat) : Prop := isWindow v = true ∧ k.r.window v size = none
    let noElem (aeOnly : Bool) : Prop :=
      ¬(x.toNat / 64 % 64 < k.r.ncore ∧ (k.r.elem (x.toNat / 64 % 64) (x.toNat % 64)).used = true ∧
        (aeOnly = true → elemClass (x.toNat % 64) = 3))
    let named := BitVec.ofNat 64 (x.toNat % 4096)
    let kind := x.toNat / 2 ^ 60
    let header : Prop := x.toNat / 2 ^ 58 % 4 ≠ 3 ∧ x.toNat / 2 ^ 56 % 4 ≠ 3 ∧ x.toNat / 2 ^ 8 % 16 = 0 ∧
      (kind = 6 → 1 ≤ x.toNat % 256 ∧ x.toNat % 256 ≤ 0x11)
    let tiles : Prop := kind = 3 ∨ (kind = 1 ∨ kind = 2) ∧ e = 0 ∧ d = 0
    let core := x.toNat / 2 ^ 38 % 64
    traps (.illegal (some w)) 0 (BitVec.ofNat 64 w.toNat) ∧ traps (.illegal none) 0 k.t.pc ∧
    exec (.trap h c) s = .next (entry 5 (BitVec.ofNat 64 c.toNat) (k.t.pc + 4)) ∧
    traps (.loopi h c 0) 0 word ∧ traps (.loopr h a 0) 0 word ∧
    (va.toNat % 4 ≠ 0 → traps (.jalr h d a i) 1 va) ∧
    (va.toNat % 2 ≠ 0 → traps (.ld2 h d a i) 1 va ∧ traps (.ld2z h d a i) 1 va ∧ traps (.st2 h b a i) 1 va) ∧
    (va.toNat % 4 ≠ 0 → traps (.ld4 h d a i) 1 va ∧ traps (.ld4z h d a i) 1 va ∧ traps (.st4 h b a i) 1 va) ∧
    (va.toNat % 8 ≠ 0 → traps (.ld8 h d a i) 1 va ∧ traps (.st8 h b a i) 1 va) ∧
    (outside va 1 → traps (.ld1 h d a i) 2 va ∧ traps (.ld1z h d a i) 2 va ∧ traps (.st1 h b a i) 2 va) ∧
    (outside va 2 → va.toNat % 2 = 0 → traps (.ld2 h d a i) 2 va ∧ traps (.ld2z h d a i) 2 va ∧ traps (.st2 h b a i) 2 va) ∧
    (outside va 4 → va.toNat % 4 = 0 → traps (.ld4 h d a i) 2 va ∧ traps (.ld4z h d a i) 2 va ∧ traps (.st4 h b a i) 2 va) ∧
    (outside va 8 → va.toNat % 8 = 0 → traps (.ld8 h d a i) 2 va ∧ traps (.st8 h b a i) 2 va) ∧
    (x.toNat % 2 ^ z.toNat ≠ 0 →
      traps (.amadd h d a b e o z) 1 x ∧ traps (.amswp h d a b e o z) 1 x ∧ traps (.amcas h d a b e o z) 1 x ∧
      traps (.ammax h d a b e o z) 1 x ∧ traps (.ammin h d a b e o z) 1 x) ∧
    (outside x (2 ^ z.toNat) → x.toNat % 2 ^ z.toNat = 0 →
      traps (.amadd h d a b e o z) 2 x ∧ traps (.amswp h d a b e o z) 2 x ∧ traps (.amcas h d a b e o z) 2 x ∧
      traps (.ammax h d a b e o z) 2 x ∧ traps (.ammin h d a b e o z) 2 x) ∧
    (0x24 ≤ m.toNat → traps (.gload h d a m) 0 word) ∧ (t ≠ 2#2 → a ≠ 0#5 → traps (.dlq h d a t) 0 word) ∧
    (noElem false → (m.toNat < 0x24 → traps (.gload h d a m) 2 named) ∧ traps (.clrset h d a b) 2 named ∧ traps (.cfgw h a b f) 2 named ∧
      (k.t.st = .run → traps (.kset h a b m) 2 named)) ∧
    (noElem true → traps (.sbar h d a) 2 named ∧ (k.t.st = .run → traps (.swait h d a i) 2 named) ∧
      (k.t.st = .run → l.toNat < 5 → layoutOk l.toNat y = true → traps (.sbind h a b l) 2 named)) ∧
    (k.t.st = .run → 5 ≤ l.toNat ∨ layoutOk l.toNat y = false → traps (.sbind h a b l) 0 word) ∧
    (¬noElem false → k.r.live = 0 → (k.r.elem (x.toNat / 64 % 64) (x.toNat % 64)).cfgWait = [] →
      k.r.cfgwOk (x.toNat / 64 % 64) (x.toNat % 64) f.toNat (BitVec.ofNat 32 y.toNat) = false → traps (.cfgw h a b f) 6 (BitVec.ofNat 64 f.toNat)) ∧
    (k.t.st = .run → k.r.ncore ≤ x.toNat / 64 % 64 → traps (.mark h a m) 2 named) ∧
    (k.t.st = .run → kind ∉ [0, 4, 5, 6, 8] ∨ ¬header → traps (.inj h a b) 0 word) ∧
    (k.t.st = .run → kind ∈ [0, 4, 5, 6, 8] → header → k.r.ncore ≤ core → traps (.inj h a b) 2 (BitVec.ofNat 64 (x.toNat / 2 ^ 32 % 4096))) ∧
    (k.t.st = .run → ¬tiles ∨ ¬header → traps (.injt h a b e d) 0 word) ∧
    (k.t.st = .run → tiles → header → (k.r.ncore ≤ core → traps (.injt h a b e d) 2 (BitVec.ofNat 64 (x.toNat / 2 ^ 32 % 4096))) ∧
      (core < k.r.ncore → y.toNat % 32 ≠ 0 → traps (.injt h a b e d) 1 y) ∧
      (core < k.r.ncore → y.toNat % 32 = 0 → ∀ len, injtBytes kind e d = some len → k.r.window y len = none → traps (.injt h a b e d) 2 y)) ∧
    (x.toNat % 64 ≠ 0 → traps (.chstart h d a f) 1 x ∧ traps (.qpushc h d a b) 1 x ∧ traps (.qclose h d a) 1 x) ∧
    (x.toNat % 16 ≠ 0 → traps (.tbinit h a b) 1 x ∧ traps (.tbarr h a b) 1 x ∧ (k.t.st = .run → traps (.tbwait h d a b) 1 x)) ∧
    (x.toNat % 16 = 0 → k.r.window x 16 = none → traps (.tbinit h a b) 2 x ∧ traps (.tbarr h a b) 2 x ∧
      (k.t.st = .run → traps (.tbwait h d a b) 2 x)) ∧
    (x.toNat % 64 = 0 → (y.toNat % 16 ≠ 0 → traps (.qpushc h d a b) 1 y) ∧ (y.toNat % 16 = 0 → k.r.window y 16 = none → traps (.qpushc h d a b) 2 y)) ∧
    (6 ≤ o.toNat → traps (.tsigMsi h o) 0 word) ∧ (k.r.ncore ≤ x.toNat % 64 → traps (.tsigWake h a t) 2 (BitVec.ofNat 64 (x.toNat % 64))) ∧
    (s.csrRead k n.toNat = none → traps (.csrr h d n) 6 (BitVec.ofNat 64 n.toNat)) ∧
    (csrWritable n.toNat = false →
      traps (.csrw h d a n) 6 (BitVec.ofNat 64 n.toNat) ∧ traps (.csrs h d a n) 6 (BitVec.ofNat 64 n.toNat) ∧
      traps (.csrc h d a n) 6 (BitVec.ofNat 64 n.toNat))

/-- R153: a register reads the write that became readable last by that clk, of two that became readable in one clk the later issued; a write that is not
readable yet is not read; s0 reads as 0 (R268). -/
def Obligations.RegisterReadAfterLatency : Prop :=
  ∀ (t : Thread) (clk : Nat) (n : BitVec 5),
    let mine (j : Nat) (q : RegPend) : Prop := t.pend[j]? = some q ∧ q.reg = n ∧ q.ready ≤ clk
    (t.commit clk).rd 0 = 0#64 ∧
    (n ≠ 0#5 → (∀ j q, ¬mine j q) → (t.commit clk).rd n = t.rd n) ∧
    ∀ j p, n ≠ 0#5 → mine j p → (∀ i q, mine i q → q.ready < p.ready ∨ q.ready = p.ready ∧ i ≤ j) → (t.commit clk).rd n = p.v

/-- The instructions that act only on the thread's own registers: the ALU and immediate forms, branches, JAL, ERET and WFE. -/
def Sys2Proof.Claims.registerOnly (i : Instr) : Bool :=
  match i with
  | .add .. | .sub .. | .and .. | .or .. | .xor .. | .sll .. | .srl .. | .sra .. | .slt .. | .sltu .. | .mul .. | .mulh .. | .mulhu ..
  | .min .. | .max .. | .addi .. | .andi .. | .ori .. | .xori .. | .slli .. | .srli .. | .srai .. | .slti .. | .sltiu .. | .lui ..
  | .beq .. | .bne .. | .blt .. | .bge .. | .bltu .. | .bgeu .. | .jal .. | .wfe .. => true
  | _ => false

/-- R276, R279, R280, R281, R284, R285, R312: the frame of the instructions that act on registers: every byte of memory, every other thread, every element and unit, and this thread's
special registers are unchanged; of its registers at most the destination gets a pending write. -/
def Obligations.RegisterInstructionFrame : Prop :=
  ∀ (i : Instr) (s t : State) (k : Cc), registerOnly i = true → s.ccOf = some k → exec i s = .next t →
    OnlyThread k.slot k.core k.thr s t ∧ t.ms = s.ms ∧
    SameTrapRegs k.t (t.thread k.slot k.core k.thr) ∧
    (t.thread k.slot k.core k.thr).regs = k.t.regs ∧ (t.thread k.slot k.core k.thr).csrPend = k.t.csrPend ∧
    ((t.thread k.slot k.core k.thr).pend = k.t.pend ∨
      ∃ (d : BitVec 5) (r : Nat) (v : Word), d ≠ 0#5 ∧ (t.thread k.slot k.core k.thr).pend = k.t.pend ++ [⟨r, d, v⟩])

/-! Loads, stores, atomics and fences of the control core -/

/-- A number of `n` bytes sign-extended to a word. -/
def Sys2Proof.Claims.sextBytes (n v : Nat) : Word := BitVec.ofInt 64 (BitVec.ofNat (8 * n) v).toInt

/-- R282: a load of the buffer window gives the bytes that the thread reads there, sign- or zero-extended, after 4 clk; the thread blocks
until then (R278). -/
def Obligations.BufferLoadResult : Prop :=
  ∀ (s : State) (k : Cc), s.ccOf = some k → ∀ (h : CcHd) (d a : BitVec 5) (i : BitVec 13),
    let va := k.t.rd a + i.signExtend 64
    let load (j : Instr) (n : Nat) (ext : Nat → Word) : Prop :=
      ∀ b off, k.r.window va n = some (b, off) → va.toNat % n = 0 →
        let rd := s.bufReadAs (.cc k.slot k.core) k.thr k.slot k.core b off n
        exec j s = .next (rd.1.putThread k.slot k.core k.thr (until_ k 4 (past k d 4 (ext (leNum rd.2)))))
    load (.ld1 h d a i) 1 (sextBytes 1) ∧ load (.ld2 h d a i) 2 (sextBytes 2) ∧ load (.ld4 h d a i) 4 (sextBytes 4) ∧
    load (.ld8 h d a i) 8 (BitVec.ofNat 64) ∧ load (.ld1z h d a i) 1 (BitVec.ofNat 64) ∧ load (.ld2z h d a i) 2 (BitVec.ofNat 64) ∧
    load (.ld4z h d a i) 4 (BitVec.ofNat 64)

/-- R283 and R278: a store to the buffer window writes the low bytes of RB at once and the thread goes on; every other byte of memory and
every other thread is unchanged. -/
def Obligations.BufferStoreResult : Prop :=
  ∀ (s : State) (k : Cc), s.ccOf = some k → ∀ (h : CcHd) (a b : BitVec 5) (i : BitVec 13),
    let va := k.t.rd a + i.signExtend 64
    let store (j : Instr) (n : Nat) : Prop :=
      ∀ m off, k.r.window va n = some (m, off) → va.toNat % n = 0 →
        ∃ t, exec j s = .next t ∧ t.thread k.slot k.core k.thr = past k 0 0 0 ∧
          leNum (t.bufRead k.slot k.core m off n) = (k.t.rd b).toNat % 2 ^ (8 * n) ∧
          (∀ sl c m' x, m' < 3 → ¬(sl = k.slot ∧ c = k.core ∧ m' = m ∧ off ≤ x ∧ x < off + n) →
            t.bufRead sl c m' x 1 = s.bufRead sl c m' x 1) ∧
          (∀ l, t.locRead l 1 = s.locRead l 1) ∧ SameOutside k.slot s t ∧
          ∀ sl c th, (sl, c, th) ≠ (k.slot, k.core, k.thr) → t.thread sl c th = s.thread sl c th
    store (.st1 h b a i) 1 ∧ store (.st2 h b a i) 2 ∧ store (.st4 h b a i) 4 ∧ store (.st8 h b a i) 8

/-- R277 and R278: an access outside the buffer window begins an operation on tenant memory, and the thread blocks until it ends.
R209, R211, R212, R220, R290: FENCE blocks for 2 clk (log 45); one that acquires leaves none of the thread's staging behind a write of a release that it
synchronises with, and one at domain scope that is a window acquire none that the thread or another path had; a release carries what happens before it.
R214, R291: XFENCE leaves no staging of its destination path, but that of other threads on path CC, which are behind the fence, and the thread comes
after it. No byte of memory changes. How releases, staging and windows are held in the state is the model's (logs 1, 8). -/
def Obligations.TenantAccessBegins : Prop :=
  (∀ (s : State) (k : Cc), s.ccOf = some k →
     ∀ (h : CcHd) (d a b : BitVec 5) (i : BitVec 13) (e o : BitVec 3) (z : BitVec 2),
     let begins (s : State) (j : Instr) (s0 : State) (who : Who) (kind : OpKind) (data : List Byte) (va : Word) (n : Nat) : Prop :=
       isWindow va = false → va.toNat % n = 0 →
         exec j s = .next ((s0.putThread k.slot k.core k.thr { k.t with st := .block (.op s.nextOp) }).begin
           (mkOp who (.cc k.slot k.core) k.r.ten kind data (rangeParts va n) apAll))
     let va := k.t.rd a + i.signExtend 64
     let load (j : Instr) (n : Nat) (sx : Bool) : Prop := begins s j s (.ccLoad k.slot k.core k.thr d sx) .read [] va n
     let store (j : Instr) (n : Nat) : Prop := begins s j s (.ccStore k.slot k.core k.thr) .write (leOf n (k.t.rd b).toNat) va n
     let sa := s.setSem k.id (if e = 0#3 then none else some (e, o.toNat))
     let atom (j : Instr) (f : AtomOp) : Prop :=
       begins s j sa (.ccAtomic k.slot k.core k.thr d) (.atomic f) (leOf (2 ^ z.toNat) ((k.t.rd b).toNat % 2 ^ (8 * 2 ^ z.toNat))) (k.t.rd a)
         (2 ^ z.toNat)
     load (.ld1 h d a i) 1 true ∧ load (.ld2 h d a i) 2 true ∧ load (.ld4 h d a i) 4 true ∧ load (.ld8 h d a i) 8 false ∧
     load (.ld1z h d a i) 1 false ∧ load (.ld2z h d a i) 2 false ∧ load (.ld4z h d a i) 4 false ∧
     store (.st1 h b a i) 1 ∧ store (.st2 h b a i) 2 ∧ store (.st4 h b a i) 4 ∧ store (.st8 h b a i) 8 ∧
     atom (.amadd h d a b e o z) .add ∧ atom (.amswp h d a b e o z) .swap ∧ atom (.amcas h d a b e o z) (.cas (k.t.rd d)) ∧
     atom (.ammax h d a b e o z) .max ∧ atom (.ammin h d a b e o z) .min) ∧
  ∀ (s : State) (k : Cc), s.ccOf = some k → ∀ (h : CcHd) (e o p q : BitVec 3),
    (∃ t, exec (.fence h e o) s = .next t ∧ t.thread k.slot k.core k.thr = until_ k 2 (past k 0 0 0) ∧ SameMemory s t ∧
      (e = 1#3 ∨ e = 3#3 ∨ e = 4#3 →
        (∀ b ∈ t.ms.stage, ∃ b0 ∈ s.ms.stage, { b with since := b0.since } = b0) ∧
        (4 ≤ o.toNat → s.windowOpen = true → ∀ b ∈ t.ms.stage, b.unit.path = 0 ∧ ¬(b.unit = .cc k.slot k.core ∧ b.thr = k.thr)) ∧
        ∀ b ∈ t.ms.stage, b.unit = .cc k.slot k.core → b.thr = k.thr →
          ∀ x ∈ (s.view k.id).got, s.syncs k.id o.toNat x = true → ∀ i ∈ x.ids, i ∉ b.since) ∧
      (e = 2#3 → t.ms.stage = s.ms.stage ∧
        (t.view k.id).rels = (s.view k.id).rels.filter (fun x => x.scope ≠ o.toNat) ++
          if (s.view k.id).seen = [] then [] else [⟨k.slot, k.core, o.toNat, (s.view k.id).seen⟩])) ∧
    (∃ t, exec (.xfence h p q o) s = .next t ∧ t.thread k.slot k.core k.thr = answered k 0 0 ∧ SameMemory s t ∧
      (∀ b ∈ t.ms.stage, ∃ b0 ∈ s.ms.stage, { b with since := b0.since } = b0) ∧
      ∀ b ∈ t.ms.stage, q.toNat = 7 ∨ b.unit.path = q.toNat → b.unit.path = 0 ∧ ¬(b.unit = .cc k.slot k.core ∧ b.thr = k.thr) ∧
        ∃ i ∈ b.since, s.ms.nextWrite ≤ i ∧ i ∈ (t.view k.id).seen)

/-- R288 and R289: an atomic on the buffer window answers the old value, sign-extended, and leaves the new one; a compare that differs
writes nothing; every other byte of memory is unchanged. -/
def Obligations.BufferAtomicResult : Prop :=
  ∀ (s : State) (k : Cc), s.ccOf = some k → ∀ (h : CcHd) (d a b : BitVec 5) (e o : BitVec 3) (z : BitVec 2) (m off : Nat),
    let n := 2 ^ z.toNat
    k.r.window (k.t.rd a) n = some (m, off) → (k.t.rd a).toNat % n = 0 →
    let old := leNum (s.bufRead k.slot k.core m off n)
    let y := (k.t.rd b).toNat % 2 ^ (8 * n)
    let c := (k.t.rd d).toNat % 2 ^ (8 * n)
    let sgn (v : Nat) : Int := (BitVec.ofNat (8 * n) v).toInt
    let atom (j : Instr) (new : Nat) : Prop :=
      ∃ t, exec j s = .next t ∧ t.thread k.slot k.core k.thr = until_ k 4 (past k d 4 (sextBytes n old)) ∧
        leNum (t.bufRead k.slot k.core m off n) = new ∧
        (∀ sl c' m' x, m' < 3 → ¬(sl = k.slot ∧ c' = k.core ∧ m' = m ∧ off ≤ x ∧ x < off + n) →
          t.bufRead sl c' m' x 1 = s.bufRead sl c' m' x 1) ∧
        ∀ l, t.locRead l 1 = s.locRead l 1
    atom (.amadd h d a b e o z) ((old + y) % 2 ^ (8 * n)) ∧ atom (.amswp h d a b e o z) y ∧
    atom (.amcas h d a b e o z) (if c = old then y else old) ∧
    atom (.ammax h d a b e o z) (if sgn old < sgn y then y else old) ∧
    atom (.ammin h d a b e o z) (if sgn y < sgn old then y else old)

/-- R209, R210, R211, R215: a load of a thread from a buffer, of bytes that its own store has just written, gives what it stored, whatever its
staging holds. -/
def Obligations.StoreThenLoadReturnsValue : Prop :=
  ∀ (s : State) (k : Cc) (m off n : Nat) (v : Nat) (t : Thread), s.ccOf = some k → m < 3 → off % n = 0 → n ∈ [1, 2, 4, 8] →
    let s1 := (s.ccBufStore k m off (leOf n v)).putThread k.slot k.core k.thr t
    leNum (s1.bufReadAs (.cc k.slot k.core) k.thr k.slot k.core m off n).2 = v % 2 ^ (8 * n)

/-! Commands of the control core to elements and units -/

namespace Sys2Proof.Claims

open Sys2Proof Sys2Proof.Machine

/-- An element becomes `x`; every other element of its region, every other slot and what lies outside regions and the memory system are as
before. -/
def OnlyElem (sl c e : Nat) (x : Elem) (s t : State) : Prop :=
  SameOutside sl s t ∧ SameMemory s t ∧ ∃ r r', s.region sl = some r ∧ t.region sl = some r' ∧ r'.elem c e = x ∧
    ∀ c' e', (c', e') ≠ (c, e) → r'.elem c' e' = r.elem c' e'

/-- An instruction answers a state in which the focus's thread has its answer and one element has become `x`. -/
def answersElem (s : State) (k : Cc) (i : Instr) (d : BitVec 5) (v : Word) (c e : Nat) (x : Elem) : Prop :=
  ∃ t, exec i s = .next t ∧ t.thread k.slot k.core k.thr = answered k d v ∧ OnlyElem k.slot c e x s t

/-- The focus's thread waits with the operands it has read; its pc stays (R314). -/
def waits (k : Cc) (a b d : Word) : Thread := { k.t with st := .block (.retry a b d) }

/-- A token that the focus's thread injects, on its arc. -/
def injected (k : Cc) (tok : Token) : Flight :=
  { arc := .inject k.core k.thr tok.core.toNat tok.elem.toNat, sender := k.core, tok := tok, entered := true }

/-- What an instruction that injects leaves as it was, on its way to the states `thread` of the focus's thread and `r'` of its region. -/
def injectFrame (s t : State) (k : Cc) (thread : Thread) (r' : Region) : Prop :=
  t.thread k.slot k.core k.thr = thread ∧ SameOutside k.slot s t ∧ SameMemory s t ∧ t.region k.slot = some r' ∧ r'.lead = k.r.lead

/-- An instruction sends a token that counts `cnt` for its colour at the injecting core; NEXT becomes `next`, and its owner the token's context. -/
def injects (s : State) (k : Cc) (j : Instr) (tok : Token) (cnt : Int) (next : BitVec 8) (g : Elem → Elem) : Prop :=
  ∃ t r', exec j s = .next t ∧ injectFrame s t k (answered k 0 0) r' ∧ r'.flight = k.r.flight ++ [injected k tok] ∧
    r'.next = next ∧ (∀ c e, r'.elem c e = g (k.r.elem c e)) ∧
    (∀ col, r'.owner col = if next = k.r.next then k.r.owner col else if col = k.r.next then some tok.ctx else k.r.owner col) ∧
    ∀ c col, tget (r'.core c).counts 0 col = tget (k.r.core c).counts 0 col + if c = k.core ∧ col = tok.colour.toNat then cnt else 0

/-- An instruction that sends nothing: the focus's thread becomes `thread`, and whether the thread waits for NEXT. -/
def injectsNot (s : State) (k : Cc) (j : Instr) (thread : Thread) (queued : Bool) : Prop :=
  ∃ t r', exec j s = .next t ∧ injectFrame s t k thread r' ∧ r'.flight = k.r.flight ∧ r'.next = k.r.next ∧ r'.owners = k.r.owners ∧
    (∀ c e, r'.elem c e = k.r.elem c e) ∧ (∀ c, (r'.core c).counts = (k.r.core c).counts) ∧
    r'.injq = if queued = false then k.r.injq.filter (fun w => w ≠ (k.core, k.thr))
      else if (k.core, k.thr) ∈ k.r.injq then k.r.injq else k.r.injq ++ [(k.core, k.thr)]

/-- The steps of an injection after the kind of its header, in their order (R163, R299). -/
def injectionSteps (s : State) (k : Cc) (j : Instr) (v y : Word) (tok : Token) : Prop :=
  tok.act ≠ 3#2 → tok.port ≠ 3#2 → tok.skip = 0#4 → tok.core.toNat < k.r.ncore →
    let credit : Bool := s.mayEnter k.r k.slot (injected k tok)
    let sticky : Prop := tok.act = 1#2
    let isNext : Prop := ¬sticky ∧ tok.colour = k.r.next ∧ k.r.live < 256 ∧ k.r.isLive tok.colour = false
    let own : Prop := ¬sticky ∧ k.r.isLive tok.colour = true ∧ k.r.owner tok.colour = some tok.ctx
    let first : Prop := ∀ w, k.r.injq.head? = some w → w = (k.core, k.thr)
    let word := BitVec.ofNat 64 s.focus.word.toNat
    (k.r.stalled = true → ∃ t, exec j s = .next t ∧ SameOutside k.slot s t ∧ SameMemory s t ∧
      t.region k.slot = (s.putThread k.slot k.core k.thr (waits k v y 0)).region k.slot) ∧
    (k.r.stalled = false →
      (sticky ∨ own → if credit then injects s k j tok (if tok.act = 1#2 then 0 else 1) k.r.next id else injectsNot s k j (waits k v y 0) false) ∧
      (isNext → first → k.r.live < k.r.l →
        if credit then injects s k j tok 1 (k.r.next + 1) (fun e => e.expectFrom tok.ctx k.r.next) else injectsNot s k j (waits k v y 0) true) ∧
      (isNext → ¬first ∨ k.r.l ≤ k.r.live → injectsNot s k j (waits k v y 0) true) ∧
      (¬sticky → ¬own → ¬isNext → k.t.inh = false → k.t.tvec &&& ~~~3#64 ≠ 0#64 → injectsNot s k j (trapped k 0 word k.t.pc) false))

/-- The tokens and operations of a colour in a region, each counted once (R176): on arcs with the virtual zeros they carry, held at elements, spilled;
loop activations, elided tiles, accesses and layout words that wait; operations outstanding. -/
def purgeCount (s : State) (sl : Nat) (r : Region) (c : BitVec 8) : Nat :=
  let tok (t : Token) : Nat := if t.colour = c ∧ t.act ≠ 1#2 ∧ t.kind ≠ .marker then 1 else 0
  let flying (t : Token) : Nat :=
    if t.kind = .marker then 0 else (t.zeroColours.filter (fun z => z == c)).length + if t.kind = .zero then 0 else tok t
  let many {α : Type} (l : List α) (p : α → Bool) : Nat := (l.filter p).length
  let element (e : Elem) : Nat :=
    (e.pool.map (fun x => tok x.tok)).sum + many e.vzeros (fun z => z.colour == c) + many e.loops (fun x => x.k == c) +
    many e.skips (fun x => decide ((x.last - c).toNat < x.cnt)) +
    many e.ae.waiting (fun x => x.colour == c && (match x.kind with | .noop => false | .boundary n => n != 0 | _ => true)) +
    many e.ae.ready (fun x => x.colour == c) +
    many e.ae.queue (fun x => match x.tag with | some (_, q) => q == c | none => false) +
    many e.xe.ops (fun x => x.colour == c && !x.orphan) + many e.xe.sends (fun x => x.busy.any (fun q => q == c) && !x.orphan) +
    many e.barv (fun x => x.tok.colour == c && !x.orphan)
  let unit (k : Core) : Nat :=
    (k.elems.map (fun p => element p.2)).sum + (k.talon.map (fun x => tok x.tok)).sum + (k.refetch.map (fun x => tok x.tok)).sum +
    many k.mbcb (fun x => x.colour == c && !x.orphan)
  (r.flight.map (fun f => flying f.tok)).sum + (r.cores.map (fun p => unit p.2)).sum + many s.ms.ops (fun o => o.ofColour sl c && !o.exchange)

end Sys2Proof.Claims

/-- R293, R295, R304, R306: GLOAD, DLQ, SBAR, SWAIT and CHSTAT complete with the value that they answer, and change nothing but the thread; a
SWAIT whose boundary count is short of its target waits (R314), and a GLOAD item above 0x23 or a DLQ with an operand it does not take traps ILLEGAL.
R154: the value of each CSR that a thread reads. -/
def Obligations.StatusReadResult : Prop :=
  (∀ (s : State) (k : Cc), s.ccOf = some k → k.t.st = .run →
     ∀ (h : CcHd) (d a : BitVec 5) (f : BitVec 8) (q : BitVec 2) (im : BitVec 13) (eh : BitVec 1) (ch : BitVec 4) (c i : Nat),
     let v := k.t.rd a
     let e := k.r.elem c i
     let ans (j : Instr) (w : Word) : Prop := givesThread s k j (answered k d w)
     (k.target v none = .ok (c, i) → f.toNat < 0x24 → ans (.gload h d a f)
       (if f.toNat < 0x10 then BitVec.ofNat 64 (tget e.k 0 f.toNat).toNat
        else if f.toNat < 0x20 then BitVec.ofNat 64 (tget e.ecw 0 (f.toNat - 0x10)).toNat
        else if f.toNat = 0x20 then BitVec.ofNat 64 e.estat.toNat
        else if f.toNat = 0x21 then BitVec.ofNat 64 e.entries
        else if f.toNat = 0x22 then BitVec.ofNat 64 e.pendK.length else BitVec.ofNat 64 e.markers.length)) ∧
     (q = 2#2 ∨ a = 0#5 → ans (.dlq h d a q)
       (if q = 0#2 then BitVec.ofNat 64 (min (s.idleCount k.slot k.r) (2 ^ 32 - 1))
        else if q = 1#2 then BitVec.ofNat 64 (k.r.lead.toNat + k.r.next.toNat * 2 ^ 8 + k.r.live % 256 * 2 ^ 16 + k.r.l % 256 * 2 ^ 24)
        else if q = 2#2 then (if k.r.isLive (v.setWidth 8) then BitVec.ofInt 64 (k.r.sum (v.setWidth 8)) else 0)
        else BitVec.ofNat 64 k.c.talonUsed)) ∧
     (k.target v (some 3) = .ok (c, i) → ans (.sbar h d a) (BitVec.ofNat 64 (e.ae.sbc.toNat + e.ae.queue.length % 32 * 2 ^ 16))) ∧
     (k.target v (some 3) = .ok (c, i) →
       let g : BitVec 16 := BitVec.ofInt 16 ((k.t.rd d).toInt + im.toInt)
       if (e.ae.sbc - g).toNat < 2 ^ 15 then ans (.swait h d a im) (BitVec.ofNat 64 e.ae.sbc.toNat)
       else givesThread s k (.swait h d a im) (waits k v 0 (k.t.rd d))) ∧
     (k.t.inh = false → k.t.tvec &&& ~~~3#64 ≠ 0#64 →
       (0x24 ≤ f.toNat → givesThread s k (.gload h d a f) (trapped k 0 (BitVec.ofNat 64 s.focus.word.toNat) k.t.pc)) ∧
       (q ≠ 2#2 → a ≠ 0#5 → givesThread s k (.dlq h d a q) (trapped k 0 (BitVec.ofNat 64 s.focus.word.toNat) k.t.pc))) ∧
     ans (.chstat h d eh ch)
       (if eh = 1#1 then (k.c.chan ch.toNat).head
        else
         let x := k.c.chan ch.toNat
         BitVec.ofNat 64 (x.st.code + x.errc.toNat * 2 ^ 8 + x.recs.length % 1024 * 2 ^ 22 + x.done.toNat * 2 ^ 32))) ∧
  ∀ (s : State) (k : Cc), s.ccOf = some k →
    let t := k.t
    (∀ n, s.csrRead k n = none ↔ n ∉ [0, 1, 2, 3, 4, 5, 8, 9, 10, 0x100, 0x101, 0x102, 0x103, 0x104, 0x105]) ∧
    s.csrRead k 0 = some (bit (t.ie = true) ||| (bit (t.inh = true) <<< 1)) ∧
    s.csrRead k 1 = some t.tvec ∧ s.csrRead k 2 = some t.epc ∧ s.csrRead k 3 = some (BitVec.ofNat 64 t.cause.toNat) ∧
    s.csrRead k 4 = some t.tval ∧ s.csrRead k 5 = some t.scratch ∧
    s.csrRead k 8 = some t.lcnt ∧ s.csrRead k 9 = some t.lbeg ∧ s.csrRead k 10 = some t.lend ∧
    s.csrRead k 0x100 = some (BitVec.ofNat 64 k.c.ccfg.toNat) ∧
    s.csrRead k 0x101 = some (BitVec.ofNat 64 (k.core % 2 ^ 6 + k.c.pos % 2 ^ 6 * 2 ^ 8 + k.c.die % 2 ^ 2 * 2 ^ 14 + k.r.ten % 2 ^ 4 * 2 ^ 16)) ∧
    s.csrRead k 0x102 = some (BitVec.ofNat 64 k.c.clk) ∧
    s.csrRead k 0x103 = some (BitVec.ofNat 64 s.time) ∧ s.csrRead k 0x104 = some (BitVec.ofNat 64 k.c.evpend.toNat) ∧
    let st (i : Nat) : Nat :=
      match (k.c.thread i).st with
      | .run => 0
      | .wfe _ => 1
      | .block _ => 2
      | .halt => 3
    s.csrRead k 0x105 = some (BitVec.ofNat 64 (st 0 + st 1 * 2 ^ 2 + st 2 * 2 ^ 4 + st 3 * 2 ^ 6))

/-- R294, R296, R297, R303: CLRSET clears status flags, KSET queues a constant, CFGW writes a configuration word while no colour is live,
SBIND queues a layout word; a full queue, a live colour or an earlier waiting CFGW makes the thread wait.
R141 and R296: the first CFGW that waits at an element is applied once no colour of the region is live, and its thread goes on. -/
def Obligations.ElementCommandResult : Prop :=
  (∀ (s : State) (k : Cc), s.ccOf = some k → k.t.st = .run →
     ∀ (h : CcHd) (d a b : BitVec 5) (n : BitVec 4) (m : BitVec 8) (l : BitVec 3) (c i : Nat),
     let v := k.t.rd a
     let y := k.t.rd b
     let e := k.r.elem c i
     k.target v none = .ok (c, i) →
     answersElem s k (.clrset h d a b) d (BitVec.ofNat 64 e.estat.toNat) c i { e with estat := e.estat &&& ~~~BitVec.ofNat 32 (y.toNat % 2 ^ 13) } ∧
     (if e.pendK.length < 8 then
       answersElem s k (.kset h a b m) 0 0 c i
         { e with pendK := e.pendK ++ [⟨BitVec.ofNat 4 (v.toNat / 2 ^ 12), BitVec.ofNat 32 y.toNat, m⟩] }
      else givesThread s k (.kset h a b m) (waits k v y 0)) ∧
     (k.r.live = 0 → e.cfgWait = [] → k.r.cfgwOk c i n.toNat (BitVec.ofNat 32 y.toNat) = true →
       ∃ t, exec (.cfgw h a b n) s = .next t ∧ t.thread k.slot k.core k.thr = { past k 0 0 0 with st := .block .answer } ∧
         OnlyElem k.slot c i { e with ecw := tset e.ecw n.toNat (BitVec.ofNat 32 y.toNat) } s t) ∧
     (k.r.live ≠ 0 ∨ e.cfgWait ≠ [] →
       ∃ t, exec (.cfgw h a b n) s = .next t ∧ t.thread k.slot k.core k.thr = { k.t with st := .block .cfgw } ∧
         OnlyElem k.slot c i { e with cfgWait := e.cfgWait ++ [⟨k.core, k.thr, n, BitVec.ofNat 32 y.toNat⟩] } s t) ∧
     (elemClass i = 3 → l.toNat < 5 → layoutOk l.toNat y = true → e.ae.atBound = false →
       if e.ae.queue.length < 16 then
         answersElem s k (.sbind h a b l) 0 0 c i
           { e with ae := { e.ae with queue := e.ae.queue ++ [⟨BitVec.ofNat 8 l.toNat, y, none, 0⟩] } }
       else givesThread s k (.sbind h a b l) (waits k v y 0))) ∧
  ∀ (s : State) (r : Region) (sl c i : Nat) (w : CfgWait) (rest : List CfgWait),
    s.region sl = some r → (r.elem c i).cfgWait = w :: rest → r.live = 0 →
    (r.putElem c i { r.elem c i with cfgWait := rest }).cfgwOk c i w.n.toNat w.v = true →
    ∃ t, exec (.cfgwApply sl c i) s = .next t ∧
      OnlyElem sl c i { r.elem c i with cfgWait := rest, ecw := tset (r.elem c i).ecw w.n.toNat w.v } s t ∧
      (t.thread sl w.core w.thr).st = .block .answer

/-- R298, R299: MARK and INJ complete with a token on the arc from the thread to the element, once it has flit credit: a marker is not counted, an
injected token adds 1 to its colour's count at the injecting core unless it is sticky. The colour is looked at before the credit: a sticky token and a live
colour of the context wait for credit alone; the colour NEXT is admitted for its context when fewer than L colours are live and no earlier thread waits for
it, and else waits in the order of arrival; any other colour traps ILLEGAL, with or without credit. While injection stalls, the thread waits (R163, R314).
R300: INJT sends, under the same checks, the payload that the thread reads in its buffer window. Which room a token needs is the model's (log 49). -/
def Obligations.InjectionResult : Prop :=
  (∀ (s : State) (k : Cc), s.ccOf = some k → k.t.st = .run → ∀ (h : CcHd) (a b : BitVec 5) (m : BitVec 8),
     let v := k.t.rd a
     let y := k.t.rd b
     let sends (j : Instr) (tok : Token) (cnt : Int) (next : BitVec 8) (g : Elem → Elem) : Prop := injects s k j tok cnt next g
     bitsAt v.toNat 6 6 < k.r.ncore →
       let tok : Token :=
         { kind := .marker, act := 0, port := 3, node := BitVec.ofNat 12 (v.toNat / 2 ^ 12), core := BitVec.ofNat 6 (v.toNat / 2 ^ 6),
           elem := BitVec.ofNat 6 v.toNat, ctx := 0, colour := 0, skip := 0, aux := m, pay := .none }
       if s.mayEnter k.r k.slot (injected k tok) = true then sends (.mark h a m) tok 0 k.r.next id
       else givesThread s k (.mark h a m) (waits k v 0 0)) ∧
  ∀ (s : State) (k : Cc), s.ccOf = some k → k.t.st = .run → ∀ (h : CcHd) (a b : BitVec 5) (c : BitVec 3) (r : BitVec 5),
    let v := k.t.rd a
    let y := k.t.rd b
    (∀ (kd : TokKind) (n : Nat), (kd, n) ∈ [(.scalar, 0), (.nil, 4), (.eos, 5), (.fault, 6), (.cfg, 8)] → v.toNat / 2 ^ 60 = n →
       let tok := tokenOf kd v (if n = 0 ∨ n = 8 then .word y else .none)
       (kd = .fault → 1 ≤ tok.aux.toNat ∧ tok.aux.toNat ≤ 0x11) → injectionSteps s k (.inj h a b) v y tok) ∧
    ∀ (kd : TokKind) (n m off : Nat),
      (kd = .arow ∧ v.toNat / 2 ^ 60 = 1 ∧ c = 0 ∧ r = 0 ∧ n = 32 ∨ kd = .vrow ∧ v.toNat / 2 ^ 60 = 2 ∧ c = 0 ∧ r = 0 ∧ n = 256 ∨
        kd = .tile ∧ v.toNat / 2 ^ 60 = 3 ∧ n = 4 * (r.toNat + 1) * ((c.toNat + 1) * 8)) →
      y.toNat % 32 = 0 → k.r.window y n = some (m, off) →
      injectionSteps s k (.injt h a b c r) v y (tokenOf kd v (.bytes (s.bufReadAs (.cc k.slot k.core) k.thr k.slot k.core m off n).2))

/-- R176, R302: PURGE completes with the number of tokens and operations of the colour, saturating: tokens in flight and held, elided and virtual zeros, loop
activations, spilled tokens, waiting accesses, layout words, operations that are outstanding; a live colour has then
finished, no token of it but sticky ones and markers is on an arc or held, and its count is 0 at every core; of a colour that is not live, or has finished
already, nothing is removed, and 0 is answered. -/
def Obligations.PurgeResult : Prop :=
  ∀ (s : State) (k : Cc), s.ccOf = some k → ∀ (h : CcHd) (d a : BitVec 5),
    let c : BitVec 8 := (k.t.rd a).setWidth 8
    let p := s.purge k.slot c
    let finished : Prop := c ∈ k.r.done ∧ k.r.sum c = 0
    exec (.purge h d a) s = .next (p.1.run.answerTo k d (BitVec.ofNat 64 (min p.2 (2 ^ 32 - 1)))) ∧
      (k.r.isLive c = false ∨ finished → p = (s, 0)) ∧
      (k.r.isLive c = true → ¬finished → p.2 = purgeCount s k.slot k.r c ∧ ∃ r', p.1.region k.slot = some r' ∧ c ∈ r'.done ∧
        let gone (t : Token) : Prop := t.colour = c → t.act = 1#2 ∨ t.kind = .marker
        (∀ f ∈ r'.flight, gone f.tok) ∧ (∀ core e, ∀ x ∈ (r'.elem core e).pool, gone x.tok) ∧
        ∀ core, tget (r'.core core).counts 0 c.toNat = 0)

/-- R203, R305 to R308: CHSTART takes the head of an idle or failed channel; TBINIT and TBARR write the barrier's 16 bytes; TBWAIT answers one
state of the barrier once its phase differs or ERR is set, and else waits. -/
def Obligations.ChannelAndBarrierResult : Prop :=
  ∀ (s : State) (k : Cc), s.ccOf = some k → k.t.st = .run → ∀ (h : CcHd) (d a b : BitVec 5) (c : BitVec 4),
    let v := k.t.rd a
    let y := (k.t.rd b).toNat
    let ch := k.c.chan c.toNat
    (v.toNat % 64 = 0 → ch.st = .idle ∨ ch.st = .err →
      ∃ t r', exec (.chstart h d a c) s = .next t ∧ t.thread k.slot k.core k.thr = until_ k 4 (past k d 4 1) ∧ t.region k.slot = some r' ∧
        (r'.core k.core).chan c.toNat = { ch with st := .walk, head := v, done := 0, errc := 0 }) ∧
    (v.toNat % 64 = 0 → ch.st = .walk ∨ ch.st = .drain →
      givesThread s k (.chstart h d a c) (until_ k 4 (past k d 4 0))) ∧
    ∀ m off, v.toNat % 16 = 0 → k.r.window v 16 = some (m, off) →
      let old := s.tbar k.slot k.core m off
      (∃ t, exec (.tbinit h a b) s = .next t ∧ t.thread k.slot k.core k.thr = answered k 0 0 ∧
        t.tbar k.slot k.core m off =
          { phase := 0, parr := y % 2 ^ 20, exparr := y % 2 ^ 20, psect := y / 2 ^ 20 % 2 ^ 32, flags := 0, sreload := y / 2 ^ 20 % 2 ^ 32 }) ∧
      (∃ t, exec (.tbarr h a b) s = .next t ∧ t.thread k.slot k.core k.thr = answered k 0 0 ∧
        let ps := (old.psect + y / 2 ^ 20 % 2 ^ 32) % 2 ^ 32
        let pa := old.parr - y % 2 ^ 20
        let fl := if old.parr < y % 2 ^ 20 then old.flags ||| 2 else old.flags
        t.tbar k.slot k.core m off =
          if pa = 0 ∧ ps = 0 then { old with phase := (old.phase + 1) % 16, parr := old.exparr, psect := old.sreload, flags := fl }
          else { old with parr := pa, psect := ps, flags := fl }) ∧
      (if old.phase ≠ y % 16 ∨ old.flags % 2 = 1 then
        ∃ t, exec (.tbwait h d a b) s = .next t ∧ SameMemory s t ∧
          t.thread k.slot k.core k.thr = answered k d (BitVec.ofNat 64 (old.phase + old.flags * 2 ^ 4 + old.parr * 2 ^ 8 + old.psect * 2 ^ 28))
       else givesThread s k (.tbwait h d a b) (waits k v (k.t.rd b) 0))

/-- R310, R311: TSIG EXIT ends the region's task once nothing else of the region is outstanding, and else waits with injection stalled; a second EXIT during the first only goes on; TSIG MSI
raises vector 66 plus its number of the tenant's VF; TSIG WAKE lets a thread that waits in WFE go on, and sets the event bit of any other. That EXIT waits while the slot is not in RUN is the
model's (log 33). -/
def Obligations.SignalResult : Prop :=
  ∀ (s : State) (k : Cc), s.ccOf = some k → ∀ (h : CcHd) (a : BitVec 5) (x v : BitVec 3) (t : BitVec 2),
    (k.r.exit = none → (s.slot k.slot).st = 2#8 → k.r.mayExit k.core k.thr = true →
      exec (.tsigExit h x) s =
        .next (((s.putThread k.slot k.core k.thr (past k 0 0 0)).stopTask k.slot k.core).taskExit k.slot x.toNat).run) ∧
    (k.r.exit = none → k.t.st = .run → (s.slot k.slot).st ≠ 2#8 ∨ k.r.mayExit k.core k.thr = false →
      exec (.tsigExit h x) s = .next (((s.onRegion k.slot (fun r => { r with exit := some (k.core, k.thr, x) })).putThread k.slot k.core k.thr
        (waits k 0 0 0))).run) ∧
    (∀ c i y, k.r.exit = some (c, i, y) → (c, i) ≠ (k.core, k.thr) →
      exec (.tsigExit h x) s = .next (s.putThread k.slot k.core k.thr (past k 0 0 0)).run) ∧
    (v.toNat < 6 → ∃ u, exec (.tsigMsi h v) s = .next u ∧ u.thread k.slot k.core k.thr = past k 0 0 0 ∧
      u.msis = s.msis ++ [(k.r.ten + 1, 66 + v.toNat)] ∧ SameMemory s u) ∧
    (let c := bitsAt (k.t.rd a).toNat 0 6
     c < k.r.ncore →
      ∃ u, exec (.tsigWake h a t) s = .next u ∧ SameMemory s u ∧
        ((c, t.toNat) ≠ (k.core, k.thr) → u.thread k.slot k.core k.thr = past k 0 0 0) ∧
        let old := if (c, t.toNat) = (k.core, k.thr) then past k 0 0 0 else s.thread k.slot c t.toNat
        let new := u.thread k.slot c t.toNat
        if old.st = .wfe true then new = { old with st := .run, event := false }
        else if old.st = .wfe false then new.st = .run ∧ new.event = false else new = { old with event := true })

/-- R155, R314: an asynchronous trap is the lowest pending one, taken by the thread that CCFG names: EPC at the next instruction, CAUSE 0x10 plus its number, INH set, the pc at the handler, its
EVPEND bit cleared; a thread that waits without bound is taken from its wait, EPC the instruction that waited (R314), and one in WFE wakes past it. The handler's address without the low bits
of TVEC, the end of a wait and the latched trap value are read by inference (logs 24, 25, 27). -/
def Obligations.AsynchronousTrapEntry : Prop :=
  ∀ (s : State) (r : Region) (sl c b : Nat), s.region sl = some r →
    let k := r.core c
    let i := k.ccfg.toNat
    let t := k.thread i
    b < 4 → k.evpend.getLsbD b = true → (∀ j, j < b → k.evpend.getLsbD j = false) →
    t.ie = true → t.inh = false → t.tvec &&& ~~~3#64 ≠ 0#64 →
    (t.st = .run ∨ (∃ x, t.st = .wfe x) ∨ (∃ x y z, t.st = .block (.retry x y z)) ∨ t.st = .block .cfgw ∨ t.st = .block .queue) →
    let now := if t.st = .wfe false then past { slot := sl, core := c, thr := i, r := r, c := k, t := t } 0 0 0 else t
    let cause := BitVec.ofNat 8 (0x10 + b)
    ∃ u r', exec (.asynchronousTrap sl c) s = .next u ∧ u.region sl = some r' ∧
      (r'.core c).evpend = k.evpend &&& ~~~(1#4 <<< b) ∧
      u.thread sl c i = { now with epc := now.pc, cause := cause, tval := tget k.evval 0 b, inh := true, pc := t.tvec &&& ~~~3#64, st := .run }

/-! Nodes: firings, emission, steering and scalar nodes -/

namespace Sys2Proof.Claims

open Sys2Proof Sys2Proof.Machine

/-- The unit of the focus fires `f`, with operands that are neither NIL, EOS, FAULT nor CFG (R160, R161, R376). -/
def Fires (s : State) (h : NodeHd) (f : Fire) : Prop :=
  s.startFiring h = some (.normal, f) ∧ f.a.kind ≠ .cfg ∧ f.b.kind ≠ .cfg ∧ f.p.kind ≠ .cfg

/-- A token of a firing's tag, a consume token without address. -/
def tokenOn (f : Fire) (kind : TokKind) (aux : BitVec 8) (pay : Payload) : Token :=
  { kind := kind, act := 0, port := 0, node := 0, core := 0, elem := 0, ctx := f.ctx, colour := f.colour, skip := 0, aux := aux, pay := pay }

/-- A SCALAR of a firing's tag. -/
def scalarOn (f : Fire) (v : Word) : Token := tokenOn f .scalar 0 (.word v)

/-- An operand as it is re-emitted (R315): a virtual zero as a tile of +0; a VROW with the AUX of a VROW at L, a row beat and a FAULT with their own, others
with AUX 0. -/
def again (f : Fire) (t : Token) : Token :=
  match t.kind with
  | .zero => tokenOn f .tile 0 (.bytes (List.replicate (4 * f.e.rows * f.e.cols) 0#8))
  | .vrow => tokenOn f .vrow (if f.a.kind = .vrow then f.a.aux else t.aux) t.pay
  | .arow => tokenOn f .arow t.aux t.pay
  | .fault => tokenOn f .fault t.aux t.pay
  | .cfg => tokenOn f .cfg t.aux t.pay
  | k => tokenOn f k 0 t.pay

/-- The token of a node on its arc to a destination; none where the destination is none (R164). -/
def sentTo (c e node which : Nat) (d : Dest) (t : Token) : List Flight :=
  if d.port = 3#2 then []
  else [{ arc := .node c e node which, sender := c, tok := { t with port := d.port, node := d.node, core := d.core, elem := d.elem } }]

/-- Whether an operand as it is re-emitted is a zero tile (R179). -/
def isZero (f : Fire) (t : Token) : Bool := f.e.zeroTile (again f t)

/-- Whether a colour-advancing firing may admit NEXT: the hand-off of the lead colour included (R163). -/
def mayAdmit (r : Region) (e : Elem) (c : BitVec 8) : Prop := r.live < r.l ∨ c = e.lead ∧ r.live = r.l

/-- A token of a loop's body: the iteration number with the value's low word above it (R324). -/
def loopBody (x : BitVec 12) (k : BitVec 8) (i : Nat) (v : Word) : Token :=
  { kind := .scalar, act := 0, port := 0, node := 0, core := 0, elem := 0, ctx := x, colour := k, skip := 0, aux := 0,
    pay := .word (BitVec.ofNat 64 i + ((v.setWidth 32).setWidth 64 <<< 32)) }

/-- An instruction answers the state in which the firing's token has been sent to both destinations. -/
def emits (s : State) (f : Fire) (i : Instr) (t : Token) (zero : Bool) : Prop := exec i s = .next ((f.emit t zero).finish s)

/-- The node header of a node whose firing emits NIL, EOS and FAULT by R161 and does nothing else then. -/
def plainNode (i : Instr) : Option NodeHd :=
  match i with
  | .steer h | .select h | .dup h | .cinc h | .center h | .cexit h | .loopn h _ | .invar h | .purgen h | .gate h | .join h | .barv h _ _
  | .qpop h | .qtry h | .eos h | .sadd h _ | .ssub h _ | .smul h _ | .sand h _ | .sor h _ | .sxor h _ | .sshl h _ | .sshr h _ | .ssra h _
  | .smin h _ | .smax h _ | .scmp h _ | .ssel h | .sconst h _ | .skrd h _ | .sfadd h _ | .sfmul h _ | .scvt h _
  | .vadd h _ | .vsub h _ | .vmul h _ | .vfma h _ | .vmax h _ | .vmin h _ | .vabs h _ | .vscl h _ | .vmov h _ | .vexp2 h _ | .vlog2 h _
  | .vrcp h _ | .vrsq h _ | .vcvt h _ | .vbscale h _ | .vquant h _ | .vrowmax h _ | .vrowsum h _ | .vsmx h _ | .vsmxf h _ | .vtrans h _
  | .vsel h _ | .vcmp h _ | .vclamp h _ | .vbcast h _ | .vzero h _
  | .mclaim h _ | .mrel h _ | .mldb h _ | .mbcb h _ | .msel h _ | .mma h _ | .mmas h _ | .mzero h _ | .mdrn h _ | .msave h _ | .mrest h _
  | .spld h _ | .spst h _ | .spw h _ | .spup h _ | .spdn h _ | .spmax h _ | .sparg h _ | .spnrm h _ | .spcvt h _ | .spzero h _ => some h
  | _ => none

/-- The same of the nodes of chapter 15 that do not pass the ordering unit. -/
def runningNode (i : Instr) : Option NodeHd :=
  match i with
  | .acfg h _ | .rld h _ | .rst h _ | .ratom h _ | .rfen h | .fencex h _ | .tbarv h _ | .smrecv h _ | .claunch h _ | .crecv h _ => some h
  | _ => none

/-- The nodes whose accesses pass an AE's ordering unit, and whether they use the gather unit. -/
def orderedNode (i : Instr) : Option (NodeHd × LitA × Bool) :=
  match i with
  | .aload h l | .astore h l | .wld h l | .wst h l => some (h, l, false)
  | .agath h l | .ascat h l => some (h, l, true)
  | _ => none

end Sys2Proof.Claims

/-- R161, R316: a firing with a NIL operand emits NIL, one with an EOS operand EOS, one with a FAULT operand FAULT with the operand's class, and the
node does nothing else; at an AE an EOS then makes a stream boundary (R186), and a node that orders its accesses passes its wave numbers (R369). SINK and
MERGE follow their own entries: SteeringResult and MergeResult state them; SMSEND and AEOS are in StreamSendResult and AddressGeneratorResult.
R317, R345, R370, R376: a CFG operand is of a kind that no node accepts: OPFAULT, with INFO1 PAYLOAD at an ME, AE and XE and an open INFO1 elsewhere (log 17).
R181: a zero-absorbing VMUL with an elided zero operand and no NaN or infinity emits the zero tile, its elements the code of +0 in its format,
and sets no flag. -/
def Obligations.OperandClassRules : Prop :=
  (∀ (i : Instr) (h : NodeHd) (s : State) (f : Fire),
     let ends (t : Token) : State := f.bound ((f.emit t false).finish s)
     let spoils (j : State → State) : Prop :=
       (s.startFiring h = some (.nil, f) → exec i s = .next (j (ends (tokenOn f .nil 0 .none)))) ∧
       (s.startFiring h = some (.eos, f) → exec i s = .next (j (ends (tokenOn f .eos 0 .none)))) ∧
       ∀ aux, s.startFiring h = some (.fault aux, f) → exec i s = .next (j (ends (tokenOn f .fault aux .none)))
     (plainNode i = some h → spoils id) ∧ (runningNode i = some h → spoils State.run) ∧
     (∀ l g, orderedNode i = some (h, l, g) → s.mayBegin g = true →
       (s.startFiring h = some (.nil, f) → exec i s = .next (f.bound (f.passWave ((f.emit (tokenOn f .nil 0 .none) false).finish s) l)).run) ∧
       (s.startFiring h = some (.eos, f) → exec i s = .next (f.bound (f.passWave ((f.emit (tokenOn f .eos 0 .none) false).finish s) l)).run) ∧
       ∀ aux, s.startFiring h = some (.fault aux, f) →
         exec i s = .next (f.bound (f.passWave ((f.emit (tokenOn f .fault aux .none) false).finish s) l)).run) ∧
     (plainNode i = some h → s.startFiring h = some (.normal, f) → f.a.kind = .cfg ∨ f.b.kind = .cfg ∨ f.p.kind = .cfg →
       let fault (u : State) (info1 : Word) : State := f.fault u { cls := 9, va := 0, acc := 6, info1 := info1, info2 := 0 }
       if elemClass f.elem = 1 ∨ elemClass f.elem = 2 then ∃ v, exec i s = .next (fault { s with freeCount := s.freeCount + 1 } v)
       else exec i s = .next (fault s 0x24))) ∧
  ∀ (s : State) (h : NodeHd) (l : LitV) (f : Fire) (ra rb : List (List W32)), Fires s h f → h.mm = 1#2 → f.vz = true →
    vkind f.b = vkind f.a → f.e.lanes32 f.a = some ra → f.e.lanes32 f.b = some rb →
    (∀ r ∈ ra ++ rb, ∀ w ∈ r, (f32 w).isNan = false ∧ (f32 w).isInf = false) →
    let z := (convFmt f.e.codebook l.ofmt.toNat rne (.fin false 0)).1
    emits s f (.vmul h l) (f.codesTok l.ofmt.toNat .tile 0 (List.replicate f.e.rows (List.replicate f.e.cols z))).1 true

/-- R159, R160, R162 and R164: a dyadic unit whose two operands are consume tokens in the pool fires: both leave the pool, the
colour's count at the core falls by 2, the arbiter's node is this one, and no other element changes.
R164 and R167: a token that no skip entry concerns is sent to each destination that is not none: it joins the arc behind every earlier token,
with the destination's address, and adds 1 to its colour's count at the sending core; every buffer and every element is unchanged. -/
def Obligations.FiringAndEmission : Prop :=
  (∀ (s : State) (h : NodeHd) (r : Region) (x y : Held) (q : List Held),
     let fo := s.focus
     let e := r.elem fo.core fo.elem
     s.region fo.slot = some r → r.acts = true → e.used = true → h.mm = 1#2 → fo.row = none →
     e.pool = x :: y :: q → (∀ z ∈ q, z.tok.node.toNat ≠ fo.node) →
     x.tok = { tokenOf .scalar 0 x.tok.pay with port := 0, node := x.tok.node, ctx := fo.ctx, colour := fo.colour } →
     y.tok = { tokenOf .scalar 0 y.tok.pay with port := 1, node := y.tok.node, ctx := fo.ctx, colour := fo.colour } →
     x.tok.node.toNat = fo.node → y.tok.node.toNat = fo.node →
     ∃ f, Fires s h f ∧ f.a = x.tok ∧ f.b = y.tok ∧ f.ctx = fo.ctx ∧ f.colour = fo.colour ∧
       (f.r.elem fo.core fo.elem).pool = q ∧ (f.r.elem fo.core fo.elem).arb.cur = fo.node ∧
       (∀ col, tget (f.r.core fo.core).counts 0 col = tget (r.core fo.core).counts 0 col - if col = fo.colour.toNat then 2 else 0) ∧
       ∀ c i, (c, i) ≠ (fo.core, fo.elem) → f.r.elem c i = r.elem c i) ∧
  ∀ (f : Fire) (t : Token), t.act = 0#2 → t.kind ≠ .tile → t.kind ≠ .marker → t.kind ≠ .zero →
    f.e = f.r.elem f.core f.elem → (∀ k ∈ f.e.skips, k.node ≠ f.node) →
    let sent (w : Nat) (d : Dest) : List Flight := sentTo f.core f.elem f.node w d t
    let g := (f.emit t false).r
    g.flight = f.r.flight ++ sent 0 f.h.d0 ++ sent 1 f.h.d1 ∧
      (∀ c e, g.elem c e = f.r.elem c e) ∧ (∀ c b, (g.core c).buf b = (f.r.core c).buf b) ∧
      ∀ c col, tget (g.core c).counts 0 col = tget (f.r.core c).counts 0 col +
        if c = f.core ∧ col = t.colour.toNat then ((sent 0 f.h.d0).length + (sent 1 f.h.d1).length : Int) else 0

/-- R321, R326: STEER, SELECT, DUP, GATE, JOIN, EOS, SINK, INVAR and PURGEN complete with what they send, an operand as R315 re-emits it; SINK consumes
a FAULT, NIL or EOS operand too and emits nothing; at an AE an EOS makes a stream boundary (R186). -/
def Obligations.SteeringResult : Prop :=
  (∀ (s : State) (h : NodeHd) (f : Fire) (cls : FireCls), s.startFiring h = some (cls, f) → f.a.kind ≠ .cfg → f.b.kind ≠ .cfg → f.p.kind ≠ .cfg →
    exec (.sink h) s = .next (f.bound (f.finish s)) ∧ (elemClass f.elem ≠ 3 → exec (.sink h) s = .next (f.finish s))) ∧
  ∀ (s : State) (h : NodeHd) (f : Fire), Fires s h f →
    (f.b.kind = .scalar →
      let w := if f.b.value.getLsbD 0 then 0 else 1
      exec (.steer h) s = .next (((f.emitTo w (again f f.a) (isZero f f.a)).emitTo (1 - w) (tokenOn f .nil 0 .none) false).finish s)) ∧
    (f.p.kind = .scalar →
      let t := if f.p.value.getLsbD 0 then f.a else f.b
      emits s f (.select h) (again f t) (isZero f t)) ∧
    emits s f (.dup h) (again f f.a) (isZero f f.a) ∧
    emits s f (.gate h) (again f f.a) (isZero f f.a) ∧
    emits s f (.join h) (scalarOn f 0) false ∧
    emits s f (.eos h) (tokenOn f .eos 0 .none) false ∧
    emits s f (.invar h) { again f f.a with act := 1 } false ∧
    emits s f (.purgen h) { again f f.a with act := 2 } false

/-- R323, R163, R165: CINC, CEXIT and CENTER complete with their operand on another colour: CINC the next, CEXIT the one before or the one that port R names, CENTER the colour NEXT with the old
colour to the second destination. CENTER, and CINC where the next colour is NEXT, admit it for their context while fewer than L colours are live or by the hand-off of the colour that the
element takes for the lead; else they do not fire. That a colour is admitted so also while the region drains or a CFGW waits is the model's (log 46). -/
def Obligations.ColourChangeResult : Prop :=
  ∀ (s : State) (h : NodeHd) (f : Fire), Fires s h f →
    let u (k : BitVec 8) : Token := { again f f.a with colour := k }
    let z (k : BitVec 8) : Bool := f.e.zeroTile (u k)
    let owned (k : BitVec 8) : Prop := k ≠ f.r.next ∧ f.r.isLive k = true ∧ f.r.owner k = some f.ctx
    let keeps (i : Instr) (k : BitVec 8) : Prop := emits s f i (u k) (z k)
    let admitted (g : Fire) : Prop :=
      g = { f with r := g.r, e := g.e } ∧ g.r.next = f.r.next + 1 ∧ g.r.lead = f.r.lead ∧ g.r.owner f.r.next = some f.ctx ∧
        g.r.flight = f.r.flight ∧ ∀ c i, g.r.elem c i = (f.r.elem c i).expectFrom f.ctx f.r.next
    (owned (f.colour + 1) → keeps (.cinc h) (f.colour + 1)) ∧
    (h.mm = 0#2 → owned (f.colour - 1) → keeps (.cexit h) (f.colour - 1)) ∧
    (h.mm ≠ 0#2 → f.b.kind = .scalar → owned (f.b.value.setWidth 8) → keeps (.cexit h) (f.b.value.setWidth 8)) ∧
    (mayAdmit f.r f.e f.colour → ∃ g : Fire, admitted g ∧
      exec (.center h) s = .next (((g.emitTo 0 (u f.r.next) (z f.r.next)).emitTo 1
        { scalarOn f (BitVec.ofNat 64 f.colour.toNat) with colour := f.r.next } false).finish s)) ∧
    (mayAdmit f.r f.e f.colour → f.colour + 1 = f.r.next → ∃ g : Fire, admitted g ∧
      exec (.cinc h) s = .next ((g.emit (u f.r.next) (z f.r.next)).finish s)) ∧
    (¬mayAdmit f.r f.e f.colour →
      exec (.center h) s = .next s ∧ (f.colour + 1 = f.r.next → exec (.cinc h) s = .next s))

/-- R324, R325: LOOPN completes by sending its value past the loop for a count of 0; for another count, once NEXT can be admitted and port L has a general entry for the activation (R166), it
admits a colour, sends the body its first token and holds an activation. Each LOOPN_STEP that may fire (R162) and admit a colour sends the next body token on it, and the last step sends the
value past the loop and drops the activation. That LOOPN admits a colour also while the region drains or a CFGW waits is the model's (log 46). -/
def Obligations.LoopNodeResult : Prop :=
  (∀ (s : State) (h : NodeHd) (f : Fire) (count : W32), Fires s h f → f.a.kind = .scalar → (h.mm ≠ 0#2 → f.b.kind = .scalar) →
    (∀ a ∈ f.e.loops, ¬(a.node = f.node ∧ a.ctx = f.ctx)) →
    let n := if h.mm = 0#2 then count.toNat else f.b.value.toNat % 2 ^ 32
    (n = 0 → exec (.loopn h count) s = .next ((f.emitTo 1 (scalarOn f f.a.value) false).finish s)) ∧
    (n ≠ 0 → mayAdmit f.r f.e f.colour → f.e.generalUsed f.node 0 + 1 < f.e.pcap → ∃ t r', exec (.loopn h count) s = .next t ∧
      t.region f.slot = some r' ∧ r'.next = f.r.next + 1 ∧ r'.owner f.r.next = some f.ctx ∧
      ⟨f.node, f.ctx, f.r.next, 0, n, f.a.value⟩ ∈ (r'.elem f.core f.elem).loops ∧
      ((∀ k ∈ f.e.skips, k.node ≠ f.node) →
        r'.flight = f.r.flight ++ sentTo f.core f.elem f.node 0 h.d0 (loopBody f.ctx f.r.next 0 f.a.value)))) ∧
  ∀ (s : State) (sl c e node ctx : Nat) (r : Region) (a : LoopAct), s.region sl = some r → r.acts = true → s.mayFire r c e = true →
    (∀ k ∈ (r.elem c e).skips, k.node ≠ node) → (r.elem c e).loopOf node (BitVec.ofNat 12 ctx) = some a →
    let h := recHd ((r.elem c e).rec_ node)
    let x := BitVec.ofNat 12 ctx
    (a.i + 1 < a.n → mayAdmit r (r.elem c e) a.k → ∃ t r', exec (.loopnStep sl c e node ctx) s = .next t ∧ t.region sl = some r' ∧
      r'.next = r.next + 1 ∧ r'.owner r.next = some x ∧ r'.flight = r.flight ++ sentTo c e node 0 h.d0 (loopBody x r.next (a.i + 1) a.v) ∧
      (r'.elem c e).loopOf node x = some { a with k := r.next, i := a.i + 1 }) ∧
    (¬ a.i + 1 < a.n → ∃ t r', exec (.loopnStep sl c e node ctx) s = .next t ∧ t.region sl = some r' ∧ r'.next = r.next ∧
      r'.flight = r.flight ++ sentTo c e node 1 h.d1 { loopBody x a.k 0 0 with pay := .word a.v } ∧
      (r'.elem c e).loopOf node x = none)

/-- R178, R322: MERGE fires the colour that its context expects next, passes the operand that is not NIL, both operands of which neither is to one
destination each, FAULT and NIL by R161, and then expects the next colour, after the last row of one that holds row beats (log 50); another colour
waits. -/
def Obligations.MergeResult : Prop :=
  ∀ (s : State) (h : NodeHd) (r : Region) (a b : Token),
    let fo := s.focus
    let e := r.elem fo.core fo.elem
    s.region fo.slot = some r → r.acts = true → e.used = true → elemClass fo.elem ≠ 3 →
    (r.expected e fo.node fo.ctx ≠ some fo.colour → exec (.merge h) s = .next s) ∧
    (r.expected e fo.node fo.ctx = some fo.colour → e.operand fo.node 0 fo.ctx fo.colour (fo.row.getD 0) = some a →
      e.operand fo.node 1 fo.ctx fo.colour (fo.row.getD 0) = some b → ¬(a.act = 1#2 ∧ b.act = 1#2) → a.kind ≠ .cfg → b.kind ≠ .cfg →
      ∃ f : Fire, f.a = a ∧ f.b = b ∧
      exec (.merge h) s = .next ((
        if a.kind = .fault then f.emit (tokenOn f .fault a.aux .none) false
        else if b.kind = .fault then f.emit (tokenOn f .fault b.aux .none) false
        else if a.kind = .nil ∧ b.kind = .nil then f.emit (tokenOn f .nil 0 .none) false
        else if a.kind = .nil then f.emit (again f b) (isZero f b)
        else if b.kind = .nil then f.emit (again f a) (isZero f a)
        else (f.emitTo 0 (again f a) (isZero f a)).emitTo 1 (again f b) (isZero f b)).finish s) ∧
      f.slot = fo.slot ∧ f.core = fo.core ∧ f.elem = fo.elem ∧ f.node = fo.node ∧ f.h = h ∧ f.ctx = fo.ctx ∧ f.colour = fo.colour ∧
      (a.moreRows = false → b.moreRows = false → ⟨fo.node, fo.ctx, fo.colour + 1⟩ ∈ f.e.merges))

/-- R221, R222, R327: BARV sends one arrival and holds its operand; the barrier counts arrivals of its phase and sends releases with the last to every element that holds a counted arrival; an
arrival that it does not expect raises BAROVER at its core, moves no count, and its operand is held no longer; a release sends the held operands on and moves the element's phase, unless an
arrival of it took the BAROVER branch. What an arrival that is counted nowhere leaves of its operand is the model's (log 46). -/
def Obligations.BarrierResult : Prop :=
  (∀ (s : State) (h : NodeHd) (f : Fire) (bc bar : BitVec 6), Fires s h f →
    ∃ t r', exec (.barv h bc bar) s = .next t ∧ t.region f.slot = some r' ∧
      let ph := tget (f.r.elem f.core f.elem).phases 0#4 (bc.toNat * 64 + bar.toNat)
      (r'.core bc.toNat).arrs = (f.r.core bc.toNat).arrs ++ [⟨f.core, f.elem, f.node, bar.toNat, ph, f.ctx, f.colour⟩] ∧
      (r'.elem f.core f.elem).barv = (f.r.elem f.core f.elem).barv ++
        [{ node := f.node, bcore := bc.toNat, bar := bar.toNat, phase := ph, tok := again f f.a, orphan := false, counted := false }]) ∧
  (∀ (s : State) (sl c idx : Nat) (r : Region) (a : Arrival), s.region sl = some r → (r.core c).arrs[idx]? = some a →
    let b := tget (r.core c).bars ⟨0, 0, 0, 0⟩ a.bar
    (b.exp ≠ 0#20 → a.phase = b.phase → ∃ t r', exec (.barrierArrival sl c idx) s = .next t ∧ t.region sl = some r' ∧
      (r'.core c).arrs = ldel (r.core c).arrs idx ∧
      (b.arr + 1 = b.exp → ∀ c' i,
        (∃ y ∈ (r.elem c' i).barv, y.bcore = c ∧ y.bar = a.bar ∧ y.phase = b.phase ∧ (y.counted = true ∨ c' = a.ecore ∧ i = a.elem ∧
          y.node = a.node ∧ y.tok.ctx = a.ctx ∧ y.tok.colour = a.colour)) →
        ∃ x ∈ (r'.core c).rels, x.ecore = c' ∧ x.elem = i ∧ x.bar = a.bar ∧ x.phase = b.phase ∧ x.scope = b.scope) ∧
      tget (r'.core c).bars ⟨0, 0, 0, 0⟩ a.bar =
        if b.arr + 1 = b.exp then { b with phase := b.phase + 1, arr := 0 } else { b with arr := b.arr + 1 }) ∧
    (b.exp = 0#20 ∨ a.phase ≠ b.phase → ∃ t r', exec (.barrierArrival sl c idx) s = .next t ∧ t.region sl = some r' ∧
      (r'.core c).arrs = ldel (r.core c).arrs idx ∧ (r'.core c).bars = (r.core c).bars ∧ (r'.core a.ecore).evpend.getLsbD 2 = true ∧
      (r'.elem a.ecore a.elem).barv = (r.elem a.ecore a.elem).barv.eraseP (fun y => y.sent c a) ∧
      c * 64 + a.bar ∈ (r'.elem a.ecore a.elem).barOver)) ∧
  ∀ (s : State) (sl c e bc bar : Nat) (r : Region) (x : BarRelease), s.region sl = some r →
    (r.core bc).rels.find? (fun y => y.ecore == c && y.elem == e && y.bar == bar) = some x →
    ∃ t r', exec (.barrierRelease sl c e bc bar) s = .next t ∧ t.region sl = some r' ∧
      tget (r'.elem c e).phases 0#4 (bc * 64 + bar) =
        (if bc * 64 + bar ∈ (r.elem c e).barOver then tget (r.elem c e).phases 0#4 (bc * 64 + bar) else x.phase + 1) ∧
      (∀ y, (r.elem c e).barv = [y] → y.bcore = bc → y.bar = bar → y.phase = x.phase → y.counted = true → y.orphan = false → y.tok.kind ≠ .tile →
        (r.elem c e).skips = [] →
        let h := recHd ((r.elem c e).rec_ y.node)
        r'.flight = r.flight ++ sentTo c e y.node 0 h.d0 y.tok ++ sentTo c e y.node 1 h.d1 y.tok) ∧
      ∀ y ∈ (r'.elem c e).barv, ¬(y.bcore = bc ∧ y.bar = bar ∧ y.phase = x.phase ∧ y.counted = true)

/-- R329 and R330: what the scalar nodes on integers emit; the second operand of a monadic node is its sign-extended immediate.
R331: SFADD and SFMUL emit the sum and the product of the low words, rounded once to nearest even, and set the flags that arise; SCVT
emits its operand, a number of the literal's source format or a signed integer, converted to its target format or to an integer, a stochastic
rounding with a draw of the element's generator. -/
def Obligations.ScalarNodeResult : Prop :=
  (∀ (s : State) (h : NodeHd) (f : Fire) (imm : W32) (sel : BitVec 4), Fires s h f → f.a.kind = .scalar → (h.mm ≠ 0#2 → f.b.kind = .scalar) →
     let a := f.a.value
     let b : Word := if h.mm = 0#2 then BitVec.ofInt 64 imm.toInt else f.b.value
     let n := b.toNat % 64
     let res (i : Instr) (v : Word) : Prop := emits s f i (scalarOn f v) false
     res (.sadd h imm) (BitVec.ofNat 64 (a.toNat + b.toNat)) ∧
     res (.ssub h imm) (BitVec.ofInt 64 (a.toInt - b.toInt)) ∧
     res (.smul h imm) (BitVec.ofNat 64 (a.toNat * b.toNat)) ∧
     res (.sand h imm) (a &&& b) ∧ res (.sor h imm) (a ||| b) ∧ res (.sxor h imm) (a ^^^ b) ∧
     res (.sshl h imm) (BitVec.ofNat 64 (a.toNat * 2 ^ n)) ∧
     res (.sshr h imm) (BitVec.ofNat 64 (a.toNat / 2 ^ n)) ∧
     res (.ssra h imm) (BitVec.ofInt 64 (a.toInt / 2 ^ n)) ∧
     res (.smin h imm) (if a.toInt ≤ b.toInt then a else b) ∧
     res (.smax h imm) (if a.toInt ≤ b.toInt then b else a) ∧
     (h.mm ≠ 0#2 → res (.scmp h sel)
       (match sel.toNat with
         | 0 => bit (a = b) | 1 => bit (a ≠ b) | 2 => bit (a.toInt < b.toInt) | 3 => bit (b.toInt ≤ a.toInt)
         | 4 => bit (a.toNat < b.toNat) | _ => bit (b.toNat ≤ a.toNat))) ∧
     (f.b.kind = .scalar → f.p.kind = .scalar → res (.ssel h) (if f.p.value.getLsbD 0 then a else f.b.value)) ∧
     res (.sconst h imm) (BitVec.ofInt 64 imm.toInt) ∧
     res (.skrd h sel) (BitVec.ofNat 64 (tget f.e.k 0 sel.toNat).toNat)) ∧
  ∀ (s : State) (h : NodeHd) (f : Fire) (imm : W32) (l : LitV), Fires s h f → f.a.kind = .scalar → (h.mm ≠ 0#2 → f.b.kind = .scalar) →
    let a := f.a.value.setWidth 32
    let b := if h.mm = 0#2 then imm else f.b.value.setWidth 32
    let res (i : Instr) (v : Word) (fl : W32) : Prop :=
      exec i s = .next (((f.withE { f.e with estat := f.e.estat ||| fl }).emit (scalarOn f v) false).finish s)
    let sum := rnd32 rne (sumF rne [f32 a, f32 b])
    let prod := rnd32 rne (mulF (f32 a) (f32 b))
    res (.sfadd h imm) (BitVec.ofNat 64 sum.1.toNat) sum.2 ∧
    res (.sfmul h imm) (BitVec.ofNat 64 prod.1.toNat) prod.2 ∧
    let cb := f.e.cb f.elem
    let src := l.md.toNat % 2 ^ 4
    let x := if l.md.getLsbD 4 = true then (FVal.ofInt f.a.value.toInt, 0#32) else decodeFmt cb src (f.a.value.toNat % 2 ^ fmtBits src)
    let draws : Prop := l.rnd = 4#3 ∧ (l.md.getLsbD 5 = true ∨ l.ofmt ≠ 14#4)
    let g := if draws then srDraw f.e.gen else f.e.gen
    let md : Mode := ⟨l.rnd.toNat, if draws then g else 0⟩
    let y : Word × W32 :=
      if l.md.getLsbD 5 = true then let i := convInt md (-(2 ^ 63)) (2 ^ 63 - 1) x.1; (BitVec.ofInt 64 i.1, i.2)
      else let c := convFmt cb l.ofmt.toNat md x.1; (BitVec.ofNat 64 c.1, c.2)
    exec (.scvt h l) s = .next (((f.withE { f.e with gen := g, estat := f.e.estat ||| (x.2 ||| y.2) }).emit (scalarOn f y.1) false).finish s)

/-! Vector, matrix and sum-product nodes -/

/-- R332, R333: a lane-wise node completes with its operation applied to every active lane of FP32 operands of one kind; the second operand of a monadic node is its first, and a third is read in
mode 3 alone. A NaN that arises sets FNAN. VMUL with an elided zero operand is a zero firing (R181). The results of VEXP2, VLOG2 and VRSQ within their bounds are the model's (log 9). -/
def Obligations.LaneWiseResult : Prop :=
  ∀ (s : State) (h : NodeHd) (l : LitV) (f : Fire) (ra rb rp : List (List W32)), Fires s h f →
    let b := if h.mm = 0#2 then f.a else f.b
    let p := if h.mm = 3#2 then f.p else f.a
    vkind b = vkind f.a → vkind p = vkind f.a → f.e.lanes32 f.a = some ra → f.e.lanes32 b = some rb → f.e.lanes32 p = some rp →
    let md : Mode := ⟨l.rnd.toNat, 0⟩
    let kc := f32 (tget f.e.k 0 l.kc.toNat)
    let kd := f32 (tget f.e.k 0 l.kd.toNat)
    let lane (i : Instr) (g : W32 → W32 → W32 → FVal × W32) : Prop :=
      exec i s = .next (f.vout s l (vkind f.a) (vaux f.a) (lanes3 g ra rb rp))
    let exact (r : FVal × Bool) : FVal × W32 := (r.1, if r.2 then flFNAN else 0)
    let fma (x y z : FVal) : FVal × W32 := exact (fmaF md x y z)
    let approx (r : W32 × W32) : FVal × W32 := (f32 r.1, r.2)
    lane (.vadd h l) (fun a b _ => exact (sumF md [f32 a, f32 b])) ∧
    lane (.vsub h l) (fun a b _ => exact (sumF md [f32 a, negF (f32 b)])) ∧
    (if f.vz then exec (.vmul h l) s = .next (f.zeroFiring s l.ofmt.toNat (ra ++ rb))
     else lane (.vmul h l) (fun a b _ => exact (mulF (f32 a) (f32 b)))) ∧
    lane (.vfma h l) (fun a b p => fma (f32 a) (f32 b) (f32 p)) ∧
    lane (.vmax h l) (fun a b _ => (maxF (f32 a) (f32 b), 0)) ∧
    lane (.vmin h l) (fun a b _ => (minF (f32 a) (f32 b), 0)) ∧
    lane (.vabs h l) (fun a _ _ => (f32 (a &&& 0x7FFFFFFF#32), 0)) ∧
    lane (.vscl h l) (fun a _ _ => fma (f32 a) kc kd) ∧
    lane (.vmov h l) (fun a _ _ => (f32 a, 0)) ∧
    lane (.vexp2 h l) (fun a _ _ => approx (vexp2 a)) ∧
    lane (.vlog2 h l) (fun a _ _ => approx (vlog2 a)) ∧
    lane (.vrcp h l) (fun a _ _ => approx (vrcp a)) ∧
    lane (.vrsq h l) (fun a _ _ => approx (vrsq a)) ∧
    lane (.vsel h l) (fun a b p => (if (f32 p).isZero then f32 b else f32 a, 0)) ∧
    lane (.vcmp h l) (fun a b _ => (if vcmpHolds (l.md.toNat % 8) (f32 a) (f32 b) then .fin false 1 else .fin false 0, 0)) ∧
    lane (.vclamp h l) (fun a _ _ => (minF (maxF (f32 a) kc) kd, 0))

/-- R335, R336, R338, R341: format conversion, block scaling, row reductions, transposition, broadcast and zero complete with their lanes. R337, R339, R340: VQUANT completes with its codes, and
with blocks also with their scales, computed or given; VSMX carries each row's softmax state, in its slot or from a state token, and sends the states with LAST; VSMXF finishes from it and
says which rows were empty. How the softmax state is kept is read by inference (log 28). -/
def Obligations.VectorReshapeResult : Prop :=
  (∀ (s : State) (h : NodeHd) (l : LitV) (f : Fire), Fires s h f →
     let cb := f.e.codebook
     let c := l.md.toNat % 2 ^ 4
     let flat (v : FVal) : List (List (FVal × W32)) := List.replicate f.e.rows (List.replicate f.e.cols (v, 0))
     let out (i : Instr) (rows : List (List (FVal × W32))) : Prop := exec i s = .next (f.vout s l (vkind f.a) (vaux f.a) rows)
     let tile (i : Instr) (rows : List (List (FVal × W32))) : Prop := exec i s = .next (f.vout s l .tile 0 rows)
     let flagged (fl : W32) : Fire := f.withE { f.e with estat := f.e.estat ||| fl }
     (f.a.kind = .zero → tile (.vcvt h l) (flat (.fin false 0))) ∧
     (f.a.kind ≠ .zero → ∀ rows, f.e.laneRows (fmtBits c) f.a = some rows → out (.vcvt h l) (rows.map (fun r => r.map (decodeFmt cb c)))) ∧
     (l.md.getLsbD 0 = false → f.a.kind = .scalar → tile (.vbcast h l) (flat (f32 (f.a.value.setWidth 32)))) ∧
     tile (.vzero h l) (flat (.fin false 0)) ∧
     ∀ ra, f.e.lanes32 f.a = some ra →
       (∀ rb, vkind f.b = vkind f.a → f.e.lanes32 f.b = some rb →
         let blk := if l.md.getLsbD 0 then 32 else 8
         if f.vz then exec (.vbscale h l) s = .next (f.zeroFiring s l.ofmt.toNat (ra ++ rb))
         else out (.vbscale h l) (List.zipWith (fun ra rb => scaled blk ra (fun g => f32 (rb.getD g 0)) mulF) ra rb)) ∧
       exec (.vrowmax h l) s = .next ((flagged (ra.foldl (fun x _ => x ||| 0) 0)).vout s l (vkind f.a) (vaux f.a)
         (ra.map (fun r => r.map (fun _ => ((r.map f32).foldl maxF (.inf true), 0))))) ∧
       (let sums := ra.map (fun r => (r, treeSum (r.map some)))
        exec (.vrowsum h l) s = .next ((flagged (sums.foldl (fun x p => x ||| p.2.2) 0)).vout s l (vkind f.a) (vaux f.a)
         (sums.map (fun p => p.1.map (fun _ => (f32 (p.2.1.getD 0), 0)))))) ∧
       (f.a.kind ≠ .vrow →
        let m := min f.e.rows f.e.cols
        tile (.vtrans h l) ((List.range f.e.rows).map (fun i => (List.range f.e.cols).map (fun j =>
         (if i < m ∧ j < m then f32 ((ra.getD j []).getD i 0) else .fin false 0, 0))))) ∧
       (l.md.getLsbD 0 = true → tile (.vbcast h l) (List.replicate f.e.rows ((ra.headD []).map (fun w => (f32 w, 0)))))) ∧
  ∀ (s : State) (h : NodeHd) (l : LitV) (f : Fire) (ra rb : List (List W32)), Fires s h f → f.e.lanes32 f.a = some ra →
    let kd := vkind f.a
    let ax := vaux f.a
    (let lanes (rows : List (List (FVal × W32))) : Fire × Token × Bool := f.vconv l kd ax rows
     let plain (w : W32) : FVal × W32 := (f32 w, 0)
     let b := if l.md.toNat % 4 = 1 then 8 else 32
     let sty := l.md.getLsbD 2
     let scaledBy (codes : List (List Nat)) : Prop :=
       let o := lanes (List.zipWith (fun r cs => scaled b r (fun g => decodeScale sty (cs.getD g 0)) divF) ra codes)
       let full := codes.map (fun r => r ++ List.replicate (f.e.cols - r.length) 0) ++
         List.replicate (f.e.rows - codes.length) (List.replicate f.e.cols 0)
       exec (.vquant h l) s = .next (((o.1.emitTo 0 o.2.1 o.2.2).emitTo 1 (tokenOn f .tile 0 (.bytes (packElems 8 full.flatten)))
         (sty && full.all (fun r => r.all (fun c => c % 128 == 0)))).finish s)
     (l.md.toNat % 4 = 0 →
       let o := lanes (ra.map (fun r => r.map plain))
       exec (.vquant h l) s = .next ((o.1.emitTo 0 o.2.1 o.2.2).finish s)) ∧
     (l.md.toNat % 4 ≠ 0 → h.mm = 0#2 → scaledBy (ra.map (fun r => (rowsOf b ((f.e.cols + b - 1) / b) r).map (blockCode sty l.ofmt.toNat)))) ∧
     (l.md.toNat % 4 ≠ 0 → h.mm ≠ 0#2 → (f.e.zeroTokBits 8 f.b).kind = .tile → ∀ codes, f.e.laneRows 8 (f.e.zeroTokBits 8 f.b) = some codes →
       scaledBy codes)) ∧
    ((h.mm ≠ 0#2 → vkind f.b = kd ∧ f.e.lanes32 f.b = some rb) →
      let slot := l.md.toNat % 16
      let kc := tget f.e.k 0 l.kc.toNat
      let states (first : Bool) : List SmxRow :=
        if h.mm ≠ 0#2 then rb.map (fun r => ⟨r.getD 0 0, r.getD 1 0, r.getD 2 0, r.getD 3 0⟩)
        else (List.range ra.length).map (fun r => if first then SmxRow.empty else tget f.e.smx SmxRow.empty (slot * 32 + r))
      (let first := decide (h.mm = 0#2) && l.md.getLsbD 4
       let rs := List.zipWith (fun st row => smxStep st kc row) (states first) ra
       let news := rs.map (fun r => r.1)
       let e := { f.e with estat := f.e.estat ||| rs.foldl (fun a r => a ||| r.2) 0 }
       let g := f.withE (if h.mm = 0#2 then { e with smx := smxStore f.e.smx slot first news } else e)
       let u := g.codesTok 0 kd ax (news.map (fun st => [st.m.toNat, st.sg.toNat, st.n.toNat, st.q.toNat] ++ List.replicate (f.e.cols - 4) 0))
       exec (.vsmx h l) s = .next ((if h.mm ≠ 0#2 ∨ l.md.getLsbD 5 = true then g.emit u.1 u.2 else g).finish s)) ∧
      (let rs := List.zipWith (fun st row => smxfRow st kc row) (states false) ra
       let ind := rs.map (fun r => (List.range f.e.cols).map (fun i => convFmt f.e.codebook l.ofmt.toNat rne (oneOrZero (r.2.2 && i == 0))))
       let fl := rs.foldl (fun a r => a ||| r.2.1) 0 ||| ind.foldl (fun a r => r.foldl (fun b p => b ||| p.2) a) 0
       let o := (f.withE { f.e with estat := f.e.estat ||| fl }).vconv l kd ax (rs.map (fun r => r.1.map (fun w => (f32 w, 0))))
       let u := o.1.codesTok l.ofmt.toNat kd ax (ind.map (fun r => r.map (fun p => p.1)))
       exec (.vsmxf h l) s = .next (((o.1.emitTo 0 o.2.1 o.2.2).emitTo 1 u.1 u.2).finish s)))

/-- R345 to R349 and R148: MCLAIM, MREL, MSEL, MLDB and MBCB complete on slots claimed as they need; the broadcast of a tile writes it in the slot of
every receiver.
R356: MSAVE begins a write of the slot's 2 KiB to tenant memory and MREST a read of them, from the address that the operand gives. -/
def Obligations.SlotAndSaveResult : Prop :=
  ((∀ (s : State) (h : NodeHd) (l : LitM) (f : Fire), Fires s h f →
     let range := (List.range (l.md.toNat % 2 ^ 7 + 1)).map (fun i => l.slot.toNat + i)
     let n := scalarOn f (BitVec.ofNat 64 l.slot.toNat)
     let set (m : MeSt) (t : Token) (z : Bool) : State := ((f.withE { f.e with me := m }).emit t z).finish s
     let i := l.slot.toNat
     (range.all (fun i => !(f.e.me.slot i).claim) = true → exec (.mclaim h l) s = .next
       (set (range.foldl (fun m i => m.putSlot i { m.slot i with claim := true }) f.e.me) n false)) ∧
     (range.all (fun i => (f.e.me.slot i).claim) = true → exec (.mrel h l) s = .next
       (set (range.foldl (fun m i => m.putSlot i { m.slot i with claim := false, zero := false }) f.e.me) n false)) ∧
     ((h.mm = 1#2 → f.b.kind = .scalar) →
       let g := f.withE { f.e with me := { f.e.me with
         selB := if h.mm = 0#2 then l.slot else BitVec.ofNat 7 f.b.value.toNat
         selT := if h.mm = 0#2 then BitVec.ofNat 7 l.md.toNat else BitVec.ofNat 7 (f.b.value.toNat / 2 ^ 8) } }
       exec (.msel h l) s = .next ((g.emit (again g f.a) (isZero g f.a)).finish s)) ∧
     ((f.e.me.slot i).claim = true → (f.r.core f.core).mbcbPending f.elem none = false → f.a.kind = .tile → exec (.mldb h l) s = .next
       (set (f.e.me.putSlot i { f.e.me.slot i with bytes := mwrite [] 0 (f.a.bytes.take 2048), zero := false }) n false)) ∧
     ((f.e.me.slot i).claim = true → f.a.kind = .zero → exec (.mldb h l) s = .next
       (set (f.e.me.putSlot i { f.e.me.slot i with zero := true }) n false)) ∧
     (f.a.kind = .tile ∨ f.a.kind = .zero → ∃ t r', exec (.mbcb h l) s = .next t ∧ t.region f.slot = some r' ∧
       (r'.core f.core).mbcb = (f.r.core f.core).mbcb ++
         [⟨f.elem, l.slot, if f.a.kind = .zero then none else some f.a.bytes, f.node, f.ctx, f.colour, false⟩])) ∧
   ∀ (s : State) (sl c : Nat) (r : Region) (b : Mbcb), s.region sl = some r → lowestMbcb (r.core c).mbcb = some b →
     (∀ i < 16, (r.core c).receives b.elem i = true → ((r.elem c i).me.slot b.slot.toNat).claim = true) →
     ∃ t r', exec (.bBroadcast sl c) s = .next t ∧ t.region sl = some r' ∧ (r'.core c).mbcb = dropFirst (· == b) (r.core c).mbcb ∧
       ∀ i < 16, (r.core c).receives b.elem i = true →
         let o := (r'.elem c i).me.slot b.slot.toNat
         match b.pay with
         | some p => o.bytes = mwrite [] 0 (p.take 2048) ∧ o.zero = false
         | none => o.zero = true) ∧
  ∀ (s : State) (h : NodeHd) (l : LitM) (f : Fire), Fires s h f → f.a.kind = .scalar → f.a.value.toNat % 2048 = 0 →
    let o := f.e.me.slot l.slot.toNat
    let g := f.withR (f.r.count f.core f.colour 1)
    let begins (k : ReplyKind) (kind : OpKind) (d : List Byte) : State :=
      (g.finish s).begin (mkOp (.fire f.slot f.core f.elem f.node f.ctx f.colour k s.nextOp) (.operand f.slot f.core f.elem) f.r.ten kind d
        (rangeParts f.a.value 2048) apLocal)
    o.claim = true →
    exec (.msave h l) s = .next (begins .msave .write (if o.zero then List.replicate 2048 0 else mread o.bytes 0 2048)) ∧
    exec (.mrest h l) s = .next (begins (.mrest l.slot) .read [])

/-- R351, R352, R354, R355: MMA and MMAS complete as a row firing on a claimed slot that no broadcast is about to write: it owns its accumulator row
and adds the products of its beat and the slot, scaled by blocks or not, and the last of a tile sends the row count; MZERO frees the context's
rows; MDRN sends the context's rows as a tile, raw or converted, with their flags on request, and frees them unless it keeps them. -/
def Obligations.MatrixRowResult : Prop :=
  ∀ (s : State) (h : NodeHd) (l : LitM) (f : Fire), Fires s h f →
    let c := f.e.meCfg
    let r := f.a.row.toNat
    let own := l.md.getLsbD 7
    let sB := if own then f.e.me.selB else l.slot
    let sT := if own then f.e.me.selT else BitVec.ofNat 7 l.md.toNat
    let sl := f.e.me.slot sB.toNat
    let row := f.e.me.row r
    let last := f.a.aux.getLsbD 7
    let pending (x : BitVec 7) : Bool := (f.r.core f.core).mbcbPending f.elem (some x)
    let fires (i : Instr) (scaledA : Prop) [Decidable scaledA] : Prop :=
      f.a.kind = .arow → (scaledA → c.blk ≠ 0 → f.b.kind = .arow) → r < f.e.rows → sl.claim = true → pending sB = false →
      (c.blk ≠ 0 → (f.e.me.slot sT.toNat).claim = true ∧ pending sT = false) → (row.owner = none ∨ row.owner = some f.ctx) →
      (last = true → f.e.lowerBeat f.node f.ctx f.colour f.a.row = false) →
      let a := decodeRow c.cb c.fmtA f.a.bytes
      let g := depthOf c.fmtA / (if c.blk = 1 then 8 else 32)
      let sa := if scaledA ∧ c.blk ≠ 0 then scalesOf c.bst g f.b.bytes else List.replicate g (.fin false 1)
      let w := rowFiring c a.1 sa sl.bytes (f.e.me.slot sT.toNat).bytes row.w
      let f1 :=
        if sl.zero then f.withE { f.e with estat := f.e.estat ||| (a.2 ||| if a.1.any (fun v => v.isNan || v.isInf) then flZSKIP else 0) }
        else f.withE { f.e with
          estat := f.e.estat ||| (a.2 ||| w.2)
          me := f.e.me.putRow r { w := w.1, owner := some f.ctx, flags := row.flags ||| rowFlags w.2 } }
      exec i s = .next ((if last then f1.emit (scalarOn f (BitVec.ofNat 64 (r + 1))) false else f1).finish s)
    let freed := f.e.me.acc.filter (fun p => p.2.owner != some f.ctx)
    let raw := l.md.getLsbD 0
    let float := fmtFloat (bitsAt (f.e.w 1) 28 4)
    fires (.mma h l) False ∧ fires (.mmas h l) True ∧
    (let g := f.withE { f.e with me := { f.e.me with acc := freed } }
     exec (.mzero h l) s = .next ((g.emit (again g f.a) (isZero g f.a)).finish s)) ∧
    ((raw = true → float = false) →
      let mine (r : Nat) : AccRow := if (f.e.me.row r).owner = some f.ctx then f.e.me.row r else ⟨[], none, 0⟩
      let cells := (List.range f.e.rows).map (fun r => (List.range f.e.cols).map (fun n =>
        let v := tget (mine r).w 0 n
        if raw then (v.toNat, 0#32)
        else convFmt f.e.codebook l.ofmt.toNat ⟨l.rnd.toNat, 0⟩ (if float then f32 v else FVal.ofInt v.toInt)))
      let words := cells.map (fun r => r.map (fun p => p.1))
      let fl := cells.foldl (fun x r => r.foldl (fun y p => y ||| p.2) x) 0
      let g := f.withE (if l.md.getLsbD 1 then { f.e with estat := f.e.estat ||| fl }
        else { f.e with estat := f.e.estat ||| fl, me := { f.e.me with acc := freed } })
      let t := g.codesTok l.ofmt.toNat .tile 0 words
      let z := if raw then words.all (fun r => r.all (· == 0)) else t.2
      let flags : BitVec 4 := (List.range f.e.rows).foldl (fun x r => x ||| (mine r).flags) 0
      exec (.mdrn h l) s = .next (((g.emitTo 0 t.1 z).emitTo 1
        (if l.md.getLsbD 2 then scalarOn f (BitVec.ofNat 64 flags.toNat) else t.1) (if l.md.getLsbD 2 then false else z)).finish s))

/-- R359, R364 to R368: the sum-product nodes complete on registers below NSER: what each writes to the registers in order, the flags it sets, and what
it emits; the base of a pass is IDX or, with DYN, the operand's value. For SPARG every register that a choice may read lies below NSER. -/
def Obligations.SumProductResult : Prop :=
  ∀ (s : State) (h : NodeHd) (l : LitP) (f : Fire), Fires s h f →
    let dyn := l.md.getLsbD 0
    let base := if dyn then f.a.value.toNat % 2 ^ 8 else l.idx.toNat
    let sh := f.e.shape l.shape.toNat
    let spm := l.spm == 1#1
    let reg := f.e.seReg
    let set (ws : List (Nat × W32)) (fl : W32) : Fire := f.withE { f.e with estat := f.e.estat ||| fl, se := ws.foldl (fun t p => tset t p.1 p.2) f.e.se }
    let setOnly (ws : List (Nat × W32)) : Fire := f.withE { f.e with se := ws.foldl (fun t p => tset t p.1 p.2) f.e.se }
    let low (rs : List Nat) : Prop := ∀ a ∈ rs, a / 16 < f.e.nser
    let sends (i : Instr) (g : Fire) (v : Word) : Prop := exec i s = .next ((g.emit (scalarOn f v) false).finish s)
    let passes (i : Instr) (g : Fire) : Prop := exec i s = .next ((g.emit (again g f.a) (isZero g f.a)).finish s)
    let up (i : Instr) (maxm : Bool) : Prop :=
      let ev := sh.eval spm maxm base reg 5 sh.root
      let ws := [(sh.outReg base, ev.v.getD 0)] ++ (ev.nodes.filter (fun p => sh.saves p.1)).map (fun p => (sh.saveReg base p.1, p.2))
      low ((sh.leaves 5 sh.root).map (sh.leafReg base) ++ ws.map (fun p => p.1)) → sends i (set ws ev.fl) (BitVec.ofNat 64 (ev.v.getD 0).toNat)
    let win (b n : Nat) : List Nat := (List.range n).map (fun i => (16 * b + l.bank.toNat + i) % 4096)
    let w11 := win l.idx.toNat (l.md.toNat % 1024 + 1)
    let keep := l.md.getLsbD 1
    ((dyn = true → f.a.kind = .scalar) →
      up (.spup h l) false ∧ up (.spmax h l) true ∧
      (let d := sh.down spm (l.md.getLsbD 2) base reg 5 sh.root (reg (sh.rootOut base))
       let ws := ((d.outs.map (fun p => sh.leafOut base p.1)).eraseDups).map (fun a =>
         let os := (d.outs.filter (fun p => sh.leafOut base p.1 == a)).map (fun p => p.2)
         (a, if keep then spFold spm (reg a) os
             else match os with
               | [o] => (o, 0)
               | os => spFold spm 0 os))
       low ([sh.rootOut base] ++ d.reads ++ ws.map (fun p => p.1)) →
         passes (.spdn h l) (set (ws.map (fun p => (p.1, p.2.1))) (ws.foldl (fun x p => x ||| p.2.2) d.fl))) ∧
      (let m := sh.marks spm base reg 5 sh.root
       let leaves := sh.leaves 5 sh.root
       let set1 (a : Nat) : Bool := keep && if spm then spfVal (reg a) != 0 else !(f32 (reg a)).isZero
       let ws := ((leaves.map (sh.leafOut base)).eraseDups).map (fun a =>
         (a, if leaves.any (fun j => sh.leafOut base j == a && m.contains j) || set1 a then (if spm then 0x8000#32 else 0x3F800000#32) else 0))
       low (sh.choices base 5 sh.root ++ ws.map (fun p => p.1)) → sends (.sparg h l) (setOnly ws) (BitVec.ofNat 64 (m.foldl (fun x j => x + 2 ^ j) 0))) ∧
      (let t := f.e.zeroTok f.a
       let v := f.a.value.toNat
       let given : Option (List W32) :=
         if t.kind = .scalar then some (if l.md.getLsbD 2 then [BitVec.ofNat 32 v] else [BitVec.ofNat 32 v, BitVec.ofNat 32 (v / 2 ^ 32)])
         else if t.kind = .vrow then some ((unpackElems 32 64 t.bytes).map (BitVec.ofNat 32))
         else if t.kind = .tile then some ((unpackElems 32 (t.bytes.length / 4) t.bytes).map (BitVec.ofNat 32))
         else none
       ∀ ws, given = some ws → ws.length ≤ 4096 →
         let cs := ws.map (fun w => if keep then spfOfF32 w else (w, 0))
         low (win base ws.length) →
           sends (.spld h l) (set ((win base ws.length).zip (cs.map (fun p => p.1))) (cs.foldl (fun x p => x ||| p.2) 0)) (BitVec.ofNat 64 ws.length)) ∧
      (let kind := l.md.toNat / 2 % 4
       let w := win base (if kind = 0 then 2 else if kind = 1 then 64 else f.e.rows * f.e.cols)
       let cvt := l.md.getLsbD 3
       let cs := w.map (fun a => if cvt then f32OfSpf (reg a) else (reg a, 0))
       let ws := cs.map (fun p => p.1)
       let pay := packElems 32 (ws.map (fun x => x.toNat))
       let g := f.withE { f.e with estat := f.e.estat ||| cs.foldl (fun x p => x ||| p.2) 0 }
       let aux : BitVec 8 := if f.a.kind = .arow ∨ f.a.kind = .vrow then f.a.aux else 0
       low w →
         if kind = 0 then sends (.spst h l) g (BitVec.ofNat 64 (leNum pay))
         else if kind = 1 then exec (.spst h l) s = .next ((g.emit (tokenOn f .vrow aux (.bytes pay)) false).finish s)
         else exec (.spst h l) s = .next ((g.emit (tokenOn f .tile 0 (.bytes pay))
           (ws.all (fun w => if spm && !cvt then spfVal w == 0 else (f32 w).isZero))).finish s))) ∧
    (f.a.kind = .scalar → (h.mm = 1#2 → f.b.kind = .scalar) →
      let a := if h.mm = 0#2 then spReg l.bank.toNat l.idx.toNat else spReg (f.b.value.toNat / 2 ^ 8 % 2 ^ 4) (f.b.value.toNat % 2 ^ 8)
      low [a] → passes (.spw h l) (setOnly [(a, BitVec.ofNat 32 f.a.value.toNat)])) ∧
    (low w11 → passes (.spzero h l) (setOnly (w11.map (fun a => (a, 0))))) ∧
    (low w11 →
      let ws := w11.map (fun a => (a, if l.md.getLsbD 10 then f32OfSpf (reg a) else spfOfF32 (reg a)))
      passes (.spcvt h l) (set (ws.map (fun p => (p.1, p.2.1))) (ws.foldl (fun x p => x ||| p.2.2) 0))) ∧
    (low w11 → (∀ a ∈ w11, spfVal (reg a) = 0) → sends (.spnrm h l) f 0) ∧
    ∀ e : Int, low w11 → spEmax (w11.map reg) = some e →
      let ws := w11.map (fun a => (a, if spfVal (reg a) = 0 then (reg a, 0) else spf (spfVal (reg a) * pow2 (-e))))
      sends (.spnrm h l) (set (ws.map (fun p => (p.1, p.2.1))) (ws.foldl (fun x p => x ||| p.2.2) 0)) (BitVec.ofInt 64 e)

/-! Address generators, exchange elements, token events, memory events -/

/-- R372 to R377, R188: a memory firing of an address generator completes by entering the ordering unit with its operands and wave numbers, as an outstanding operation of its colour, and what
follows of itself follows; ACFG sends a configuration token; AEOS enters a boundary, also for an EOS operand; the ordering unit releases the first firing that may go, but none while a
boundary is the oldest that waits: the boundary takes effect first, once no released access is left to issue. R188: a wave may be released when it names the last released wave of its context
and colour as its predecessor, or that one names it as its successor; the first is wave 0, once every earlier colour of the context has ended its waves. The place of a boundary among the
accesses is read by inference (log 44). -/
def Obligations.AddressGeneratorResult : Prop :=
  ((∀ (s : State) (h : NodeHd) (l : LitA) (f : Fire), (∀ g, s.mayBegin g = true) →
     let w := l.wave.toNat
     let enters (i : Instr) (k : AccKind) (a : Word) (d : List Byte) : Prop :=
       let acc : Access :=
         { kind := k, node := f.node, ctx := f.ctx, colour := f.colour, a := a, data := d, own := BitVec.ofNat 10 (w / 2 ^ 20),
           pred := BitVec.ofNat 10 (w / 2 ^ 10), succ := BitVec.ofNat 10 w, num := s.nextOp, waited := false }
       let g := f.withR (f.r.count f.core f.colour 1)
       let t := (g.finish s).onAe f.slot f.core f.elem (fun x => { x with waiting := x.waiting ++ [acc] })
       exec i s = .next ({ t with nextOp := s.nextOp + 1 }.run)
     let a := f.a.value
     let data (t : Token) : Prop := (f.e.zeroTok t).kind ∈ [.scalar, .arow, .vrow, .tile]
     (Fires s h f ∨ s.startFiring h = some (.eos, f) → enters (.aeos h l) (.boundary (if l.opm = 0 then 1 else 2)) 0 []) ∧
     (Fires s h f →
       enters (.aload h l) (.aload l.opm) 0 [] ∧
       (data f.a → enters (.astore h l) .astore 0 (f.e.zeroTok f.a).bytes) ∧
       (f.a.kind = .scalar →
         enters (.agath h l) (.agath l.opm) a [] ∧
         enters (.wld h l) (.wld l.opm) a [] ∧
         (data f.b → enters (.ascat h l) .ascat a (f.e.zeroTok f.b).bytes) ∧
         (f.b.kind = .scalar → enters (.wst h l) (.wst l.opm) a (leOf (2 ^ l.opm.toNat) f.b.value.toNat)) ∧
         exec (.acfg h l) s = .next ((f.emit (tokenOn f .cfg (BitVec.ofNat 8 l.opm.toNat) (.word a)) false).finish s).run))) ∧
   ∀ (s : State) (sl c e : Nat) (r : Region) (a : Access), s.region sl = some r → (r.elem c e).ae.ready = [] →
     let without : State := s.onAe sl c e (fun x => { x with waiting := dropFirst (· == a) x.waiting })
     ((∀ b, (r.elem c e).ae.waiting.find? Access.real = some b → b.isBound = false) →
       (r.elem c e).ae.waiting.find? (fun a => !a.isBound && (!(r.elem c e).waveOn || r.mayRelease (r.elem c e) a)) = some a →
       exec (.waveRelease sl c e) s = .next (without.releaseAccess sl c e a).run) ∧
     ∀ n, (r.elem c e).ae.waiting.find? Access.real = some a → a.kind = .boundary n →
       exec (.waveRelease sl c e) s = .next (without.takeBoundary sl c e a n).run) ∧
  ∀ (r : Region) (e : Elem) (a : Access),
    (∀ w, e.ae.wave a.ctx a.colour = some w →
      (r.mayRelease e a = true ↔ a.pred = w.own ∧ a.pred ≠ 1023 ∨ w.succ = a.own ∧ w.succ ≠ 1023)) ∧
    (e.ae.wave a.ctx a.colour = none →
      (r.mayRelease e a = true ↔ a.own = 0 ∧ ∀ c ∈ (r.coloursOf a.ctx).takeWhile (fun c => c != a.colour),
        (∃ w, e.ae.wave a.ctx c = some w ∧ w.ended = true) ∨ c ∈ r.purged))

/-- R378 to R384, R387, R388, R389: a firing of an exchange operation completes by beginning it as an outstanding operation of its colour, in firing order, with its address and data. That a
CRECV of a collective that is not loaded begins nothing is read by inference (log 38). -/
def Obligations.ExchangeBegins : Prop :=
  ∀ (s : State) (h : NodeHd) (f : Fire), Fires s h f →
    ∀ (l : LitX) (lf : LitF) (lt : LitT) (lq : LitQ) (cl : BitVec 6),
    let begun (s : State) (f : Fire) (k : XKind) (a : Word) (d : List Byte) (t : Token) : State :=
      let x : XOp := { num := s.nextOp, kind := k, node := f.node, ctx := f.ctx, colour := f.colour, addr := a, data := d, tok := t, op := none, orphan := false }
      let g := f.withR (f.r.count f.core f.colour 1)
      { (g.finish s).onXe f.slot f.core f.elem (fun q => { q with ops := q.ops ++ [x] }) with nextOp := s.nextOp + 1 }
    let a := f.a.value + BitVec.ofInt 64 l.disp.toInt
    exec (.rfen h) s = .next (begun s f .rfen 0 [] (again f f.a)).run ∧
    exec (.fencex h lf) s = .next (begun s f (.fencex lf.spath lf.dpath lf.scope) 0 [] (again f f.a)).run ∧
    (∀ k, s.coll f.r.ten cl.toNat = some k → exec (.crecv h cl) s = .next ((begun s f (.crecv cl) 0 [] f.a).serveCrecvs f.r.ten cl.toNat 1).run) ∧
    (f.a.kind = .scalar →
      exec (.tbarv h lt) s = .next (begun s f (.tbarv lt.buf lt.off) 0 [] (again f f.a)).run ∧
      (xMisaligned a (xopSize l.xop.toNat f.e) = false → exec (.rld h l) s = .next (begun s f (.rld l.xop) a [] f.a).run) ∧
      (let u := f.e.zeroTok f.b
       let n := xopSize l.xop.toNat f.e
       let fits : Prop := l.xop.toNat < 4 ∧ u.kind = .scalar ∨ l.xop.toNat = 4 ∧ u.kind = .arow ∨ l.xop.toNat = 5 ∧ u.kind = .vrow ∨
         l.xop.toNat = 6 ∧ u.kind = .tile ∧ u.bytes.length = n
       xMisaligned a n = false → fits →
         exec (.rst h l) s = .next (begun s f (.rst l.xop) a (if l.xop.toNat < 4 then u.bytes.take n else u.bytes) f.a).run) ∧
      (xMisaligned a (ratomSize l.xop.toNat) = false → f.b.kind = .scalar →
        exec (.ratom h l) s = .next (begun s f (.ratom l.xop l.sem) a (leOf 8 f.b.value.toNat) f.a).run) ∧
      (∀ k, s.coll f.r.ten cl.toNat = some k → f.a.value.toNat % 8 = 0 →
        exec (.claunch h cl) s = .next ((((begun s f (.claunch cl) f.a.value [] f.a).onColl f.r.ten cl.toNat
          (fun k => { k with waiting := k.waiting ++ [(f.slot, f.core, f.elem, s.nextOp, f.a.value)] })).startNext f.r.ten cl.toNat
          (k.waiting.length + 1))).run)) ∧
    ∀ rt, s.route f.r.ten lq.red = some rt → (rt.vto = true ↔ lq.vt = 1) →
      (∀ v, s.receiver f.r.ten lq.red = some v → v.xe = none ∨ v.xe = some (f.slot, f.core, f.elem)) →
      let mine := f.e.xe.recvs.any (fun y => y.red == lq.red)
      (mine = false → f.e.xe.recvs.length < 4) →
      let g := if mine then f else f.withE { f.e with xe := { f.e.xe with recvs := f.e.xe.recvs ++ [⟨lq.red, 0⟩] } }
      let here := some (f.slot, f.core, f.elem)
      let s1 := match s.receiver f.r.ten lq.red with
        | some _ => s.onRecv f.r.ten lq.red (fun v => { v with xe := here })
        | none => s.withFb (fun b => { b with recvs := b.recvs ++ [{ ten := BitVec.ofNat 4 f.r.ten, red := lq.red, xe := here, pkts := [] }] })
      exec (.smrecv h lq) s = .next ((begun s1 g (.smrecv lq.red lq.vt) 0 [] f.a).serveRecvs f.r.ten lq.red 1).melds.run

/-- R385, R386, R47: an SMSEND on an open stream that holds credit for a packet completes by placing the entries of its operand in the stream's
packet: it emits their number when none is completed, and else keeps the packets for their credit as an outstanding operation; an EOS ends the
stream, its last packet and its end packet waiting for credit likewise. A stream without credit makes it wait. NIL passes; a FAULT sends FAULT tokens and
ends the stream with an end packet of status ABORT, once no end and no placing is outstanding. That a firing of several packets ends when they are sent,
and that the stream takes nothing meanwhile, is the model's (log 37). -/
def Obligations.StreamSendResult : Prop :=
  ∀ (s : State) (h : NodeHd) (f : Fire) (l : LitQ) (rt : Route), s.route f.r.ten l.red = some rt →
    let old := f.e.xe.sends.find? (fun z => z.red == l.red && z.lin == l.lin)
    let y : SendStream := old.getD
      { red := l.red, lin := l.lin, vt := l.vt, buf := [], wait := [], placing := none, pseq := 0, failed := none, unacked := 0, ending := none, orphan := false }
    let g := f.withR (f.r.count f.core f.colour 1)
    let held (z : SendStream) : State := ((g.putSend z).finish s).melds.run
    (y.ending = none → y.placing = none → y.failed = none → y.unacked < 8 → (old = none → f.e.xe.sends.length < 4) →
      (s.startFiring h = some (.eos, f) →
        exec (.smsend h l) s = .next (held { y with buf := [], wait := framed (y.close 0), ending := some (f.node, f.ctx, f.colour), orphan := false })) ∧
      (Fires s h f → y.vt = l.vt → ∀ es, sendEntries (l.vt == 1#1) f.e f.a = some es →
        let p := y.place es
        (f.a.kind = .scalar →
          let v := f.a.value.toNat
          es = [(BitVec.ofNat 32 v, BitVec.ofNat 32 (v / 2 ^ 32 % (if l.vt = 1 then 2 ^ 16 else 2 ^ 32)))]) ∧
        (p.2 = [] → exec (.smsend h l) s = .next (((f.putSend p.1).emit (scalarOn f (BitVec.ofNat 64 es.length)) false).finish s).run) ∧
        (p.2 ≠ [] → exec (.smsend h l) s = .next (held
          { p.1 with wait := framed p.2, placing := some (f.node, f.ctx, f.colour, es.length), orphan := false })))) ∧
    (Fires s h f → y.ending.isSome = true ∨ y.placing.isSome = true ∨ 8 ≤ y.unacked ∧ y.failed = none → exec (.smsend h l) s = .next s) ∧
    (s.startFiring h = some (.nil, f) → exec (.smsend h l) s = .next ((f.emit (tokenOn f .nil 0 .none) false).finish s)) ∧
    ∀ aux, s.startFiring h = some (.fault aux, f) →
      let gone := f.withE { f.e with xe := { f.e.xe with sends := f.e.xe.sends.filter (fun z => !(z.red == l.red && z.lin == l.lin)) } }
      let s1 := (gone.emit (tokenOn f .fault aux .none) false).finish s
      let out (t : State) (b : List Byte) : State :=
        t.addOut { ten := rt.ten, red := rt.red, dev := rt.dev, up := some (rt.unit, y.lin), unacked := y.unacked, queue := [] } b
      (y.ending.isSome = true ∨ y.placing.isSome = true → exec (.smsend h l) s = .next s) ∧
      (y.ending = none → y.placing = none → (y.failed = none ∨ ∃ st, y.failed = some st ∧ 1 < st) →
        exec (.smsend h l) s = .next ((framed (y.close 3)).foldl out s1).melds.run) ∧
      (y.ending = none → y.placing = none → (∃ st, y.failed = some st ∧ st ≤ 1) → exec (.smsend h l) s = .next s1.run)

/-- R125, R126, R328: QPOP and QTRY complete with the item at HEAD mod the ring's size as its two words, HEAD moved on by one in the descriptor, or with the
end of a closed empty queue as EOS; on an empty open queue QTRY emits NIL and QPOP waits in the queue unit. Any CLOSED byte but 0 is closed (log 46).
R309, R125, R126: QPUSHC completes with 0 for an item written into a ring with room, 1 on a closed queue, and QCLOSE with the queue's previous state;
a full ring makes the thread wait in the queue unit. -/
def Obligations.QueueOperationResult : Prop :=
  (∀ (s : State) (h : NodeHd) (f : Fire) (q : QDesc), Fires s h f → f.a.kind = .scalar → f.a.value.toNat % 64 = 0 →
     let va := f.a.value
     let ten := f.r.ten
     let s0 := s.counted ten needR va 64
     s0.qdesc ten va = .ok q →
     let g := f.withR (f.r.count f.core f.colour 1)
     let gives (i : Instr) (t : State) (toks : List (Nat × Token)) : Prop :=
       exec i s = .next (((g.finish t).dropPath f.slot f.core 7 3).endAccess f.slot f.core f.elem f.node f.colour toks).queueRun
     let word (b : List Byte) : Token := scalarOn f (BitVec.ofNat 64 (leNum b))
     (∀ s1 b, q.head ≠ q.tail → s0.uget ten needR apLocal (q.base + 16 * BitVec.ofNat 64 (q.head.toNat % 2 ^ q.log2n)) 16 = (s1, .ok b) →
       let t := (s1.vput ten apLocal va { q with head := q.head + 1 }.bytes).1
       let toks := [(0, word (b.take 8)), (1, word (b.drop 8))]
       gives (.qpop h) t toks ∧ gives (.qtry h) t toks) ∧
     (q.head = q.tail → q.closed ≠ 0#8 → gives (.qpop h) s0 [(2, tokenOn f .eos 0 .none)] ∧ gives (.qtry h) s0 [(2, tokenOn f .eos 0 .none)]) ∧
     (q.head = q.tail → q.closed = 0#8 → gives (.qtry h) s0 [(2, tokenOn f .nil 0 .none)] ∧
       ∃ t : State, exec (.qpop h) s = .next t ∧ t.wk.qwaits = s.wk.qwaits ++ [⟨false, f.slot, f.core, f.elem, s.nextOp, va, []⟩])) ∧
  ∀ (s : State) (k : Cc), s.ccOf = some k → ∀ (h : CcHd) (d a b : BitVec 5),
    let va := k.t.rd a
    let s0 := s.counted k.r.ten needR va 64
    let answers (i : Instr) (t : State) (v : Nat) : Prop :=
      exec i s = .next (((t.dropPath k.slot k.core 7 3).putThread k.slot k.core k.thr (answered k d (BitVec.ofNat 64 v))).queueRun)
    va.toNat % 64 = 0 → ∀ q, s0.qdesc k.r.ten va = .ok q →
    (∀ m off, (k.t.rd b).toNat % 16 = 0 → k.r.window (k.t.rd b) 16 = some (m, off) →
      let item := s.bufRead k.slot k.core m off 16
      (q.closed ≠ 0#8 → answers (.qpushc h d a b) s0 1) ∧
      (q.closed = 0#8 → (q.tail - q.head).toNat ≠ 2 ^ q.log2n → ∀ s1, s0.vput k.r.ten apLocal (q.base + 16 * BitVec.ofNat 64 (q.tail.toNat % 2 ^ q.log2n)) item = (s1, none) →
        answers (.qpushc h d a b) (s1.vput k.r.ten apLocal va { q with tail := q.tail + 1 }.bytes).1 0) ∧
      (q.closed = 0#8 → (q.tail - q.head).toNat = 2 ^ q.log2n →
        ∃ t, exec (.qpushc h d a b) s = .next t ∧ t.thread k.slot k.core k.thr = { k.t with st := .block .queue } ∧
          t.wk.qwaits = s.wk.qwaits ++ [⟨true, k.slot, k.core, k.thr, 0, va, item⟩])) ∧
    answers (.qclose h d a) (s0.vput k.r.ten apLocal va { q with closed := 1 }.bytes).1 q.closed.toNat

/-- R166, R167, R168: the first token of an arc, with credit at every link that is left, lands in a free place of its port's pool, the places of tokens on their
way back from the talon kept free, and leaves the arc; no byte of memory changes, and one from its own core leaves the memory system as it is (logs 8, 49);
a spilled token that may come back is read from the talon. -/
def Obligations.TokenLandingResult : Prop :=
  (∀ (s : State) (sl idx : Nat) (r : Region) (f : Flight) (p : Place) (l : Landing), s.region sl = some r → (r.running = true ∨ (s.slot sl).st = 4#8) →
    r.flight[idx]? = some f → r.firstOfArc idx f = true → s.mayArrive r sl f = true →
    f.tok.kind ∈ [.scalar, .arow, .vrow, .tile, .nil, .eos, .fault] → f.tok.act ≠ 1#2 → f.tok.skip = 0 → f.tok.core.toNat < r.ncore →
    let c := f.tok.core.toNat
    let i := f.tok.elem.toNat
    let w := (r.core c).withBack i
    r.takes c i f.tok.node.toNat f.tok.port = true → ¬(elemClass i = 0 ∧ f.tok.kind = .tile ∧ 2048 < f.tok.bytes.length) →
    w.place f.tok = some p → w.landAt i f.tok = some l →
    ∃ (s1 : State) (r' : Region), exec (.tokenLanding sl idx) s = .next s1.run ∧ s1.region sl = some r' ∧ r'.flight = ldel r.flight idx ∧
      r'.elem c i = { r.elem c i with pool := (r.elem c i).pool ++ [⟨f.tok, p, l⟩] } ∧
      (∀ c' i', (c', i') ≠ (c, i) → r'.elem c' i' = r.elem c' i') ∧ SameMemory s s1 ∧ (f.arc.from_ = c → s1.ms = s.ms) ∧
      ∀ c', (r'.core c').counts = (r.core c').counts) ∧
  ∀ (s : State) (sl c idx : Nat) (r : Region) (x : Spilled) (p : Place) (l : Landing), s.region sl = some r → r.acts = true →
    (r.core c).talon[idx]? = some x → (r.core c).backPlace x = some (p, l) →
    ∃ (s1 : State) (r' : Region), exec (.talonRefetch sl c idx) s = .next s1.run ∧ s1.region sl = some r' ∧
      (r'.core c).talon = ldel (r.core c).talon idx ∧ (r'.core c).refetch = (r.core c).refetch ++ [{ x with back := p, land := l }]

/-- R142, R143, R165, R173: a marker applies the constants queued for it, in the order of the queue, and leaves the others; a snapshot retires the lead colour and those behind it as far as they
have finished, and no other, and keeps the count of each live colour for the next; the lead colour's broadcast reaches an element, which flushes the skip entries that cover that colour
(R179); a region that has not moved for its detection time with a token outstanding raises DEADLOCK in core 0. That a flush counts as an emission, and what a snapshot keeps, are read by
inference (logs 29, 46). -/
def Obligations.RegionEventResult : Prop :=
  ∀ (s : State) (sl : Nat) (r : Region), s.region sl = some r →
    (∀ c i f rest, r.acts = true → (r.elem c i).markers = f :: rest → (∀ k ∈ (r.elem c i).skips, k.node ≠ f.tok.node.toNat) →
      ∃ (t : State) (r' : Region), exec (.markerTake sl c i) s = .next t ∧ t.region sl = some r' ∧ (r'.elem c i).markers = rest ∧
        (r'.elem c i).pendK = (r.elem c i).pendK.filter (fun p => p.m != f.tok.aux) ∧
        ∀ n, let mine := (r.elem c i).pendK.filter (fun p => p.m == f.tok.aux && p.k.toNat == n)
          tget (r'.elem c i).k 0 n = match mine.getLast? with
            | some p => p.v
            | none => tget (r.elem c i).k 0 n) ∧
    (∀ n, r.running = true → r.done = [] →
      let at_ (j : Nat) : BitVec 8 := r.lead + BitVec.ofNat 8 j
      let finished (c : BitVec 8) : Prop := r.sum c = 0 ∧ r.changed c = false ∧ (c, 0) ∈ r.snap
      n ≤ r.live → (∀ j < n, finished (at_ j)) → (n < r.live → ¬finished (at_ n)) →
      ∃ (s1 : State) (r' : Region), exec (.retirementSnapshot sl) s = .next s1.run ∧ s1.region sl = some r' ∧ r'.lead = at_ n ∧ r'.next = r.next ∧
        r'.snap = ((List.range r.live).drop n).map (fun j => (at_ j, r.sum (at_ j))) ∧
        ∀ c, c ∈ r'.done ↔ finished c ∧ ∃ j, n ≤ j ∧ j < r.live ∧ c = at_ j) ∧
    (∀ c i, (r.elem c i).used = true → ∃ (t : State) (r' : Region), exec (.leadColourBroadcast sl c i) s = .next t ∧ t.region sl = some r' ∧
      (r'.elem c i).lead = r.lead ∧ (r'.elem c i).pool = (r.elem c i).pool ∧
      ∀ k ∈ (r'.elem c i).skips, k ∈ (r.elem c i).skips ∧ k.covers r.lead = false) ∧
    (r.running = true → r.fired = false → 2 ^ s.detectK r ≤ s.idleCount sl r →
      ((∃ c ∈ r.liveColours, r.sum c ≠ 0) ∨ ∃ f ∈ r.flight, f.tok.act = 1#2) →
      ∃ (t : State) (r' : Region), exec (.deadlock sl) s = .next t ∧ t.region sl = some r' ∧ r'.fired = true ∧ (r'.core 0).evpend.getLsbD 0 = true)

/-- R20 to R23, R28, R207, R216: a request that is well formed and that its memory can serve is performed, at an expander 64 bytes at a time: a read answers
the bytes of its place, or what its path has staged of them, an atomic the old value and leaves the new one, a write replaces them, a masked write replaces
the enabled bytes and, with no byte enabled, none; the reply, with the KIND that asked for it, is on its way, and no other byte changes. The pieces at an
expander are log 42; when a read is answered from staging, with the error that it was staged with, and that an atomic of path REM may read its own staging,
is the model's (log 8). -/
def Obligations.MemoryRequestPerformed : Prop :=
  ∀ (s : State) (idx : Nat) (q : Req), s.servable idx = some q → q.malformed = false → s.locStatus q.loc q.size = 0 → (∀ d a, q.loc ≠ .peer d a) →
    let l := q.loc
    let replied (t : State) (d : List Byte) (fl : BitVec 2) : Prop :=
      t.ms.reqs = ldel s.ms.reqs idx ∧ t.ms.reps = s.ms.reps ++ [{ req := q, status := 0, data := d, flags := fl }]
    let goesOn (t : State) (x : Req) : Prop := t.ms.reqs = lset s.ms.reqs idx x ∧ t.ms.reps = s.ms.reps
    let others (t : State) (lo n : Nat) : Prop := (∀ m : Loc, (∀ k < n, (l.plus (lo + k)).space ≠ m.space) → t.locRead m 1 = s.locRead m 1) ∧
      ∀ sl c b a, t.bufRead sl c b a 1 = s.bufRead sl c b a 1
    let staged := if q.stream.path = 8 ∨ q.off ≠ 0 then none else (s.stagePick q.stream (s.reqThread q) l.space.1 l.space.2 q.size).2
    (q.kind = 1#4 → q.atom = none →
      ∃ t : State, exec (.read idx) s = .next t ∧ SameMemory s t ∧
        match staged with
        | some (b, bad) => t.ms.reqs = ldel s.ms.reqs idx ∧ t.ms.reps = s.ms.reps ++ [⟨q, if bad then 2 else 0, if bad then [] else b, 0⟩]
        | none =>
          if q.off + q.line < q.size then goesOn t { q with off := q.off + q.line, got := q.got ++ s.locRead (l.plus q.off) q.line }
          else replied t (q.got ++ s.locRead (l.plus q.off) (q.size - q.off)) 0) ∧
    (∀ f off n v, q.kind = 1#4 → q.atom = some (f, off, n, v) →
      let m := s.locRead (l.plus off) n
      let old := leNum (if q.stream.path = 6 then (s.stageRead q.stream 0 (l.plus off).space.1 (l.plus off).space.2 m).2 else m)
      let e := f.eval n old v.toNat
      ∃ t : State, exec (.read idx) s = .next t ∧ replied t (leOf n old) e.2 ∧ others t off n ∧
        ∀ w, e.1 = some w → t.locRead (l.plus off) n = leOf n w) ∧
    (q.kind = 2#4 → q.data.length = q.size →
      let d := (q.data.drop q.off).take q.line
      ∃ t : State, exec (.write idx) s = .next t ∧ t.locRead (l.plus q.off) d.length = d ∧ others t q.off d.length ∧
        if q.off + q.line < q.size then goesOn t { q with off := q.off + q.line } else replied t [] 0) ∧
    (q.kind = 3#4 → q.off = 0 → q.data.length = 32 →
      ∃ t : State, exec (.maskedWrite idx) s = .next t ∧ others t 0 32 ∧ replied t [] 0 ∧
        ∀ k < 32, t.locRead (l.plus k) 1 = if q.mask.getLsbD k then [q.data.getD k 0] else s.locRead (l.plus k) 1)

/-- R19, R22, R28, R192, R193: a reply to the request that its tag holds frees the tag; a late one is dropped and counted, one of more than 2 ms arrives never; a request
that has run out of time frees its tag under the next generation and is counted; a held request is discarded after 1.5 ms, at a memory and at a fabric port; a CXL request that no
completion answers gets status UE, after the earlier ones that it overlaps (that the whole request does: log 42).
R25 and R26: a parity alert is replayed and counted; the fourth replay that fails in a row retrains the channel; retraining that fails takes the channel offline and sets DEGR (R64); the
chain of a far stack fails. Which channels there are, and what a failed chain does to accesses, is log 47. -/
def Obligations.ReplyAndChannelErrorResult : Prop :=
  (∀ (s : State) (idx : Nat),
     (∀ r, s.ms.reps[idx]? = some r → (s.ms.reps.take idx).any (fun p => p.req.overlaps r.req) = false →
       let q := r.req
       let t := s.ms.tag q.stream q.target q.tag.toNat
       let held : Prop := t.gen = q.gen ∧ ∃ b, t.busy = some b ∧ b.id = q.id
       let s1 := s.withMs (fun m => { m with reps := ldel m.reps idx })
       (2000000 < s.time - q.at_ → exec (.memReply idx) s = .next s1) ∧
       (s.time - q.at_ ≤ 2000000 → held →
         exec (.memReply idx) s = .next ((q.serves.foldl (fun s sv => s.takeServe r sv) (s1.withMs (fun m => m.putTag { t with busy := none }))).aliveStream q.stream).run) ∧
       (s.time - q.at_ ≤ 2000000 → ¬held → ∃ u : State, exec (.memReply idx) s = .next u ∧ u.ms.tags = s.ms.tags ∧ u.ms.ops = s.ms.ops ∧ SameMemory s u ∧
         tget u.ms.late 0 q.edge = satInc32 (tget s.ms.late 0 q.edge))) ∧
     (∀ t q, s.ms.tags[idx]? = some t → t.busy = some q → (∀ sv ∈ q.serves, s.overdue q.at_ sv = true) → (q.serves = [] → 1000000 ≤ s.time - q.at_) →
       ∃ u : State, exec (.requestTimeout idx) s = .next u.run ∧
         tget u.ms.tmo 0 q.edge = satInc32 (tget s.ms.tmo 0 q.edge) ∧
         { t with busy := none, gen := t.gen + 1, old := t.old ++ [(t.gen, s.time)] } ∈ u.ms.tags) ∧
     (∀ q, s.ms.reqs[idx]? = some q → 1500000 ≤ s.time - q.at_ →
       exec (.heldRequestDiscard idx) s = .next (s.withMs (fun m => { m with reqs := ldel m.reqs idx }))) ∧
     (s.ms.reqs[idx]? = none → ∃ u : State, exec (.heldRequestDiscard idx) s = .next u ∧ u.ms = s.ms ∧
       (∀ q, q ∈ u.fb.out ↔ q ∈ s.fb.out ∧ s.expired q.pkt q.at_ = false) ∧ ∀ p, p ∈ u.fb.awaits ↔ p ∈ s.fb.awaits ∧ s.expired p s.time = false) ∧
     ∀ q p, s.servable idx = some q → q.target = .cxl p → ∃ u : State, exec (.completionTimeout idx) s = .next u ∧
       u.ms.reqs = ldel s.ms.reqs idx ∧ u.ms.reps = s.ms.reps ++ [⟨q, 2, [], 0⟩] ∧ SameMemory s u) ∧
  ∀ (s : State) (st ch : Nat), st < 8 → ch < 32 →
    let n := 32 * st + ch
    let h := tget s.ms.hstat ⟨0, 0, 0, 0⟩ st
    ((s.ms.chan n).train = false → (tget s.ms.hoffl 0 st).getLsbD ch = false →
      ∃ t : State, exec (.parityAlert st ch) s = .next t ∧ SameMemory s t ∧
        if (s.ms.chan n).fails < 4 then
          t.ms.chan n = ⟨(s.ms.chan n).fails + 1, false⟩ ∧ (tget t.ms.hstat ⟨0, 0, 0, 0⟩ st).carep.toNat = min (h.carep.toNat + 1) 0xFFFF
        else t.ms.chan n = ⟨0, true⟩ ∧ (tget t.ms.hstat ⟨0, 0, 0, 0⟩ st).retrn.toNat = min (h.retrn.toNat + 1) 0xFF) ∧
    ((s.ms.chan n).train = true → ∀ ok, ∃ t : State, exec (.channelRetrain st ch ok) s = .next t ∧ t.ms.chan n = ⟨0, false⟩ ∧ SameMemory s t ∧
      (tget t.ms.hoffl 0 st).getLsbD ch = (if ok then (tget s.ms.hoffl 0 st).getLsbD ch else true) ∧ t.mg.degr = (s.mg.degr || !ok)) ∧
    (8 + st ∉ s.ms.farBad → ∃ t : State, exec (.farChainFail (8 + st)) s = .next t ∧ t.ms.farBad = s.ms.farBad ++ [8 + st] ∧
      ∀ a n, a + n ≤ stackLimit → 0 < n → t.hbmStatus (8 + st) a n = 5)

/-- R97, R190, R195, R199: an element request of one part joins the row of its place, or opens it, and counts once for every open row; a row open for 256 clk issues; a table walk follows a
pointer; a copy channel reads its record, behind those that it owns, and a sector of any record that it owns lands, also while its region is being reset (R70). When a row issues is read by
inference (log 41), and so are the records that a reset lets end (log 43). -/
def Obligations.MemoryUnitStep : Prop :=
  ∀ (s : State),
    (∀ edge q, (s.gather edge).inq = [q] → (∀ o, s.op q.op = some o → ∀ p ∈ o.parts, p.st.pending = false) → q.due ≤ s.time →
      let rows := (s.gather edge).rows
      let enters (new : List GathRow) : Prop :=
        ∃ s1 : State, exec (.elementRequest edge 0) s = .next s1.run ∧ (s1.gather edge).inq = [] ∧ (s1.gather edge).rows = new
      (∀ r ∈ rows, r.seen < 63) →
      ((∀ r ∈ rows, r.row ≠ q.loc.row) → rows.length < 16 →
        enters (rows.map (fun r => { r with seen := r.seen + 1 }) ++ [⟨q.loc.row, [q], 1, s.time⟩])) ∧
      ((∃ r ∈ rows, r.row = q.loc.row) → (∀ r ∈ rows, r.row = q.loc.row → r.clash q = false) →
        enters (rows.map (fun r => if r.row = q.loc.row then { r with seen := r.seen + 1, reqs := r.reqs ++ [q] } else { r with seen := r.seen + 1 })))) ∧
    (∀ edge row r, (s.gather edge).rows[row]? = some r → 256 ≤ s.time - r.opened →
      exec (.gatherRowTimeout edge row) s = .next (s.closeRow edge r.row).run) ∧
    (∀ unit idx w t, (s.xunit unit).walks[idx]? = some w →
      s.walkStep w.ten w.level w.table (BitVec.ofNat 64 (w.page * 65536)) = .next t →
      ∃ u : State, exec (.tableWalkRead unit idx) s = .next u ∧ (u.xunit unit).walks[idx]? = some { w with level := w.level + 1, table := t } ∧
        u.ms.hbm = s.ms.hbm ∧ SameMemory s u) ∧
    (∀ sl c ch r, s.region sl = some r →
      let k := (r.core c).chan ch
      let put (f : Chan → Chan) : State := s.onChan sl c ch f
      (r.acts = true → k.st = .walk → k.reading = false → (r.core c).owned + (r.core c).readings < 512 →
        (∀ i off, r.window k.head 64 = some (i, off) →
          let b := s.bufRead sl c i off 64
          let x := XferRec.ofBytes k.head b
          (x.ctl.getLsbD 0 = false → exec (.recordRead sl c ch) s = .next (put (fun c => { c with reading := false, st := .drain })).run) ∧
          (x.ctl.getLsbD 0 = true → x.ok r.sfree b = false →
            exec (.recordRead sl c ch) s = .next (put (fun c => { c with reading := false, st := .drain, errc := 1 })).run) ∧
          (x.ctl.getLsbD 0 = true → x.ok r.sfree b = true →
            let o : OwnedRec := { num := k.num, xr := x, started := false, run := 0, sec := 0, flying := 0, ready := [], err := 0 }
            let own (c : Chan) : Chan := { c with reading := false, recs := c.recs ++ [o], num := c.num + 1 }
            exec (.recordRead sl c ch) s =
              .next (put (fun c => if x.next = 0#64 then { own c with st := .drain } else { own c with head := x.next })).run)) ∧
        (isWindow k.head = false →
          exec (.recordRead sl c ch) s = .next ((put (fun c => { c with reading := true })).startOp
            (mkOp (.copyRec sl c ch) (.copy sl c ch) r.ten .read [] (rangeParts k.head 64) apAll)).run)) ∧
      ∀ idx o d b, (k.recs.flatMap (fun o => o.ready.map (fun q => (o, q))))[idx]? = some (o, (d, b)) → k.recs.find? (fun p => p.num == o.num) = some o →
        r.acts = true ∨ (s.slot sl).reset.isSome = true →
        let i := o.xr.dsp.toNat
        let becomes (x : OwnedRec) : State := put (fun c => { c with recs := c.recs.map (fun p => if p.num = o.num then x else p) })
        let left := dropFirst (· == (d, b)) o.ready
        (i < 3 → d.toNat + b.length ≤ bufLen r.sfree i →
          exec (.sectorLand sl c ch idx) s = .next (((becomes { o with ready := left }).bufWrite sl c i d.toNat b 2).landBar sl c o.xr).run) ∧
        (i = 3 →
          exec (.sectorLand sl c ch idx) s = .next (((becomes { o with ready := left, flying := o.flying + 1 }).startOp
            (mkOp (.copyDst sl c ch o.num) (.copy sl c ch) r.ten .write b (rangeParts d b.length) apAll))).run))

/-! The host: commands, completions, fault records, queues, slots, walkers -/

/-- An instruction answers the state `t`, and everything that follows of itself. -/
def Sys2Proof.Claims.lands (s : State) (i : Instr) (t : State) : Prop := exec i s = .next t.run

/-- An instruction answers a state that a property describes, and everything that follows of itself. -/
def Sys2Proof.Claims.landsIn (s : State) (i : Instr) (p : State → Prop) : Prop := ∃ u : State, exec i s = .next u.run ∧ p u

/-- The bytes of an operand that a command reads: of the host for PF0; of its tenant's address, where no leaf of the range is a peer leaf (R94). -/
def Sys2Proof.Claims.readsArg (s : State) (r : Run) (need : Need) (a n : Nat) (t : State) (b : List Byte) : Prop :=
  r.fn = 0 ∧ t = s ∧ b = mread s.ms.host a n ∨
  r.fn ≠ 0 ∧ r.bad = none ∧ r.input = none ∧ s.meetsPeer r.ten need (BitVec.ofNat 64 a) n = false ∧
    s.uget r.ten need apAll (BitVec.ofNat 64 a) n = (t, .ok b)

/-- The bytes that a command writes: to the host for PF0; to its tenant's address, where no leaf of the range is a peer leaf (R94). -/
def Sys2Proof.Claims.writesArg (s : State) (r : Run) (a : Nat) (b : List Byte) (t : State) : Prop :=
  r.fn = 0 ∧ t = s.hostWrite a b ∨
  r.fn ≠ 0 ∧ r.bad = none ∧ r.wrote = false ∧ s.meetsPeer r.ten needW (BitVec.ofNat 64 a) b.length = false ∧
    s.nput r.ten apAll (BitVec.ofNat 64 a) b = (t, none)

/-- R73, R74, R85, R86, R98, R111, R113: a running command of each opcode whose operands pass its checks has its effect and completes with
status OK and its result; LAUNCH queues a BIND, WALK reads node 0, INVTLB removes the translations and completes when no earlier access uses one.
R54, R57, R58: CGROUP of distinct devices of the domain, this one among them, sets the group; CLOAD, of tricks that are well formed or of a built-in kind, of a group that
is set, loads the collective and answers the number of tricks; CDROP of a collective that is not busy removes it.
R94: a COPY whose source meets a peer leaf is read there by an operation of the command, which waits. The model's own choices it rests on: the seal table of
ATTEST (log 10), the graphs of the built-in kinds (log 14), the slot and cores of LAUNCH, the handle, and operands at a peer (log 21), a count byte of 0 in
CGROUP (log 22). -/
def Obligations.HostCommandResult : Prop :=
  (∀ (s s1 : State) (id : Nat) (r : Run), s.runOf id = some r →
     let a := BitVec.ofNat 64 (r.arg 8 8)
     let ok (i : Instr) (opc : Nat) (t : State) (v : Word) : Prop := r.arg 2 1 = opc → lands s i (t.complete r 0 v)
     (r.stage = 0 →
       ok (.nop id) 0 s 0 ∧
       (∀ h s2 y i t, 256 ≤ r.arg 16 8 → readsArg s r needG (r.arg 8 8) 256 s1 h → headerOk h (r.arg 16 8) = true →
         readsArg s1 r needG (r.arg 8 8) (fieldOf h 0x1C 4) s2 y → tablesOk y = true → (Image.ofBytes r.ten a y).check y = .ok i →
         (fieldOf y 0x10 8 = 0 ∧ t = s2 ∨ fieldOf y 0x10 8 ≠ 0 ∧ writesArg s2 r (fieldOf y 0x10 8) i.report t) →
         ok (.imgreg id) 1
           ({ t with hs := { t.hs with images := t.hs.images ++ [(t.newHandle, i)] }, freeCount := t.freeCount + 1, mg := { t.mg with ilog := tset t.mg.ilog i.ten (digestOf (fit 64 (tget t.mg.ilog [] i.ten) ++ i.digest)) } })
           (BitVec.ofNat 64 (t.newHandle + i.lcap % 2 ^ 8 * 2 ^ 32 + i.gran % 2 ^ 24 * 2 ^ 40))) ∧
       (∀ i, s.image (r.arg 8 4) = some i → i.ten = r.ten → (∀ q ∈ s.slots, q.2.uses (r.arg 8 4) = false) →
         ok (.imgdrop id) 2 { s with
           hs := { s.hs with images := s.hs.images.filter (fun p => p.1 != r.arg 8 4) }
           wk := { s.wk with staged := s.wk.staged.filter (fun y => y.img.toNat != r.arg 8 4) } } 0) ∧
       (∀ i slot, r.arg 2 1 = 3 → r.arg 32 8 ≠ 0 → r.arg 32 8 % 65536 = 0 → s.image (r.arg 8 4) = some i → i.ten = r.ten →
         r.arg 0x1C 1 = i.ncore → s.mg.slq.length < 64 → s.freeSlot = some slot → i.ncore ≤ s.freePlaces.length →
         landsIn s (.launch id) (fun t =>
           t.mg.slq = s.mg.slq ++ [(slot, 1, 2)] ∧ t.slot slot = r.bindRecord (s.slot slot) (s.freePlaces.take i.ncore) ∧
           t.runOf id = some { r with stage := 1 } ∧ ∀ j, j ≠ slot → t.slot j = s.slot j)) ∧
       (r.arg 2 1 = 4 → (s.walk r.ten).active = true → lands s (.walk id) s) ∧
       (∀ y, r.arg 2 1 = 4 → (s.walk r.ten).active = false → (∀ x ∈ s.wk.reads, x.ten ≠ r.ten) →
         let t := ((s.onWalk r.ten (fun _ => { GraphWalk.idle with active := true, addr := a, cmd := id })).stageRun id 1).onWalk r.ten (fun g => { g with arrive := [(0, 255)] })
         t.walkPeer r.ten a = none → t.uget r.ten needR apLocal a 64 = (s1, .ok y) →
         lands s (.walk id) ((s1.onWalk r.ten (fun g => { g with arrive := tset g.arrive 0 256 })).nodeReady r.ten 0 y none)) ∧
       (∀ y t, r.arg 0x18 4 ≠ 0 → readsArg s r needR (r.arg 8 8) (r.arg 0x18 4) s1 y → writesArg s1 r (r.arg 16 8) y t → ok (.copy id) 5 t 0) ∧
       (r.arg 2 1 = 5 → r.arg 0x18 4 ≠ 0 → r.fn ≠ 0 → r.bad = none → r.input = none → s.meetsPeer r.ten needR a (r.arg 0x18 4) = true →
         exec (.copy id) s = .next ((s.startOp (mkOp (.cmd r.id) (.unit r.fn) r.ten .read [] (rangeParts a (r.arg 0x18 4)) apAll)).stageRun r.id 1).run.run) ∧
       (∀ t, writesArg s r (r.arg 8 8) (s.report (if r.fn = 0 then none else some r.ten)) t → ok (.resrep id) 7 t 0) ∧
       (s.mg.lcs ≠ 0 → s.mg.lcs ≠ 4 →
         let full (u : State) (who : Option Nat) (n : List Byte) : List Byte := u.attestHead who n ++ fit 4627 (Config.signature (u.attestHead who n))
         ∀ n t, readsArg s r needR (r.arg 8 8) 64 s1 n → writesArg s1 r (r.arg 16 8) (full s1 (if r.fn = 0 then none else some r.ten) n) t →
           ok (.attest id) 8 t 0) ∧
       (∀ d, r.arg 8 1 = 6 ∨ r.arg 8 1 = 7 → readsArg s r needR (r.arg 16 8) 64 s1 d →
         ok (.extmeas id) 9 { s1 with mg := { s1.mg with
           meas := tset s1.mg.meas (r.arg 8 1) (digestOf (fit 64 (tget s1.mg.meas [] (r.arg 8 1)) ++ d)) } } 0) ∧
       (r.arg 2 1 = 6 → landsIn s (.invtlb id) (fun t => t.runOf id = some { r with stage := s.nextOp + 1 } ∧
         ∀ p ∈ t.ms.units, ∀ e ∈ p.2.tlb, e.ten = r.ten → (s.rootTable r.ten).isSome = true ∧ r.arg 16 8 ≠ 0 ∧
           (r.arg 8 8 + r.arg 16 8 ≤ e.base * 2 ^ e.bits ∨ (e.base + 1) * 2 ^ e.bits ≤ r.arg 8 8)))) ∧
     (r.stage ≠ 0 → r.arg 2 1 = 6 →
       exec (.invtlb id) s = .next (if s.usesOld r.ten (r.stage - 1) = true then s else s.complete r 0 0))) ∧
  ∀ (s s1 : State) (id : Nat) (r : Run), s.runOf id = some r → r.stage = 0 →
    let ok (i : Instr) (opc : Nat) (t : State) (v : Word) : Prop := r.arg 2 1 = opc → lands s i (t.complete r 0 v)
    let num := r.arg 8 1
    let n := r.arg 0x18 2
    (∀ b, num < 64 → readsArg s r needR (r.arg 16 8) (if r.arg 9 1 = 0 then 256 else r.arg 9 1) s1 b → b.Nodup →
      (∀ d ∈ b, s1.inDomain d = true) → s1.self ∈ b → s1.groupBusy r.ten num = false →
      ∃ t : State, ok (.cgroup id) 11 t 0 ∧ t.group r.ten num = some b ∧ (∀ t' g, (t', g) ≠ (r.ten, num) → t.group t' g = s1.group t' g) ∧
        t.fb.colls = s1.fb.colls ∧ t.mg = s1.mg ∧ t.ms = s1.ms) ∧
    (∀ (t0 : State) ranks ts, num < 64 → r.arg 9 1 ≤ 5 → r.arg 11 1 ≤ 4 → r.arg 12 1 ≤ 3 → r.arg 13 1 ≤ 2 →
      (r.arg 9 1 = 0 → 1 ≤ n ∧ n ≤ 4096 ∧ ∃ b, readsArg s r needR (r.arg 16 8) (32 * n) t0 b ∧
        (∀ i < n, trickOk n (fieldOf b (32 * i) 32) = true) ∧ ts = (List.range n).map (fun i => Trick.ofNat (fieldOf b (32 * i) 32))) →
      (r.arg 9 1 ≠ 0 → t0 = s ∧ let g := s.builtin r.loading ranks
        builtinCount g.1 g.2 ≤ 4096 ∧ ts.length = builtinCount g.1 g.2 ∧ ts = builtinTricks g.1 g.2 ranks (r.arg 12 1) (r.arg 13 1)) →
      t0.group r.ten (r.arg 10 1) = some ranks → (r.arg 9 1 = 5 → r.arg 14 1 < ranks.length) → (t0.coll r.ten num).any Coll.busy = false →
      let others := t0.fb.colls.filter (fun k => !(k.ten == r.ten && k.num == num))
      others.length < 64 → (others.map (fun k => k.tricks.length)).sum + ts.length ≤ 65536 →
      ∃ t k, ok (.cload id) 10 t (BitVec.ofNat 64 ts.length) ∧ t.coll r.ten num = some k ∧ k.running = none ∧ k.inst = 0 ∧
        k.group = r.arg 10 1 ∧ k.tricks = ts) ∧
    (num < 64 → (s.coll r.ten num).any Coll.busy = false →
      ∃ t : State, ok (.cdrop id) 12 t 0 ∧ t.coll r.ten num = none ∧ ∀ t' g, (t', g) ≠ (r.ten, num) → t.coll t' g = s.coll t' g)

/-- R83, R86, R87: a command of a queue in host memory that completes leaves the queue's running commands; its entry of 16 bytes stands at the tail of the completion ring
with the phase of the pass, the tail moves on, the phase turns with the ring's end, and the vector is raised while IEN is set; with no room in the ring,
or behind others that wait, it waits at the queue (logs 18, 40).
R100, R101: a fault record of a tenant whose ring is enabled and has room is written at the tail, which moves on, and vector 64 is raised; on a full ring it is dropped and
counted; every record takes a sequence number. -/
def Obligations.RingEntryWritten : Prop :=
  (∀ (s : State) (r : Run) (st : Nat) (v : Word), r.rack = none → r.ent.length = 64 →
     let x := (s.fn r.fn).queue r.q
     let t := s.complete r st v
     let a := x.cqbase.toNat / 16 * 16 + 16 * x.cqtail
     let n := (x.cqtail + 1) % 2 ^ x.csz.toNat
     let room : Prop := x.posts = [] ∧ (x.cqtail + 2 ^ x.csz.toNat - x.cqhead) % 2 ^ x.csz.toNat + 1 < 2 ^ x.csz.toNat
     t.hs.runs = s.hs.runs.filter (fun y => y.id != r.id) ∧ t.mg = s.mg ∧ t.slots = s.slots ∧ t.fb = s.fb ∧ t.wk = s.wk ∧
     (∀ q, q ≠ r.q → (t.fn r.fn).queue q = (s.fn r.fn).queue q) ∧ (∀ f, f ≠ r.fn → t.fn f = s.fn f) ∧
     (¬ room → t.ms = s.ms ∧ t.msis = s.msis ∧ (t.fn r.fn).queue r.q = { x with posts := x.posts ++ [⟨r.ent, st, r.sqhead, v⟩] }) ∧
     (room →
     mread t.ms.host a 16 = r.ent.take 2 ++ leOf 1 st ++ leOf 1 (if x.phase then 1 else 0) ++ leOf 2 r.sqhead ++ leOf 2 0 ++ leOf 8 v.toNat ∧
     (∀ b, b < a ∨ a + 16 ≤ b → mget t.ms.host b = mget s.ms.host b) ∧
     (t.fn r.fn).queue r.q = { x with cqtail := n, phase := if n = 0 then !x.phase else x.phase } ∧
     t.msis = s.msis ++ (if x.ien then [(r.fn, if r.fn = 0 then 3 else r.q)] else []))) ∧
  ∀ (s : State) (ten slot elem ctx colour : Nat) (f : FaultInfo),
    let x := s.fn (ten + 1)
    let t := s.record ten slot elem ctx colour f
    let y := t.fn (ten + 1)
    let size := 2 ^ x.frsize.toNat
    let full : Prop := (x.frtail.toNat + 1) % size = x.frhead.toNat % size
    let a := x.frbase.toNat / 64 * 64 + 64 * x.frtail.toNat
    y.seq = x.seq + 1 ∧ (∀ n, n ≠ ten + 1 → t.fn n = s.fn n) ∧ t.mg = s.mg ∧ t.slots = s.slots ∧ t.fb = s.fb ∧
    (x.fren = true → ¬ full →
      mread t.ms.host a 64 = leOf 2 f.cls ++ leOf 1 ten ++ leOf 1 (if x.lost then 3 else 2) ++ leOf 4 x.seq.toNat ++ leOf 8 s.time ++ leOf 8 f.va.toNat ++
        leOf 2 slot ++ leOf 2 elem ++ leOf 2 ctx ++ leOf 1 colour ++ leOf 1 f.acc ++ leOf 8 f.info1.toNat ++ leOf 8 f.info2.toNat ++ List.replicate 16 0#8 ∧
      (∀ b, b < a ∨ a + 64 ≤ b → mget t.ms.host b = mget s.ms.host b) ∧
      y.frtail.toNat = (x.frtail.toNat + 1) % size ∧ y.lost = false ∧ y.frlost = x.frlost ∧ t.msis = s.msis ++ [(ten + 1, 64)]) ∧
    (x.fren = true → full → t.ms = s.ms ∧ y.frtail = x.frtail ∧ y.lost = true ∧ y.frfull = true ∧ t.msis = s.msis ∧
      y.frlost.toNat = if x.frlost.toNat = 2 ^ 32 - 1 then 2 ^ 32 - 1 else x.frlost.toNat + 1) ∧
    (x.fren = false → t.ms = s.ms ∧ t.msis = s.msis ∧ y.frtail = x.frtail ∧ y.frlost = x.frlost)

/-- R79, R82, R83, R84, R85, R88: QDOOR moves the tail, or sets QERR; a write of QCFG enables a queue at the start of its rings, or disables it, and an entry that was read and
had not started completes with ABORTED; QERR_CLEAR; a command is read from the head of its ring and runs, or completes at once with BADCMD or NOPERM, and a fenced one waits
for the earlier ones of its queue; a launch packet that passes its checks appends an entry to its rack queue, or goes back with QFULL and the queue's vector;
a host reads and writes tenant memory through its window, on path CC with what that has staged (log 8), and a peer's through a peer leaf. What a disabled queue and
a fenced or waiting entry do is log 18, the rack queue logs 40 and 48. -/
def Obligations.HostQueueResult : Prop :=
  ∀ (s s1 : State) (fn q : Nat), s.fnOn fn = true → q < 64 →
    let f := s.fn fn
    let x := f.queue q
    let put (y : Queue) : State := s.putQueue fn q y
    let size := 2 ^ x.ssz.toNat
    (∀ v : W32, x.en = true → x.src = false →
      let room := (x.head + size - x.tail - 1) % size
      (v.toNat < size → (v.toNat + size - x.tail) % size ≤ room → exec (.qdoor fn q v) s = .next (put { x with tail := v.toNat })) ∧
      (size ≤ v.toNat ∨ room < (v.toNat + size - x.tail) % size → exec (.qdoor fn q v) s = .next (put { x with qerr := true }))) ∧
    (∀ v : W32,
      let csz := v.extractLsb' 20 4
      let ssz := v.extractLsb' 16 4
      let bits : Queue := { x with qerr := x.qerr && !v.getLsbD 30, src := v.getLsbD 29, ien := v.getLsbD 28 }
      let set : Queue := if x.en then bits else { bits with csz := csz, ssz := ssz }
      (v.getLsbD 31 = true → x.en = false → 4 ≤ csz.toNat → csz.toNat ≤ 12 → 4 ≤ ssz.toNat → ssz.toNat ≤ 12 →
        exec (.queueEnable fn q v) s = .next (put { set with en := true, head := 0, tail := 0, cqhead := 0, cqtail := 0, phase := true, lseq := none, rack := [], fetched := none, posts := [] })) ∧
      (v.getLsbD 31 = true → x.posts = [] → x.en = true ∨ x.fetched = none ∧ (csz.toNat < 4 ∨ 12 < csz.toNat ∨ ssz.toNat < 4 ∨ 12 < ssz.toNat) →
        exec (.queueEnable fn q v) s = .next (put set)) ∧
      (v.getLsbD 31 = false → x.posts = [] →
        let off : Queue := { set with en := false }
        (x.fetched = none → exec (.queueDisable fn q v) s = .next (put off)) ∧
        (∀ r, x.fetched = some r → exec (.queueDisable fn q v) s = .next (((put off).putQueue fn q { off with fetched := none }).complete r 6 0)))) ∧
    exec (.qerrClear fn q) s = .next (put { x with qerr := false }) ∧
    (∀ b, s.mayStart fn q = true → x.fetched = none →
      let a := x.base.toNat / 64 * 64 + 64 * x.head
      let run : Run := { id := s.hs.nextRun, fn := fn, q := q, ent := b, sqhead := (x.head + 1) % size, stage := 0, rack := if x.src then some (x.rack.headD (false, .ether 0)) else none }
      (x.src = false → s1 = s ∧ b = mread s.ms.host a 64) →
      (x.src = true → s1 = s.counted (fn - 1) needR (BitVec.ofNat 64 a) 64 ∧ s1.vget (fn - 1) needR apLocal (BitVec.ofNat 64 a) 64 = .ok b) →
      let y : Queue := { x with head := (x.head + 1) % size, rack := x.rack.drop 1 }
      let t : State := { s1.putQueue fn q y with hs := { (s1.putQueue fn q y).hs with nextRun := s1.hs.nextRun + 1 } }
      let u : State := { t with hs := { t.hs with runs := t.hs.runs ++ [run] } }
      let waits : Prop := (b.getD 3 0).getLsbD 0 = true ∧ ∃ r ∈ s1.hs.runs, r.fn = fn ∧ r.q = q
      s1.hs = s.hs →
      (waits → exec (.commandStart fn q) s = .next (t.putQueue fn q { y with fetched := some run })) ∧
      (¬ waits → exec (.commandStart fn q) s = .next (if entryOk b = false then u.complete run 1 0 else if opcAllowed fn (fieldOf b 2 1) then u else u.complete run 2 0))) ∧
    (∀ r, s.mayStart fn q = true → x.fetched = some r →
      (s.fenced r = true → exec (.commandStart fn q) s = .next s) ∧
      (s.fenced r = false → exec (.commandStart fn q) s = .next ((put { x with fetched := none }).startCommand r none))) ∧
    (∀ src p, s.carriesLaunch src = false → exec (.launchPacket ⟨src, p⟩) s = .next s) ∧
    (∀ src p, s.carriesLaunch src = true → s.launchBad p = none → fieldOf p 1 1 + 1 = fn → fieldOf p 2 1 = q →
      (∀ t, (x.tail + 1) % size ≠ x.head → s.vput (fn - 1) apLocal (BitVec.ofNat 64 (x.base.toNat / 64 * 64 + 64 * x.tail)) (p.drop 32) = (t, none) →
        exec (.launchPacket ⟨src, p⟩) s = .next (t.putQueue fn q { x with tail := (x.tail + 1) % size, lseq := some (BitVec.ofNat 32 (fieldOf p 4 4)), rack := x.rack ++ [((p.getD 3 0).getLsbD 0, src)] })) ∧
      ((x.tail + 1) % size = x.head → exec (.launchPacket ⟨src, p⟩) s =
        .next { s with
          hs := { s.hs with rackOut := s.hs.rackOut ++ [(src, cplBytes (p.drop 32) csQFULL x.phase x.head 0)] }
          msis := s.msis ++ if x.ien then [(fn, q)] else [] })) ∧
    (∀ src p n, s.carriesLaunch src = true → s.launchBad p = some n → fieldOf p 1 1 < 16 →
      exec (.launchPacket ⟨src, p⟩) s = .next (s.record (fieldOf p 1 1) 0xFFFF 0xFFFF 0 0 { cls := 0x10, va := 0, acc := 5, info1 := BitVec.ofNat 64 n, info2 := 0 })) ∧
    (fn ≠ 0 → ∀ off,
      let va := f.window off
      let pages (t : State) (need : Need) (n : Nat) : List (Loc × Nat × Nat) := t.places (fn - 1) need (n / 65536 + 2) 0 va n
      (∀ n, off + n ≤ 2 ^ 32 → s.meetsPeer (fn - 1) needR va n = true →
        exec (.bar2Read fn off n) s = .next (s.startOp (mkOp (.bar2 fn) (.unit fn) (fn - 1) .read [] (rangeParts va n) apAll)).run) ∧
      (∀ n, off + n ≤ 2 ^ 32 → s.meetsPeer (fn - 1) needR va n = false →
        (∀ b, s.uget (fn - 1) needR apAll va n = (s1, .ok b) →
          let r := s1.bar2Staged fn (pages s1 needR n) b
          exec (.bar2Read fn off n) s = .next { r.1 with hostData := r.2 }) ∧
        (∀ e, s.uget (fn - 1) needR apAll va n = (s1, .error e) →
          exec (.bar2Read fn off n) s = .next { s1.record (fn - 1) 0xFFFF 0xFFFF 0 0 e with hostData := List.replicate n 0xFF })) ∧
      (∀ d, off + d.length ≤ 2 ^ 32 → s.meetsPeer (fn - 1) needW va d.length = true →
        exec (.bar2Write fn off d) s = .next (s.startOp (mkOp (.bar2 fn) (.unit fn) (fn - 1) .write d (rangeParts va d.length) apAll)).run) ∧
      ∀ d, off + d.length ≤ 2 ^ 32 → s.meetsPeer (fn - 1) needW va d.length = false →
        let w (t : State) : State := t.bar2Wrote fn (pages t needW d.length) d
        (s.vput (fn - 1) apAll va d = (s1, none) → exec (.bar2Write fn off d) s = .next (w s1)) ∧
        (∀ e, s.vput (fn - 1) apAll va d = (s1, some e) → exec (.bar2Write fn off d) s = .next ((w s1).record (fn - 1) 0xFFFF 0xFFFF 0 0 e)))

/-- R104 to R108, R114, R118, R120, R131, R410: a slot command that acceptance takes and no check refuses writes ACCT and LASTST and changes the state of the slot as its command says; one that a
check refuses writes its code in LASTST alone and fails what waits for it; during a reset of its tenant it is discarded; a load or save that completes, or fails, and a drain that completes,
or runs out of time, change it again. FREEZE stops arbiters and channels at once and the control cores when nothing is outstanding. The bounds TDRN and TLOAD (log 19), the discard in a
tenant reset and what FREEZE and RESTORE keep (log 32), which commands a waiting load holds back (log 31), when a drain ends (log 33) and the bytes of a save (log 12) are the model's. -/
def Obligations.SlotCommandResult : Prop :=
  ∀ (s : State) (n : Nat),
    let x := s.slot n
    (∀ cmd o, s.nextCmd = some (n, cmd, o) →
      let named : List (Instr × Nat) := [(.bind n, 1), (.reconf n, 2), (.freeze n, 3), (.restore n, 4), (.release n, 5), (.restart n, 6)]
      let s1 : State := { s with mg := { s.mg with slq := dropFirst (· == (n, cmd, o)) s.mg.slq } }
      let acc := s1.putSlot n { x with acct := BitVec.ofNat 64 s.time, lastst := 0 }
      let said (y : Slot) : Prop := y.acct = BitVec.ofNat 64 s.time ∧ y.lastst = 0
      ((s.fn (x.ten.toNat + 1)).reset = true → ∀ i, (i, cmd) ∈ named → lands s i s1) ∧
      ((s.fn (x.ten.toNat + 1)).reset = false →
        (∀ code, s1.refused n cmd = some code → ∀ i, (i, cmd) ∈ named →
          let t : State := { s1.putSlot n { x with lastst := BitVec.ofNat 16 code } with freeCount := s1.freeCount + 1 }
          lands s i (if o = 0 then t else t.slotFailed n code none)) ∧
        (s1.refused n cmd = none →
          (cmd = 1 → landsIn s (.bind n) (fun t => (t.slot n).st = 1 ∧ (t.slot n).region = none ∧ said (t.slot n) ∧ (t.slot n).held = some x.record ∧
            ∀ i, s.cmdImage x 1 = some i → (t.slot n).tdrn = tdrnOf x.l.toNat i.wcl (Config.freeValue (s.freeCount + 1)))) ∧
          (cmd = 2 → x.st = 7 → landsIn s (.reconf n) (fun t => (t.slot n).st = 1 ∧ (t.slot n).region = none ∧ said (t.slot n))) ∧
          (∀ r, cmd = 2 → x.st = 2 → x.region = some r → x.flg.getLsbD 0 = false → landsIn s (.reconf n) (fun t =>
            (t.slot n).st = 3 ∧ (t.slot n).region = some { r with draining := true } ∧ said (t.slot n))) ∧
          (∀ r, cmd = 2 → x.st = 2 → x.region = some r → x.flg.getLsbD 0 = true →
            landsIn s (.reconf n) (fun t => ∃ u : State, t = u.purgeAll n ∧ (u.slot n).st = 3 ∧ (u.slot n).region = some { r with draining := true } ∧ said (u.slot n))) ∧
          (∀ r, cmd = 3 → x.region = some r → landsIn s (.freeze n) (fun t => (t.slot n).st = 4 ∧ said (t.slot n) ∧ (t.slot n).holdSent = !s.busySlot n ∧
            (t.slot n).held = x.held.map (fun a => { a with savek := x.savek }) ∧
            ∃ r', (t.slot n).region = some r' ∧ r'.acts = false ∧ (s.busySlot n = false → r'.running = false) ∧ r'.lead = r.lead ∧ r'.next = r.next ∧
              r'.flight = r.flight)) ∧
          (cmd = 4 → landsIn s (.restore n) (fun t => (t.slot n).st = 6 ∧ said (t.slot n) ∧ (t.slot n).saved = x.saved)) ∧
          (cmd = 5 → x.st ≠ 0 → lands s (.release n) (acc.regionReset n false)) ∧
          (cmd = 5 → x.st = 0 → lands s (.release n) acc) ∧
          (∀ r, cmd = 6 → x.region = some r → landsIn s (.restart n) (fun t => (t.slot n).st = 2 ∧ said (t.slot n) ∧
            ∃ r', (t.slot n).region = some r' ∧ r'.running = true ∧ r'.live = 0 ∧ r'.lead = 0 ∧ r'.next = 0 ∧ r'.started = s.time))))) ∧
    (x.reset = none →
      (∀ r, x.st = 1 → s.readsDone n = true → s.loaded n = .ok r → landsIn s (.loadComplete n) (fun t => ∃ u : State, t = (u.launchDone n 0 none).stageTask n ∧ (u.slot n).st = 2 ∧
        ∃ r', (u.slot n).region = some r' ∧ r'.running = true ∧ r'.lead = 0 ∧ r'.next = 0 ∧ r'.started = s.time)) ∧
      (∀ r, x.st = 6 → s.readsDone n = true → s.loaded n = .ok r → landsIn s (.loadComplete n) (fun t => ∃ u : State, t = (u.requeuePops n r).wakeRanks n ∧
        (u.slot n).st = 2 ∧ (u.slot n).region = some r ∧ (u.slot n).saved = none)) ∧
      (∀ r, x.region = some r → x.st = 3 → r.drained = true → landsIn s (.drainComplete n) (fun t => (t.slot n).st = 1 ∧ (t.slot n).region = none)) ∧
      (∀ r, x.region = some r → x.st = 3 → r.wcl ≠ 0 → x.acct.toNat + r.l * r.wcl + 2000 ≤ s.time → (∃ c ∈ r.liveColours, r.sum c ≠ 0) →
        lands s (.drainTimeout n) ((s.purgeAll n).record r.ten n 0xFFFF 0 0 { cls := 9, va := 0, acc := 6, info1 := 1, info2 := 0 })) ∧
      ∀ r t, x.region = some r → x.st = 4 → s.busySlot n = false →
        let s0 := s.sendHolds n
        s0.saveCores r.ten (s0.slot n).asRead.savek (List.range r.ncore) = (t, none) →
        landsIn s (.saveComplete n) (fun u => (u.slot n).st = 5 ∧ (u.slot n).region = none ∧
          ∃ q, s0.region n = some q ∧ (x.holdSent = true → q = r) ∧ (u.slot n).saved = some ⟨q, s0.freeCount⟩)) ∧
    ∀ u e, s.slotError n = some (u, e) → landsIn s (.loadFault n) (fun t => ∃ (v : State) (g : Option FaultInfo), t = v.slotFailed n e.code g ∧ (v.slot n).st = 8 ∧
      (v.slot n).lastst = BitVec.ofNat 16 e.code)

/-- R121, R123, R129: an eligible COND takes the exit that its condition word selects, at most the last; a WHILE takes exit 0 while its bit is set and its iterations are not used up, else exit
1; a FORK takes all; an END completes the walk once no task of it runs; a TASK of a slot that is FREE or IDLE writes the bind record and queues BIND, RECONF or RESTART once no task of a
lower phase runs or may still run, waits while one runs, and ends the walk on a slot of another tenant. The checks of a node and the order of tasks by phase are read by inference (log 39). -/
def Obligations.WalkerNodeResult : Prop :=
  ∀ (s : State) (ten node : Nat) (e : Elig),
    let w := s.walk ten
    let taken := s.onWalk ten (fun g => { g with elig := dropFirst (· == e) g.elig, arrive := tset g.arrive node 0 })
    let last := fieldOf e.ent 1 1 - 1
    (s.eligNode ten node 1 = some e →
      lands s (.condNode ten node) (taken.arriveNode ten e.src (fieldOf e.ent (0x20 + 2 * min (e.w.toNat / 2 ^ fieldOf e.ent 6 1 % 8) last) 2))) ∧
    (s.eligNode ten node 2 = some e →
      let n := tget w.iters 0 node
      let lim := fieldOf e.ent 0x1C 4
      let again (k : Nat) : State := taken.onWalk ten (fun g => { g with iters := tset g.iters node k })
      lands s (.whileNode ten node) (
        if e.w.getLsbD (fieldOf e.ent 6 1) ∧ (lim = 0 ∨ n < lim) then (again (n + 1)).arriveNode ten e.src (fieldOf e.ent 0x20 2)
        else (again 0).arriveNode ten e.src (fieldOf e.ent 0x22 2))) ∧
    (s.eligNode ten node 3 = some e →
      lands s (.forkNode ten node) ((List.range (fieldOf e.ent 1 1)).foldl (fun t i => t.arriveNode ten e.src (fieldOf e.ent (0x20 + 2 * i) 2)) taken)) ∧
    (s.eligNode ten node 4 = some e → w.tasks = [] →
      ∃ u : State, exec (.endNode ten node) s = .next (u.completeId w.cmd 0 (BitVec.ofNat 64 node)) ∧ (u.walk ten).active = false ∧ u.hs = s.hs ∧
        ∀ k, k ≠ ten → u.walk k = s.walk k) ∧
    (s.eligNode ten node 4 = some e → w.tasks ≠ [] → exec (.endNode ten node) s = .next s) ∧
    (s.eligNode ten node 0 = some e →
      let n := fieldOf e.ent 4 2
      let x := s.slot n
      let phase (b : List Byte) : Nat := fieldOf b 3 1
      (x.ten.toNat ≠ ten → exec (.taskNode ten node) s = .next (taken.walkFail ten csBADGRAPH node false)) ∧
      (x.ten.toNat = ten → (∃ t ∈ w.tasks, phase t.ent < phase e.ent) → exec (.taskNode ten node) s = .next s) ∧
      (x.ten.toNat = ten → w.tasks.length < 16 → (x.st = 0 ∨ x.st = 7) → x.task = none → x.reset = none → s.mg.slq.length < 64 →
        (phase e.ent = 0 ∨ (∀ t ∈ w.tasks, phase e.ent ≤ phase t.ent) ∧ (∀ x ∈ s.wk.reads, x.ten ≠ ten) ∧
          ∀ f ∈ w.elig, fieldOf f.ent 0 1 = 4 ∨ fieldOf f.ent 0 1 = 0 ∧ phase e.ent ≤ phase f.ent) →
        landsIn s (.taskNode ten node) (fun t =>
          t.slot n = { x.ofTask e.ent with task := some (ten, node) } ∧ (∀ j, j ≠ n → t.slot j = s.slot j) ∧
          (t.walk ten).tasks = w.tasks ++ [⟨node, e.ent, n⟩] ∧
          t.mg.slq = s.mg.slq ++ [(n, if x.st = 0 then 1 else if x.asRead.img.toNat = fieldOf e.ent 0x10 4 then 6 else 2, 1)]))) ∧
    ∀ (s1 : State) src b k, w.active = true → w.failed = none → k ≠ 0xFFFF →
      let waits : Prop := (∃ f ∈ w.elig, f.node = k) ∨ ∃ x ∈ s.wk.reads, x.ten = ten ∧ x.node = k ∧ x.ent ≠ none
      (waits → s.arriveNode ten src k = s) ∧
      (¬waits → s.walkPeer ten (s.nodeVa ten k) = none → s.uget ten needR apLocal (s.nodeVa ten k) 64 = (s1, .ok b) → s1.wk = s.wk →
        let n := tget w.arrive 0 k + 1
        let t := s1.onWalk ten (fun g => { g with arrive := tset g.arrive k n })
        s.arriveNode ten src k = if n < fieldOf b 2 1 then t else t.nodeReady ten k b src)

/-- R63 to R70, R78: a cold reset clears every memory and register and leaves its cause; power coming on is one; a warm reset wipes what is not sealed and counts itself; a request for a reset
merges with one of its rank or wider in progress; a tenant reset stops the tenant and disables its queues, then ends with its keys gone; a region reset frees the slot once nothing of it is
outstanding; the resets of functions. The order of the wipes, the stages of the erase and the cause that a power-on keeps are the model's (log 23), and so is what a function's reset and a VF that comes
back hold (log 34). -/
def Obligations.ResetResult : Prop :=
  ∀ (s : State),
    let cold (i : Instr) (cause : BitVec 3) : Prop := ∃ t : State, exec i s = .next t ∧ t.mg.cause = cause ∧ t.mg.powered = true ∧ t.time = 0 ∧ t.slots = [] ∧
      t.hs.fns = [] ∧ t.hs.images = [] ∧ t.mg.ptroot = [] ∧ t.mg.twin = [] ∧ (∀ st a, mget (t.stack st) a = 0) ∧ t.ms.ops = [] ∧ t.fb.conns = [] ∧
      t.mg.seals = s.mg.seals ∧ t.mg.lcs = s.mg.lcs ∧ t.mg.dlkK = 20
    let warm (i : Instr) : Prop := s.cxlPorts = [] → s.mg.seals = [] → ∃ t : State, exec i s = .next t ∧ t.mg.cause = 3 ∧
      t.mg.wrcnt = s.mg.wrcnt + 1 ∧ t.time = s.time ∧ t.slots = [] ∧ t.hs.fns = [] ∧ t.mg.twin = [] ∧ (∀ st a, a < stackLimit → mget (t.stack st) a = 0) ∧
      t.mg.lcs = s.mg.lcs
    (s.mg.wipe = false → (s.resetRank ≠ some 1 → cold .coldReset 1 ∧ cold (.smbusReset 1) 1) ∧ (s.mg.powered = false → cold .powerOn s.mg.cause)) ∧
    (s.resetRank = some 1 → exec .coldReset s = .next s ∧ exec (.smbusReset 1) s = .next s) ∧
    (s.resetRank = none → warm .warmReset ∧ warm (.smbusReset 2)) ∧
    (∀ k, s.resetRank = some k → exec .warmReset s = .next s ∧ exec (.smbusReset 2) s = .next s) ∧
    (s.resetRank = none → s.cxlPorts ≠ [] → (∀ p ∈ s.cxlPorts, Config.cxlErase p = true) →
      ∃ t : State, exec .warmReset s = .next t ∧ t.mg.stage = .warmErase s.cxlPorts s.time ∧ t.mg.cause = 3 ∧ t.mg.wrcnt = s.mg.wrcnt + 1 ∧ t.mg.twin = s.mg.twin ∧
        t.hs.fns = s.hs.fns ∧ t.time = s.time ∧ t.slots = [] ∧ t.ms.cxl = s.ms.cxl ∧
        ∀ st a, a < stackLimit → mget (t.stack st) a = if s.sealedAt st a then mget (s.stack st) a else 0) ∧
    (∀ ports began port, s.mg.stage = .warmErase ports began → port ∈ ports → (∃ p ∈ ports, p ≠ port) →
      (∃ t : State, exec (.secureEraseCompletion port) s = .next t ∧ (∀ a, mget (tget t.ms.cxl [] port) a = 0) ∧
        t.mg.stage = .warmErase (ports.filter (· != port)) began ∧ t.ms.hbm = s.ms.hbm) ∧
      (10000000000 ≤ s.time - began → ∃ t : State, exec (.secureEraseTimeout port) s = .next t ∧ t.mg.stage = .warmErase (ports.filter (· != port)) began ∧
        t.ms.hbm = s.ms.hbm ∧ ∀ a, mget (tget t.ms.cxl [] port) a = if s.cxlOwned (List.range 16) port a then 0 else mget (tget s.ms.cxl [] port) a)) ∧
    (∀ ports began port, s.mg.stage = .warmErase ports began → port ∈ ports → (∀ p ∈ ports, p = port) → s.mg.seals = [] →
      ∃ t : State, exec (.secureEraseCompletion port) s = .next t ∧ t.mg.stage = .none ∧ t.mg.twin = [] ∧ t.hs.fns = [] ∧ t.ms.hbm = s.ms.hbm ∧
        ∀ a, mget (tget t.ms.cxl [] port) a = 0) ∧
    (∃ t : State, exec .powerFail s = .next t ∧ t.mg.powered = false ∧ t.mg.cause = 0 ∧ t.ms = s.ms) ∧
    (∀ ten, ten < 16 →
      let reset (t : State) : Bool := (t.fn (ten + 1)).reset
      (reset s = false → landsIn s (.tenantReset ten) (fun u => reset u = true ∧ (∀ c ∈ u.mg.slq, (s.slot c.1).tenant ≠ ten) ∧
        ((∀ p ∈ s.slots, p.2.tenant = ten → p.2.st = 0 ∧ p.2.task = none ∧ p.2.run = none ∧ p.2.reset = none) →
          (u.fn (ten + 1)).queues = [] ∧ (u.walk ten).active = false ∧ (∀ c ∈ u.fb.conns, c.ten ≠ BitVec.ofNat 4 ten) ∧ ∀ k ∈ u.fb.colls, k.ten ≠ ten))) ∧
      (reset s = true → s.tenantSlots ten = [] → (s.fn (ten + 1)).closing = false → (∀ q ∈ s.ms.reqs, q.ten ≠ ten) →
        landsIn s (.tenantReset ten) (fun u => reset u = false ∧ (u.fn (ten + 1)).rackck = 0 ∧ u.msis = s.msis ++ [(ten + 1, 65)] ∧
          (∀ st a, a < stackLimit → s.inWindow ten (if st < 8 then 0 else 1) (stackPa st a) 1 = true → s.sealedAt st a = false → mget (u.stack st) a = 0) ∧
          ∀ p ∈ u.ms.units, ∀ e ∈ p.2.tlb, e.ten ≠ ten))) ∧
    (∀ n, n < 256 →
      let free (u : State) : Prop := (u.slot n).st = 0 ∧ (u.slot n).region = none ∧ (u.slot n).reset = none
      ((s.slot n).reset = none → landsIn s (.regionReset n) (fun u => free u ∨ (u.slot n).reset = some ⟨s.time, false⟩ ∧ u.busySlot n = true)) ∧
      ∀ k, (s.slot n).reset = some k →
        (s.busySlot n = false ∨ k.began + 2000000 ≤ s.time → landsIn s (.regionReset n) free) ∧
        (s.busySlot n = true → s.time < k.began + 1000000 → lands s (.regionReset n) s)) ∧
    (∃ t : State, exec .functionLevelReset s = .next t ∧ t.fn 0 = Fn.reset0 ∧ (∀ f, f ≠ 0 → t.fn f = s.fn f) ∧ ∀ r ∈ t.hs.runs, r.fn ≠ 0) ∧
    (∀ vf, 1 ≤ vf → vf ≤ 16 →
      ((s.fn vf).enabled = true → exec (.vfEnable vf) s = .next s) ∧
      ((s.fn vf).enabled = false → ∃ t : State, exec (.vfEnable vf) s = .next t ∧ t.fnOn vf = true ∧ t.ilogOf (vf - 1) = List.replicate 64 0) ∧
      ∃ t : State, exec (.vfDisable vf) s = .next t ∧ t.fnOn vf = false)

/-- R13, R15, R63, R64, R67, R68, R71, R72, R87: a signed life-cycle command that the table allows blows the fuses and its reset comes next; sealing lists the window with its digest and signature, unsealing removes
it; a die at 105 °C or above the power limit throttles and one at 100 °C within it goes on, each recorded with the die and its cause and with vector 1 of PF0; at 115 °C power is removed. SHA3-512, the place of the owner key's signatures and sealing in every life-cycle state are the model's (log 10), and so are the record of a throttle,
its causes and the order of the life-cycle reset (log 23). -/
def Obligations.LifeCycleAndThermalResult : Prop :=
  ∀ (s : State),
    (∀ tgt sg, tgt < 8 → Config.sigOk 0 (leOf 1 tgt) sg = true → s.resetRank = none ∨ s.resetRank = some 3 →
      (s.mg.lcs.toNat, tgt) ∈ [(0, 1), (1, 2), (1, 3), (2, 3), (2, 4), (3, 4)] →
      ∃ t : State, exec (.lifecycleTransition tgt sg) s = .next t ∧ t.mg.lcs.toNat = tgt ∧ t.mg.wipe = true ∧ t.ms = s.ms ∧
        (s.mg.powered = true → s.agenda = [] → ∃ u : State, step t = .next u ∧ u.mg.cause = 4 ∧ u.mg.lcs.toNat = tgt ∧ u.mg.seals = [] ∧
          (∀ st a, mget (u.stack st) a = 0) ∧ u.ms.cxl = [])) ∧
    (∀ base len ten, s.maySeal base len = true → ten < 16 →
      let d := digestOf (mread (s.stack (paStack base)) (base % 2 ^ 36) len)
      let b := leOf 8 base ++ leOf 8 len ++ leOf 1 ten ++ d
      ∃ t : State, exec (.sealImage base len ten) s = .next t ∧ t.mg.seals = s.mg.seals ++ [⟨base, len, ten, d, Config.signature b⟩]) ∧
    (∀ base, ∃ t : State, exec (.unsealImage base) s = .next t ∧ t.mg.seals = s.mg.seals.filter (fun w => w.base != base) ∧ t.ms = s.ms) ∧
    ∀ die (c : Int) (w : Nat), die ≤ 4 →
      let read (t : State) : Prop := tget t.mg.temps 0 die = c ∧ ∀ d, d ≠ die → tget t.mg.temps 0 d = tget s.mg.temps 0 d
      let limit := s.mg.plimit.toNat
      (∃ t : State, exec (.throttleEntry die c w) s = .next t ∧ read t ∧
        if (1680 ≤ c ∨ limit < w) ∧ die ∉ s.mg.throttle then t.mg.throttle = s.mg.throttle ++ [die] ∧ t.msis = s.msis ++ [(0, 1)] ∧
          t.mg.thrLog = s.mg.thrLog ++ [(die, true, (if 1680 ≤ c then 1 else 0) + if limit < w then 2 else 0)]
        else t.mg.throttle = s.mg.throttle ∧ t.msis = s.msis ∧ t.mg.thrLog = s.mg.thrLog) ∧
      (∃ t : State, exec (.throttleExit die c w) s = .next t ∧ read t ∧
        if c ≤ 1600 ∧ w < limit ∧ die ∈ s.mg.throttle then t.mg.throttle = s.mg.throttle.filter (· != die) ∧ t.msis = s.msis ++ [(0, 1)] ∧
          ∃ cause, t.mg.thrLog = s.mg.thrLog ++ [(die, false, cause)] ∧ ∀ old, s.mg.thrLog.getLast? = some (die, true, old) → cause = old
        else t.mg.throttle = s.mg.throttle ∧ t.msis = s.msis ∧ t.mg.thrLog = s.mg.thrLog) ∧
      ∃ t : State, exec (.overtempCut die c) s = .next t ∧ read t ∧ (1840 ≤ c → t.mg.powered = false ∧ t.mg.cause = 2) ∧
        (c < 1840 → t.mg.powered = s.mg.powered ∧ t.mg.cause = s.mg.cause)

/-! Registers, sideband, fabric, collectives -/

/-- R26, R31, R46, R59, R61, R63, R64, R75, R76, R80, R81, R90, R91, R174, R194, R411: what a write of each register keeps and refuses, what a read answers and clears, and the sideband commands;
a packet queued at a port whose part TRIMAP changes is lost, and its copy stands for the port that has the part. What a read gives is left in hostData (log 3). A write of half a register,
and what a read of VWCFG gives, are read by inference (logs 34, 35). -/
def Obligations.RegisterAccessResult : Prop :=
  ∀ (s : State) (v : W32),
    let mg (f : Mgmt → Mgmt) : State := { s with mg := f s.mg }
    let out (n x : Nat) : State := { s with hostData := leOf n x }
    let fld (lo n : Nat) : Nat := v.toNat / 2 ^ lo % 2 ^ n
    exec (.rststatWrite v) s = .next (mg (fun m => { m with
      sealFail := if v.getLsbD 4 then false else m.sealFail, degr := if v.getLsbD 3 then false else m.degr })) ∧
    (let bad : Prop := (v.getLsbD 5 = true ∧ (29 < fld 0 5 ∨ (s.port 30).ualink = true)) ∨ (v.getLsbD 13 = true ∧ (29 < fld 8 5 ∨ (s.port 31).ualink = true)) ∨
      (v.getLsbD 5 = true ∧ v.getLsbD 13 = true ∧ fld 0 5 = fld 8 5)
     (bad → exec (.trimapWrite v) s = .next s) ∧
     (¬bad → ∃ t : State, exec (.trimapWrite v) s = .next t ∧ t.mg = { s.mg with trimap := v &&& 0x3F3F } ∧ t.slots = s.slots ∧ t.ms = s.ms ∧ t.hs = s.hs ∧ t.wk = s.wk ∧
       let dest (q : Nat) : Nat := if q < 32 then t.physPort (s.roleOf q) else q
       let moved (q : Nat) : Prop := dest q ≠ q ∨ ∃ p, p < 32 ∧ p ≠ q ∧ dest p = q
       (∀ o ∈ s.fb.out, ¬moved o.port → s.expired o.pkt o.at_ = false → o ∈ t.fb.out) ∧
       (s.fb.held = [] → (∀ o ∈ t.fb.out, o ∈ s.fb.out ∧ ¬moved o.port) ∧ ∀ c ∈ t.fb.custody, ∃ d ∈ s.fb.custody, c = { d with port := dest d.port }))) ∧
    exec (.domcfgWrite v) s = .next (
      if fld 4 4 ≤ fld 8 4 ∧ fld 0 4 ≤ fld 12 4 then
        mg (fun m => { m with dy := v.extractLsb' 12 4, dx := v.extractLsb' 8 4, x := v.extractLsb' 4 4, y := v.extractLsb' 0 4 })
      else s) ∧
    exec (.vwcfgWrite v) s = .next (
      if 8 ≤ fld 0 5 ∧ fld 0 5 ≤ 16 then mg (fun m => { m with vwK := s.vwNow, vwNext := some (v.setWidth 5, (s.time / 2 ^ 16 + 1) * 2 ^ 16) }) else s) ∧
    (∀ k due, s.mg.vwNext = some (k, due) → due ≤ s.time → exec .vwKTakeEffect s = .next (mg (fun m => { m with vwK := k, vwNext := none }))) ∧
    (∃ t : State, exec (.dlkcfgWrite v) s = .next t ∧ t.mg.dlkK = (if 10 ≤ fld 0 5 ∧ fld 0 5 ≤ 30 then v.setWidth 5 else s.mg.dlkK) ∧
      ∀ sl r r', s.region sl = some r → t.region sl = some r' → t.detectK r' = s.detectK r) ∧
    (∀ ten w (x : Word), ten < 16 → w < 16 → x.extractLsb' 61 2 ≠ 3#2 →
      (∀ p ∈ s.mg.twin, p.1 / 16 ≠ ten → windowsClash (x &&& 0xE000FFFFFFFFFFFF).toNat p.2.toNat = false) →
      exec (.twinWrite ten w x) s = .next (mg (fun m => { m with twin := tset m.twin (16 * ten + w) (x &&& 0xE000FFFFFFFFFFFF) }))) ∧
    (∀ st, st < 16 → let h := tget s.ms.hstat ⟨0, 0, 0, 0⟩ st
      let off := if st < 8 then tget s.ms.hoffl 0 st ≠ 0 else st ∈ s.ms.farBad
      let val := h.carep.toNat + 2 ^ 16 * h.cecnt.toNat + 2 ^ 32 * h.uecnt.toNat + 2 ^ 40 * h.retrn.toNat + (if off then 2 ^ 48 else 0)
      exec (.smbusHstat st) s = .next (out 8 val) ∧
      exec (.hstatRead st) s = .next { out 8 val with ms := { s.ms with hstat := tset s.ms.hstat st ⟨0, 0, 0, 0⟩ } }) ∧
    (∀ e, e < 16 → exec (.mestatRead e) s = .next { out 8 (2 ^ 32 * (tget s.ms.late 0 e).toNat + (tget s.ms.tmo 0 e).toNat) with
      ms := { s.ms with late := tset s.ms.late e 0, tmo := tset s.ms.tmo e 0 } }) ∧
    exec .vwstatRead s = .next { out 8 (2 ^ 32 * s.mg.vwLate.toNat + (if s.mg.sync then 2 ^ 16 else 0) + s.mg.offs.toNat) with mg := { s.mg with vwLate := 0 } } ∧
    exec .cstaleRead s = .next { out 8 s.mg.cstale.toNat with mg := { s.mg with cstale := 0 } } ∧
    (∀ fn, fn ≠ 0 → s.fnOn fn = true → exec (.frlostRead fn) s = .next ((out 8 (s.fn fn).frlost.toNat).putFn fn { s.fn fn with frlost := 0 })) ∧
    (∀ x : Word, exec (.registerWrite 0 0x2040 8 x) s = .next (mg (fun m => { m with chold := x.setWidth 32 })).run ∧
      exec (.registerWrite 17 0x2048 4 x) s = .next (mg (fun m => { m with ctmo := x.setWidth 32 })).run ∧
      (∀ fn, fn ≠ 0 → s.fnOn fn = true → exec (.registerWrite fn 0x38 8 x) s = .next (s.putFn fn { s.fn fn with hwin := x }).run) ∧
      (∀ ten, ten < 16 → exec (.registerWrite 0 (0x10000 + 8 * ten) 8 x) s =
        .next (mg (fun m => { m with ptroot := tset m.ptroot ten (x &&& 0xFFFFF00001) })).run)) ∧
    exec .version s = .next (out 1 1) ∧
    exec .status s = .next (out 1 ((if s.mg.held = true ∨ s.mg.stage ≠ .none ∨ (∃ p ∈ s.hs.fns, p.2.reset = true) ∨ (∃ p ∈ s.slots, p.2.reset.isSome = true) then 1 else 0) + (if s.mg.throttle = [] then 0 else 2) +
      (if s.mg.sealFail then 4 else 0) + (if s.mg.degr then 8 else 0))) ∧
    (∀ d, d ≤ 4 → exec (.temp d) s = .next (out 2 (BitVec.ofInt 16 (tget s.mg.temps 0 d)).toNat)) ∧
    exec .power s = .next (out 2 s.mg.power.toNat) ∧
    exec .plimitRead s = .next (out 2 s.mg.plimit.toNat) ∧
    (∀ w : BitVec 16, exec (.plimitWrite w) s = .next (if 500 ≤ w.toNat ∧ w.toNat ≤ 3000 then mg (fun m => { m with plimit := w }) else s)) ∧
    exec .smbusRststat s = .next (out 4 (2 ^ 5 * s.mg.cause.toNat + (if s.mg.sealFail then 2 ^ 4 else 0) + (if s.mg.degr then 2 ^ 3 else 0) + s.mg.lcs.toNat)) ∧
    exec .lcs s = .next (out 1 s.mg.lcs.toNat) ∧
    exec .devid s = .next { s with hostData := if s.mg.lcs = 0 ∨ s.mg.lcs = 4 then List.replicate 64 0 else (Config.devId ++ List.replicate 64 0).take 64 }

/-- R174: DLKCFG holds K for every region: 20 at reset, written with 10 to 30 alone, its other bits 0; a new K applies from the next restart of each region's count. -/
def Obligations.DetectionTimeRegister : Prop :=
  State.reset.pfReg 0x10 = 20 ∧
  ∀ (s : State) (v : W32),
    let k := v.toNat % 2 ^ 5
    ∃ t : State, exec (.dlkcfgWrite v) s = .next t ∧
      t.pfReg 0x10 = (if 10 ≤ k ∧ k ≤ 30 then k else s.pfReg 0x10) ∧ t.pfReg 0x10 < 2 ^ 5 ∧
      ∀ sl r r', s.region sl = some r → t.region sl = some r' →
        r'.idleAt = r.idleAt ∧ t.detectK r' = s.detectK r ∧
        t.detectK r'.restart = t.pfReg 0x10

/-- R30: the port toward each row peer and each column peer, and the spare that TRIMAP puts in the place of a port, which routing takes for that port. The fields of TRIMAP are R31's, and a spare
in UALink mode stands in for none by R31 and R32. -/
def Obligations.PortMap : Prop :=
  ∀ (s : State),
    let x := s.mg.x.toNat
    let y := s.mg.y.toNat
    let w := s.mg.trimap
    (∀ a, a < 16 → a ≠ x → s.portTo (devOf a y) = some (if a < x then a else a - 1)) ∧
    (∀ b, b < 16 → b ≠ y → s.portTo (devOf x b) = some (15 + if b < y then b else b - 1)) ∧
    (∀ a b, a < 16 → b < 16 → (a ≠ x ∧ b ≠ y ∨ a = x ∧ b = y) → s.portTo (devOf a b) = none) ∧
    (∀ n, n < 30 → s.physPort n = if w.getLsbD 5 = true ∧ (w.extractLsb' 0 5).toNat = n then 30
      else if w.getLsbD 13 = true ∧ (w.extractLsb' 8 5).toNat = n then 31 else n) ∧
    (∀ d n q, s.portTo d = some n → s.livePort d = some q → q = s.physPort n) ∧
    ∀ (v : W32) n, n < 30 → (v.extractLsb' 0 5).toNat = n → v.getLsbD 5 = true → v.getLsbD 13 = false → (s.port 30).ualink = false →
      ∃ t : State, exec (.trimapWrite v) s = .next t ∧ t.physPort n = 30

/-- A packet of a kind that its receiving port takes. -/
def Sys2Proof.Claims.wellSent (p : Packet) (kind : BitVec 4) : Prop := p.kind = kind ∧ p.tc ≠ 7 ∧ p.rsv = 0 ∧ (p.np = 0 ∨ p.pad = 0)

/-- What a packet of a custody class leaves behind, unless it is itself an acknowledgement: a custody ack to the previous hop, and in an ordered class a delivery ack to the source, but that a write's own
answer is its delivery ack. -/
def Sys2Proof.Claims.acked (p : Packet) (t : State) : State :=
  if isAck p then t
  else if tcOrdered p.tc = true ∧ ¬(p.kind = 0 ∧ p.tc ≠ 5) then (t.custodyAck p).deliveryAck p ⟨0, false, 0, 0, false⟩ else t.custodyAck p

/-- A packet of a kind that this device takes does what it does in the state `u`: in a custody class at once; in a connection class, as the next expected one of a connection in port
SRAM, once that is counted, with an ack for every sixteenth. -/
def Sys2Proof.Claims.arrives (s : State) (p : Packet) (kind : BitVec 4) (u : State) : Prop :=
  wellSent p kind ∧ p.dst = s.self ∧ s.strayPort p = false ∧ (isAck p = true ∨ (s.fn (p.ten.toNat + 1)).reset = false) ∧
    (s.tcConn p.tc = false ∧ p.seq = 0 ∧ u = s ∨
      s.tcConn p.tc = true ∧ ∃ c, s.conn p.src p.ten = some c ∧ c.here = true ∧ p.seq = c.expect ∧
        let c1 : Conn := { c with expect := c.expect + 1, owed := c.owed + 1, owedAt := if c.owed = 0 then s.time else c.owedAt, used := s.time }
        u = if 16 ≤ c1.owed then (s.putConn { c1 with owed := 0, owedAt := s.time }).sendCtl c.peer c.ten.toNat 2 (leOf 2 c.expect.toNat) else s.putConn c1)

/-- R35 to R45, R49, R60 to R62, R380, R386, R387, R405: what each packet does at its destination, before the acks of a custody class: a custody ack to its previous hop, a delivery ack to its
source in an ordered class. A meld packet that is held gets its delivery ack later; a packet that is refused sends an error notice instead; a write's commit is told by its delivery ack in a custody class,
by a reply in a connection class. The formats of acks, notices, replies and remote requests are the model's (log 13), what a connection class does with a chunk beyond the quota (log 14), the number of the
write of an atomic (log 8), where a chunk's window is checked (log 38) and the order of a meld packet's checks (logs 36, 37). -/
def Obligations.FabricArrivalResult : Prop :=
  ∀ (s u : State) (p : Packet),
    let after (t : State) : State := if s.tcConn p.tc then t else acked p t
    let does (i : Instr) (kind : BitVec 4) (t : State) : Prop := arrives s p kind u → lands s i (after t)
    let refused (i : Instr) (kind : BitVec 4) (t : State) : Prop := arrives s p kind u → lands s i (t.notice p 1)
    let ctl (i : Instr) (k : Nat) (t : State) : Prop := p.opq.toNat % 256 = k → does i 7 t
    let ten := p.ten.toNat
    let body := pktContent p
    let head := ReplyHead.ofBytes body
    let va := remoteVa p
    let n := remoteLen p
    let answer (t : State) (h : ReplyHead) : State := if u.tcConn p.tc then t.reply p 2 h [] else t.deliveryAck p h
    (∀ t, p.tc ≠ 5 → u.nput ten apLocal va (body.drop 16) = (t, none) → does (.fabricWrite p) 0 (answer (t.lateCheck p).1 ⟨0, (t.lateCheck p).2, 0, 0, false⟩)) ∧
    (∀ t f, p.tc ≠ 5 → u.nput ten apLocal va (body.drop 16) = (t, some f) → does (.fabricWrite p) 0 (answer t (ReplyHead.ofFault f))) ∧
    (p.tc = 5 → does (.fabricWrite p) 0 u) ∧
    (∀ t b, u.uget ten needR apLocal va n = (t, .ok b) → does (.fabricReadRequest p) 1 (t.reply p 2 ⟨0, false, 0, 0, false⟩ b)) ∧
    (∀ t f, u.uget ten needR apLocal va n = (t, .error f) → does (.fabricReadRequest p) 1 (t.reply p 2 (ReplyHead.ofFault f) [])) ∧
    does (.fabricReadReply p) 2 (u.remoteDone p.opq head (body.drop 16)) ∧
    (∀ l, u.translate ten va needRWA 7 = .ok l → u.locStatus l n < stUE →
      let v := (u.translateEcc ten va).eccEvent l (u.locStatus l n)
      let old := leNum (v.locRead l n)
      let x := (atomOf (leNum ((body.drop 32).take 1)) (BitVec.ofNat 64 (leNum ((body.drop 24).take 8)))).eval n old (leNum ((body.drop 16).take 8))
      (∀ w, x.1 = some w →
        let t0 := (v.locWrite l (leOf n w)).dropStage (fun y => y.unit.path != 0 && y.space == l.space.1 && l.space.2 ≤ y.addr && y.addr < l.space.2 + n)
        let t := (t0.noteWrite none (fun _ => false) l.space.1 (addrs l.space.2 n) (fun a => ((t0.ms.msgAt none l.space.1 a).map Msg.rels).getD [])).1
        does (.fabricAtomic p) 3 ((t.lateCheck p).1.reply p 4 ⟨0, (t.lateCheck p).2, x.2, 0, false⟩ (leOf n old))) ∧
      (x.1 = none → does (.fabricAtomic p) 3 (v.reply p 4 ⟨0, false, x.2, 0, false⟩ (leOf n old)))) ∧
    (∀ f, u.translate ten va needRWA 7 = .error f → does (.fabricAtomic p) 3 ((u.translateEcc ten va).reply p 4 (ReplyHead.ofFault f) [])) ∧
    does (.fabricAtomicReply p) 4 (u.remoteDone p.opq head (body.drop 16)) ∧
    (∀ t, p.opq.getLsbD 8 = false →
      let took := u.meldTake (p.opq.toNat % 2 ^ 4) ten (some p) body
      (took = (t, .held) → arrives s p 5 u → lands s (.meldPacket p) (if s.tcConn p.tc then t.melds else t.melds.custodyAck p)) ∧
      (took = (t, .gone) → does (.meldPacket p) 5 t.melds) ∧
      (took = (t, .bad 1) → refused (.meldPacket p) 5 t) ∧
      ∀ st, st ≠ 1 → took = (t, .bad st) → does (.meldPacket p) 5 (t.notice p st).melds) ∧
    (p.opq.getLsbD 8 = true → arrives s p 5 u →
      let t := (u.outputTake p).melds
      lands s (.outputPacketArrival p) (if s.tcConn p.tc then t else t.custodyAck p)) ∧
    (∀ t, let took := u.collTake p (p.opq.toNat % 2 ^ 6)
      (took = .ok t → does (.chunk p) 6 t) ∧ (took = .refused t 1 → refused (.chunk p) 6 t) ∧
      (took = .later t → s.tcConn p.tc = false → arrives s p 6 u → lands s (.chunk p) t)) ∧
    ctl (.custodyAck p) 0 (u.withFb (fun f => { f with custody := dropFirst (fun c => pktId c.pkt == body.take 10) f.custody })) ∧
    (∀ w, u.fb.undeliv.find? (fun w => pktId w == body.take 10) = some w →
      let t := u.withFb (fun f => { f with undeliv := dropFirst (fun w => pktId w == body.take 10) f.undeliv })
      (w.kind ≠ 0 ∨ w.tc = 5 → w.kind ≠ 5 → ctl (.deliveryAck p) 1 t) ∧
      (w.kind = 5 → ctl (.deliveryAck p) 1 (t.creditId (body.take 10)).melds) ∧
      (w.kind = 0 → w.tc ≠ 5 → ctl (.deliveryAck p) 1 (t.remoteDone w.opq (ReplyHead.ofBytes (body.drop 16)) []))) ∧
    (u.fb.undeliv.find? (fun w => pktId w == body.take 10) = none →
      ctl (.deliveryAck p) 1 (if u.tcConn 3 then (u.creditId (body.take 10)).melds else u)) ∧
    (u.conn p.src p.ten = none → ctl (.connectionAck p) 2 u) ∧
    (∀ c, u.conn p.src p.ten = some c → c.here = true →
      let rest := c.unack.filter (fun w => decide ((w.seq - BitVec.ofNat 16 (leNum (body.take 2)) - 1).toNat < 2 ^ 15))
      ctl (.connectionAck p) 2 (u.putConn { c with
        used := u.time
        unack := rest
        fails := if rest.length < c.unack.length then 0 else c.fails
        sentAt := if rest.length < c.unack.length then u.time else c.sentAt }).flushAwaits) ∧
    ctl (.errorNotice p) 3 (u.gotNotice (pktOf (body.drop 16)) (leNum (body.take 1))) ∧
    (let num := (body.getD 0 0).toNat
     let inst := BitVec.ofNat 4 ((body.getD 1 0).toNat % 16)
     let mine (h : HoldAt) : Bool := h.dev == p.src && h.inst == inst
     ∀ k, u.coll ten num = some k →
      let now : Prop := k.running.isSome = true ∧ inst = k.inst
      let next : Prop := inst = k.inst + 1
      (p.src ∈ u.ranks k → now ∨ next → k.holds.any mine = false →
        ctl (.hold p) 4 ((u.onColl ten num (fun k => { k with holds := k.holds ++ [⟨p.src, inst, u.time⟩] })).rePause ten num)) ∧
      (p.src ∉ u.ranks k → ctl (.hold p) 4 (u.endColl ten num 5 true)) ∧
      (k.holds.any mine = true → ctl (.resume p) 5 ((u.onColl ten num (fun k' => { k' with holds := k.holds.filter (fun h => !mine h) })).rePause ten num)) ∧
      (next → ctl (.abort p) 6 (u.onColl ten num (fun k => { k with aborted := true, holds := k.holds.filter (fun h => h.inst != inst) }))) ∧
      (¬ next → ctl (.abort p) 6 (u.endColl ten num 1 false))) ∧
    (∀ t, u.collTake p (body.getD 0 0).toNat = .ok t → ctl (.armed p) 7 t) ∧
    ctl (.endAck p) 8 (u.gotEndAck ten (leNum (body.take 2)) (leNum ((body.drop 2).take 1)) (leNum ((body.drop 3).take 1)))

/-- The connection that a timer needs, which is a use of it: at once where it lies in port SRAM; else fetched, room made, and the packets that waited for it gone on [02 R36, R43]. -/
def Sys2Proof.Claims.fetched (s : State) (c : Conn) (t : State) (d : Conn) : Prop :=
  c.here = true ∧ t = s ∧ d = { c with used := s.time } ∨
  c.here = false ∧ t = ((s.withFb (fun f => { f with conns := makeRoom f.conns })).putConn { c with here := true, used := s.time }).flushAwaits ∧ t.conn c.peer c.ten = some d

/-- R31 to R33, R36, R38, R40 to R43, R46, R50, R51, R53, R193: packets for other devices go on toward them by ports whose links are up and in Triwin mode; a packet whose ack does not come is
sent again three times, a connection seven; an owed ack goes after 2 us; a packet held for a link goes after 20 us, or waits on as a resend; links come and go; the Sync messages set OFFS and
SYNC; a connection comes back; a peer's connection is set up or refused; outputs of a reduction. What a packet without any usable path does is the model's (log 6), as are the notices (log
13), the connection after its eighth timeout and the VIA device (log 36), and where a segment is emitted dense early (log 14). -/
def Obligations.FabricTimerResult : Prop :=
  ∀ (s : State),
    (∀ d n, s.portTo d = some n →
      s.livePort d = if (s.port (s.physPort n)).up = true ∧ (s.port (s.physPort n)).ualink = false then some (s.physPort n) else none) ∧
    (∀ p, wellSent p 0 → p.dst ≠ s.self → s.strayPort p = false →
      let q := (s.nextHop p).1
      let hop := (s.nextHop p).2
      let t := if s.tcConn p.tc = false ∧ isAck p = false then s.custodyAck p else s
      (∀ port, s.livePort hop = some port → lands s (.fabricWrite p) (t.putOut q port 0)) ∧
      (s.livePort hop = none → tcOrdered p.tc = true → lands s (.fabricWrite p) (t.hold q (match s.portTo hop with | some k => s.physPort k | none => 32) 0)) ∧
      (s.livePort hop = none → tcOrdered p.tc = false → lands s (.fabricWrite p) (t.tell q 2))) ∧
    (∀ idx c, s.fb.custody[idx]? = some c → c.at_ + 20000 ≤ s.time → (∀ o ∈ s.fb.out, ¬(o.port = c.port ∧ o.pkt = c.pkt)) →
      (c.resent < 3 → lands s (.custodyTimeout idx) (s.withFb (fun f => { f with
        custody := lset f.custody idx { c with resent := c.resent + 1, at_ := s.time }, out := f.out ++ [(⟨c.port, c.pkt, s.time⟩ : OutPkt)] }))) ∧
      (3 ≤ c.resent → lands s (.custodyTimeout idx) ((s.withFb (fun f => { f with custody := ldel f.custody idx })).tell c.pkt 0))) ∧
    (∀ idx c, s.fb.conns[idx]? = some c → s.conn c.peer c.ten = some c →
      (∀ t d, fetched s c t d → d.unack ≠ [] → d.sentAt + 10000 ≤ t.time →
        (d.fails < 7 → lands s (.connectionTimeout idx) ((t.putConn { d with fails := d.fails + 1, sentAt := t.time }).resendAll d)) ∧
        (7 ≤ d.fails → lands s (.connectionTimeout idx) (d.unack.foldl (fun t p => t.gotNotice p 0)
          (t.putConn { d with fails := 0, openC := false, unack := [], nextSq := (d.unack.map (fun p => p.seq)).headD d.nextSq })))) ∧
      (∀ t d, fetched s c t d → c.owed ≠ 0 → c.owedAt + 2000 ≤ s.time →
        exec (.ackTimer idx) s = .next ((t.putConn { d with owed := 0, owedAt := t.time }).sendCtl d.peer d.ten.toNat 2 (leOf 2 (d.expect - 1).toNat))) ∧
      (∀ t d, fetched s c t d → exec (.connectionFetch idx) s = .next t)) ∧
    (∀ idx h, s.fb.held[idx]? = some h → h.at_ + 20000 ≤ s.time →
      let gone := s.withFb (fun f => { f with held := ldel f.held idx })
      let found : Prop := h.port = 32 ∧ (s.path h.pkt.dst h.pkt.tc false).isSome = true
      (found → lands s (.holdPacketTimeout idx) s) ∧
      (¬ found →
        (s.tcConn h.pkt.tc = true → lands s (.holdPacketTimeout idx) (gone.portError h.port)) ∧
        (s.tcConn h.pkt.tc = false → isAck h.pkt = true → lands s (.holdPacketTimeout idx) gone) ∧
        (s.tcConn h.pkt.tc = false → isAck h.pkt = false → h.port ≠ 32 → h.resent < 3 → lands s (.holdPacketTimeout idx)
          (s.withFb (fun f => { f with held := lset f.held idx { h with resent := h.resent + 1, at_ := s.time } }))) ∧
        (s.tcConn h.pkt.tc = false → isAck h.pkt = false → h.port = 32 ∨ 3 ≤ h.resent → lands s (.holdPacketTimeout idx) (gone.tell h.pkt 0)))) ∧
    (∀ port, port < 32 →
      ((∀ c ∈ s.fb.custody, c.port ≠ port) → (∀ q ∈ s.fb.out, q.port ≠ port) → landsIn s (.linkDown port) (fun t =>
        t.port port = { s.port port with up := false } ∧ (∀ q, q ≠ port → t.port q = s.port q) ∧ t.fb.held = s.fb.held ∧ t.fb.custody = s.fb.custody)) ∧
      ((∀ h ∈ s.fb.held, h.port ≠ port ∧ h.port ≠ 32) → ∃ t : State, exec (.linkUp port) s = .next t ∧ t.port port = { s.port port with up := true, lanes := 4 } ∧
        (∀ q, q ≠ port → t.port q = s.port q) ∧ ((∀ o ∈ s.fb.out, s.expired o.pkt o.at_ = false) → t.fb.out = s.fb.out) ∧
          ((∀ h ∈ s.fb.held, s.expired h.pkt h.at_ = false) → t.fb.held = s.fb.held))) ∧
    (∀ m : Word, let o := (m.extractLsb' 0 32).toInt
      ∃ t : State, exec (.syncMessage m) s = .next t ∧ t.fb.syncAt = s.time ∧ t.mg.offs.toInt = max (-32767) (min 32767 o) ∧
        (t.mg.sync = true ↔ m.extractLsb' 32 5 = s.vwNow ∧ -50 ≤ o ∧ o ≤ 50)) ∧
    (s.fb.syncAt + 500000000 ≤ s.time → exec .syncLost s = .next { s with mg := { s.mg with sync := false } }) ∧
    (∀ peer mode, ∃ t : State, exec (.connectionSetUp peer mode) s = .next t ∧ t.fb.ethOut = s.fb.ethOut ++ [(peer, decide (mode ≤ 1))] ∧
      (mode ≤ 1 → (peer, mode) ∈ t.fb.eth ∧ ∀ m, (peer, m) ∈ t.fb.eth → m = mode) ∧ (1 < mode → t.fb.eth = s.fb.eth)) ∧
    ∀ unit m, tget s.fb.melds [] unit = [m] →
      (∀ g early s0, m.lowest = some g → m.passed g = true →
        (meldRoom [m] = true ∧ early = false ∧ s0 = s ∨ meldRoom [m] = false ∧ early = s.draw.1.getLsbD 0 ∧ s0 = s.draw.2) →
        let seg := m.segment g
        let ps := if 16 * m.dth < seg.1.length ∨ early = true then densePackets m g m.pseq.toNat seg.1 else sparsePackets m g (seg.1.length + 1) m.pseq.toNat seg.1
        let t := s0.onMeld unit m.ten.toNat m.red.toNat (fun m => { m with
          ins := m.ins.map (fun p => (p.1, { p.2 with ents := p.2.ents.filter (fun e => e.1.toNat / 4096 != g) }))
          next := g + 1
          pseq := m.pseq + BitVec.ofNat 16 ps.length
          movf := m.movf || seg.2.1
          mnan := m.mnan || seg.2.2
          last := s.time })
        lands s (.outputSegment unit m.red.toNat) ((t.meldDrain unit m.ten.toNat m.red.toNat).meldOuts m ps).melds) ∧
      (∀ l st, m.lowest = none → (∀ i < m.nin, (m.input i).ended.isSome = true) →
        ((∀ i < m.nin, (m.input i).ended = some 0) ∧ l = 0 ∧ st = 0 ∨ l < m.nin ∧ (m.input l).ended = some st ∧ st ≠ 0 ∧ ∀ i < l, (m.input i).ended = some 0) →
        let h : MHead := { seg := 0, cnt := 0, enc := 2, vt := m.vto, lastp := false, status := st, lin := l, red := m.red.toNat, pseq := m.pseq.toNat, off := 0, movf := m.movf, mnan := m.mnan }
        lands s (.outputEnd unit m.red.toNat) ((s.withFb (fun b => { b with melds := tset b.melds unit [] })).meldOuts m [(h, [])]).melds)

/-- The chunks that a receive takes in turn: the bytes of each, combined with what the buffer holds there where it reduces, are written, its window is checked, its frame is free, its offset is noted, and the rank has
made progress [02 R45, R53, R56, R59]. -/
def Sys2Proof.Claims.chunksTaken (ten num idx : Nat) (a : TrickAt) (red : Bool) : List Packet → State → State → Prop
  | [], s, t => t = s
  | p :: r, s, t =>
    let off := (chunkParts p).1
    let b := (chunkParts p).2.2
    let va := a.addr + BitVec.ofNat 64 off
    ∃ (s1 s2 : State) (d : List Byte),
      (red = false ∧ s1 = s ∧ d = b ∨
        red = true ∧ ∃ old, s.uget ten needR apLocal va b.length = (s1, .ok old) ∧ d = reduceBytes a.t.fmt.toNat a.t.rop.toNat old b) ∧
      s1.cput ten va d = (s2, none) ∧
      chunksTaken ten num idx a red r (((s2.lateCheck p).1.onColl ten num (fun k => { k with here := k.here.filter (fun q => q != p) })).onInst ten num (fun i => { i with
        got := tset i.got idx (tget i.got [] idx ++ [off]), last := s.time })) t

/-- R53 to R56, R59 to R61, R405, R406: a trick whose predecessors are done does its work: SEND sends its bytes as chunks, RECV writes what has come, RREDUCE combines it with what the buffer
holds, MELD enters its route and, on the device that hosts the reduction, sets it up and says so, COPY and SIGNAL; a trick that has done its work counts its successors down and, as the last,
ends the instance DONE; a rank without progress ends with TIMEOUT, a rank held too long with ABORTED. A receive takes each chunk as it comes and completes with the last piece; the timers of
a rank stand while a HOLD stands and go on after it. The pieces of 1,024 bytes and the form of a chunk are the model's (log 13), as are COPY and SIGNAL (log 15), the pairing of RREDUCE, what
a second reduction ends with and where a window is checked (log 38), and the last RESUME of several (log 14). -/
def Obligations.CollectiveTrickResult : Prop :=
  ∀ (s s1 : State) (ten num : Nat),
    (∀ (idx : Nat) (a : TrickAt), s.trickAt ten num idx = some a →
      let begins (i : Instr) (op : BitVec 4) (t : State) (red : BitVec 16) : Prop := a.st = .waiting 0 → a.t.op = op →
        lands s i (t.onInst ten num (fun i => { i with st := tset i.st idx (.started red), last := t.time }))
      let n := a.t.len.toNat
      let ps := a.chunks idx
      let misfit (p : Packet) : Prop := (chunkParts p).2.1 ≠ n ∨ n < (chunkParts p).1 + (chunkParts p).2.2.length
      let receives (i : Instr) (op : BitVec 4) (red : Bool) : Prop := a.st = .waiting 0 → a.t.op = op →
        ((∃ p ∈ ps, misfit p) → lands s i (s.endColl ten num 5 true)) ∧
        ∀ t, (∀ p ∈ ps, ¬misfit p) → chunksTaken ten num idx a red ps s t →
          ((tget a.i.got [] idx).length + ps.length = (n + 1023) / 1024 → begins i op t 0) ∧
          ((tget a.i.got [] idx).length + ps.length ≠ (n + 1023) / 1024 → lands s i t)
      (∀ b s2 m, s.cget ten num a.addr n = (s1, .ok b) →
        let all := remotePieces (b.length / 1024 + 1) 0 b.length
        let was := tget a.i.sent 0 idx
        s1.sendChunks a (a.ordinal idx false) b.length b (all.drop was) = (s2, m) →
        (was + m = all.length → begins (.send ten num idx) 0 s2 0) ∧
        (was + m ≠ all.length → a.st = .waiting 0 → a.t.op = 0 → lands s (.send ten num idx) (s2.onInst ten num (fun i => { i with
          sent := tset i.sent idx (was + m)
          last := if m = 0 then i.last else s2.time })))) ∧
      receives (.recv ten num idx) 1 false ∧ receives (.rreduce ten num idx) 2 true ∧
      (∀ b t, s.cget ten num a.addr n = (s1, .ok b) →
        s1.draw.2.cput ten (a.i.table.getD (s1.draw.1.toNat % 16) 0 + a.t.off.setWidth 64) b = (t, none) → begins (.trickCopy ten num idx) 3 t 0) ∧
      (∀ b rt m, n = 16 → a.t.rop = 0 → a.addr.toNat % 16 = 0 → s.uget ten needR apLocal a.addr 16 = (s1, .ok b) →
        meldDesc (leNum b) ten num a.t.peer a.t.fmt.toNat s1.time = some (rt, m) →
        let t := s1.withFb (fun f => { f with routes := f.routes.filter (fun x => !(x.ten == rt.ten && x.red == rt.red)) ++ [rt] })
        let here := tget s1.fb.melds [] a.t.fmt.toNat
        (a.t.peer ≠ s.self → s1.self = s.self → begins (.meld ten num idx) 4 t rt.red) ∧
        (a.t.peer = s.self → s1.self = s.self → here.length < 4 → (∀ x ∈ here, x.ten = m.ten → x.red ≠ m.red) →
          begins (.meld ten num idx) 4 ((t.withFb (fun f => { f with melds := tset f.melds a.t.fmt.toNat (here ++ [m]) })).collMsg a.k 7 a.i.num rt.red) rt.red)) ∧
      begins (.signal ten num idx) 5 s 0 ∧
      (∀ red, a.st = .started red → (a.t.op = 4 → a.t.peer = s.self ∨ a.k.armed red = true) →
        let t := s.onInst ten num (fun i => { i with st := decSucc (tset i.st idx .done) a.t.succ, done := i.done + 1, last := s.time })
        lands s (.trickComplete ten num idx) (if a.i.done + 1 = a.k.tricks.length then t.endColl ten num 0 false else t))) ∧
    (s.coll ten num = none → lands s (.collectiveTimeout ten num) (s.abortInputs ten num)) ∧
    (∀ k, s.coll ten num = some k →
      (k.pausedAt = none → (k.isPaused = true ∨ k.heldAt.isSome = true) → s.rePause ten num = s.onColl ten num (fun k => { k with pausedAt := some s.time })) ∧
      ∀ p, k.pausedAt = some p → k.isPaused = false → k.heldAt = none →
        ((s.rePause ten num).coll ten num = some { k with pausedAt := none, running := k.running.map (fun i => { i with last := s.time - (p - i.last) }) } ∧
          (s.rePause ten num).fb.melds = s.fb.melds.map (fun q => (q.1, q.2.map (fun m =>
            if m.ten.toNat = ten ∧ m.coll = num then { m with last := s.time - (p - m.last) } else m))))) ∧
    ∀ k, s.coll ten num = some k →
      (k.isPaused = true ∨ k.heldAt.isSome = true → lands s (.collectiveTimeout ten num) s) ∧
      (∀ i, k.running = some i → k.isPaused = false → k.heldAt = none → i.last + 1000 * s.mg.ctmo.toNat ≤ s.time →
        lands s (.collectiveTimeout ten num) ((s.abortInputs ten num).endColl ten num 2 true)) ∧
      (∀ t, k.heldAt = some t → t + 1000 * s.mg.chold.toNat ≤ s.time → lands s (.holdLimit ten num) (s.endColl ten num 1 true)) ∧
      ∀ h rest, k.holds = h :: rest → h.at_ + 1000 * s.mg.chold.toNat + 1000000 ≤ s.time →
        (∀ i, k.running = some i → i.num = h.inst → lands s (.peerHoldExpiry ten num) (s.endColl ten num 1 true)) ∧
        (k.running = none → lands s (.peerHoldExpiry ten num) (s.onColl ten num (fun k => { k with
          holds := k.holds.filter (fun x => x.inst != h.inst)
          aborted := k.aborted || h.inst == k.inst + 1 })))

/-! The step, the encodings, the reset, the invariant -/

/-- R152, R153, R155, R162, R167, R268: a step of a machine with power that no reset holds. A core's clk makes what was issued readable, takes a pending asynchronous trap, and then fetches the
word at the pc of the thread whose turn it is, decodes it and runs it, a word that is no instruction as ILLEGAL; its clk counts on. The firing arbiter of an element takes a waiting marker,
else runs the node of the first unit whose firing begins with credit for what it sends and a place for what stays in the element. An event is run as it stands. What acts next, the time that
a core's clk brings every region to, and the turns of waiting requests are the model's agenda (log 1), and so is which tokens a firing needs credit for (log 49). -/
def Obligations.StepRunsDecodedInstruction : Prop :=
  ∀ (s : State) (rest : List Move), s.mg.powered = true → s.mg.held = false → s.mg.stage = .none →
    let s0 : State := { s with agenda := rest }
    (∀ n sl r, s.region sl = some r → r.running = true → ∃ r', (s.setTime n).region sl = some r' ∧ r'.now = n - r.started) ∧
    (∀ sl c r (s1 s2 : State) r1 q r2, s.agenda = .core sl c :: rest → s.region sl = some r → r.running = true → c < r.ncore →
      let u := (s0.setTime (max s.time (r.started + (r.core c).clk))).takeTurns
      u.region sl = some r1 → s1 = u.putRegion sl (r1.putCore c ((r1.core c).startClk r1.now)) → s1.region sl = some q →
      ((q.core c).asyncNow.isNone = true ∧ s2 = s1 ∨ (q.core c).asyncNow.isSome = true ∧ exec (.asynchronousTrap sl c) s1 = .next s2) → s2.region sl = some r2 →
      let after (t : State) : State := t.onRegion sl (fun q => q.putCore c { q.core c with clk := (q.core c).clk + 1 })
      ((r2.core c).pick = none → step s = .next (after s2)) ∧
      ∀ th, (r2.core c).pick = some th →
        (∀ t, (r2.core c).fetch ((r2.core c).thread th).pc = none → exec (.illegal none) (s2.focusThread sl c th 0 true) = .next t → step s = .next (after t)) ∧
        ∀ w, (r2.core c).fetch ((r2.core c).thread th).pc = some w →
          let s3 := (s2.putRegion sl (r2.putCore c ((r2.core c).issued th w))).focusThread sl c th w true
          (∀ i t, decodeWord w.toNat = .ok i → exec i s3 = .next t → step s = .next (after t)) ∧
          ∀ e t, decodeWord w.toNat = .error e → exec (.illegal (some w)) s3 = .next t → step s = .next (after t)) ∧
    (∀ sl c el r, s.agenda = .fire sl c el :: rest → s.region sl = some r → r.acts = true → c < r.ncore → (r.elem c el).used = true →
      ((r.elem c el).markers ≠ [] → step s = exec (.markerTake sl c el) s0) ∧
      ((r.elem c el).markers = [] → s0.mayFire r c el = false → step s = .next s0) ∧
      (∀ u ∈ (r.elem c el).candidates sl c el, decodeOp ((r.elem c el).rec_ u.1.1).toNat = .ok u.2 ∨ u.2 = .loopnStep sl c el u.1.1 u.1.2.1.toNat) ∧
      let at_ (u : Candidate) : State :=
        { s0 with focus := { s0.focus with slot := sl, core := c, elem := el, node := u.1.1, ctx := u.1.2.1, colour := u.1.2.2.1, row := some u.1.2.2.2 } }
      let begins (u : Candidate) (t : State) : Prop := t.arbOf sl c el ≠ s0.arbOf sl c el ∧ s0.sentWithin t sl c el u.1.1 (sendsLater u.2) = true
      (s0.mayFire r c el = true → (∀ u ∈ (r.elem c el).candidates sl c el, ∃ t, exec u.2 (at_ u) = .next t ∧ ¬begins u t) → step s = .next s0) ∧
      ∀ pre u post t, s0.mayFire r c el = true → (r.elem c el).candidates sl c el = pre ++ u :: post → (∀ v ∈ pre, ∃ t', exec v.2 (at_ v) = .next t' ∧ ¬begins v t') →
        exec u.2 (at_ u) = .next t → begins u t → step s = .next t) ∧
    ∀ i, s.agenda = .op i :: rest → i.bits = 0 → (∀ w, i ≠ .illegal w) → (∀ sl c el n x, i ≠ .loopnStep sl c el n x) → step s = exec i s0

/-- R268 to R272 and R260 to R267: words and node records written out from the encoding tables decode to the instructions they stand for. -/
def Obligations.DecodedWords : Prop :=
  let h : CcHd := ⟨0, 0⟩
  let none_ : Dest := ⟨3, 0, 0, 0⟩
  decodeWord 0x048C0005 = .ok (.addi ⟨0, 1⟩ 3 0 5) ∧
  decodeWord 0x1414A03E = .ok (.slli h 5 5 62) ∧
  decodeWord 0x28980800 = .ok (.lui ⟨0, 1⟩ 6 0x800) ∧
  decodeWord 0x02106300 = .ok (.add ⟨1, 0⟩ 4 3 3) ∧
  decodeWord 0x3434F000 = .ok (.ld4 h 13 7 0x1000) ∧
  decodeWord 0x7C006001 = .ok (.loopr h 3 1) ∧
  decodeWord 0x98080064 = .ok (.xfence h 2 0 1) ∧
  decodeWord 0xEC000800 = .ok (.wfe h) ∧
  decodeWord 0xE8000000 = .ok (.tsigExit h 0) ∧
  decodeWord 0x0000000F = .error .aluFunction ∧
  decodeNode 0x020C00000300000000000000 = .ok (.sink ⟨0, 0, none_, none_⟩) ∧
  decodeNode 0x403001C0A300000000000000 = .ok (.vadd ⟨1, 1, ⟨0, 7, 0, 40⟩, none_⟩ ⟨0, 0, 0, 0, 0⟩) ∧
  decodeNode 0x628000C00300000008000005 = .ok (.mma ⟨0, 0, ⟨0, 3, 0, 0⟩, none_⟩ ⟨4, 0, 0, 5⟩) ∧
  decodeNode 0x818000408300000005000800 = .ok (.spup ⟨0, 0, ⟨0, 1, 0, 32⟩, none_⟩ ⟨5, 0, 0, 1, 0⟩) ∧
  decodeNode 0x040000004400101100000003 = .ok (.loopn ⟨0, 0, ⟨0, 0, 0, 17⟩, ⟨0, 1, 0, 17⟩⟩ 3) ∧
  decodeNode 0xA300000043000000C01003FE = .ok (.wld ⟨0, 0, ⟨0, 0, 0, 16⟩, none_⟩ ⟨3, 0x1003FE⟩) ∧
  decodeNode 0xA08C000003000000000FFFFE = .ok (.astore ⟨0, 0, none_, none_⟩ ⟨0, 0xFFFFE⟩)

/-- R260, R267 to R272: decoding gives back every control-core instruction that is encoded, and a word that decodes is the encoding of what it decodes to, bit for bit. -/
def Obligations.DecodeEncodeControlCore : Prop :=
  (∀ i : Instr, i.wf = true → i.bits = 32 → encode i < 2 ^ 32 ∧ decodeWord (encode i) = .ok i) ∧
  ∀ (w : W32) (i : Instr), decodeWord w.toNat = .ok i → i.wf = true ∧ i.bits = 32 ∧ encode i = w.toNat

/-- R260 to R267: decoding gives back every node operator that is encoded, with every field of its header and literal, and a record that decodes is the encoding of what it decodes to. -/
def Obligations.DecodeEncodeNode : Prop :=
  (∀ i : Instr, i.wf = true → i.bits = 96 → encode i < 2 ^ 96 ∧ decodeNode (encode i) = .ok i) ∧
  ∀ (w : BitVec 96) (i : Instr), decodeNode w.toNat = .ok i → i.wf = true ∧ i.bits = 96 ∧ encode i = w.toNat

/-- The management registers hold only what their writes let in: K of VWCFG 8 to 16, K of DLKCFG 10 to 30, coordinates inside the domain, a power limit of 500 to 3,000 W, a life-cycle state of the
table, no reserved bit of TRIMAP or of a window register. -/
def Sys2Proof.Claims.registersLegal (m : Mgmt) : Prop :=
  8 ≤ m.vwK.toNat ∧ m.vwK.toNat ≤ 16 ∧ (∀ k due, m.vwNext = some (k, due) → 8 ≤ k.toNat ∧ k.toNat ≤ 16) ∧
  10 ≤ m.dlkK.toNat ∧ m.dlkK.toNat ≤ 30 ∧ m.x ≤ m.dx ∧ m.y ≤ m.dy ∧ 500 ≤ m.plimit.toNat ∧ m.plimit.toNat ≤ 3000 ∧ m.lcs.toNat ≤ 4 ∧
  m.trimap &&& ~~~0x3F3F#32 = 0 ∧ m.tccfg &&& 0xF = 7 ∧ (∀ p ∈ m.twin, p.2 &&& ~~~0xE000FFFFFFFFFFFF#64 = 0 ∧ p.2.extractLsb' 61 2 ≠ 3) ∧
  ∀ p ∈ m.ptroot, p.2 &&& ~~~0xFFFFF00001#64 = 0

/-- R31, R37, R46, R71, R76, R90, R91, R174, R411: every step keeps the management registers at legal values. -/
def Obligations.RegistersStayLegal : Prop :=
  ∀ (s t : State), registersLegal s.mg → step s = .next t → registersLegal t.mg

/-- R31, R46, R61, R63, R71, R76, R80, R82, R90, R91, R104, R174: the machine right after reset: its registers are legal (K of VWCFG and DLKCFG, CTMO, PLIMIT and TRIMAP at the spec's reset values; LCS is
the model's, log 4), every slot is FREE, every memory reads 0, which is the model's for HBM, expanders and host memory (log 5). -/
def Obligations.ResetState : Prop :=
  let s := State.reset
  registersLegal s.mg ∧ s.mg.vwK = 11 ∧ s.mg.dlkK = 20 ∧ s.mg.ctmo = 100000 ∧ s.mg.plimit = 3000 ∧ s.mg.trimap = 0 ∧ s.mg.twin = [] ∧ s.mg.ptroot = [] ∧
  (∀ n, (s.slot n).st = 0 ∧ s.region n = none) ∧ (∀ f q, ((s.fn f).queue q).en = false) ∧ (∀ f, (s.fn f).fren = false) ∧
  (∀ l n, ∀ b ∈ s.locRead l n, b = 0) ∧ s.ms.ops = [] ∧ s.ms.reqs = [] ∧ s.hs.images = [] ∧ s.hs.runs = [] ∧ s.fb.conns = [] ∧ s.fb.colls = []
end

