-- ==== Sys2Proof/Laws/Table.lean ====
section
/-! SUPPORT. Laws of tables and byte memories: read after write, and the canonical form that every write keeps. -/

namespace Sys2Proof.Machine

@[simp] theorem tget_nil (d : α) (i : Nat) : tget [] d i = d := rfl

theorem tget_tset (t : Table α) (d v : α) (i j : Nat) : tget (tset t i v) d j = if j = i then v else tget t d j := by
  induction t with
  | nil =>
    by_cases h : j = i
    · simp [tset, tget, h]
    · have : ¬i = j := fun e => h e.symm
      simp [tset, tget, h, this]
  | cons p r ih =>
    obtain ⟨k, w⟩ := p
    by_cases h : k = i
    · subst h; by_cases g : j = k
      · simp [tset, tget, g]
      · have : ¬k = j := fun e => g e.symm
        simp [tset, tget, g, this]
    · by_cases g : k = j
      · subst g; simp [tset, tget, h]
      · simp [tset, tget, h, g, ih]

@[simp] theorem tget_tset_same (t : Table α) (d v : α) (i : Nat) : tget (tset t i v) d i = v := by simp [tget_tset]

theorem tget_tset_ne (t : Table α) (d v : α) (i j : Nat) (h : j ≠ i) : tget (tset t i v) d j = tget t d j := by simp [tget_tset, h]

/-- A table whose values are mapped by a function that keeps the default. -/
theorem tget_map (t : Table α) (f : α → α) (d : α) (i : Nat) (h : f d = d) : tget (t.map (fun p => (p.1, f p.2))) d i = f (tget t d i) := by
  induction t with
  | nil => simp [h]
  | cons p r ih =>
    obtain ⟨k, w⟩ := p
    by_cases g : k = i <;> simp [tget, g, ih]

@[simp] theorem mget_nil (a : Nat) : mget [] a = 0 := rfl

theorem mget_filter (m : Memory) (f : Nat → Bool) (a : Nat) : mget (m.filter (fun p => f p.1)) a = if f a then mget m a else 0 := by
  induction m with
  | nil => simp
  | cons p r ih =>
    obtain ⟨k, v⟩ := p
    by_cases h : k = a
    · subst h
      cases g : f k <;> simp [mget, List.filter, g, ih]
    · cases g : f k <;> simp [mget, List.filter, g, h, ih]

theorem mget_mins (m : Memory) (a b : Nat) (v : Byte) : mget (mins m a v) b = if b = a then v else mget m b := by
  induction m with
  | nil =>
    by_cases h : b = a
    · simp [mins, mget, h]
    · have : ¬a = b := fun e => h e.symm
      simp [mins, mget, h, this]
  | cons p r ih =>
    obtain ⟨k, w⟩ := p
    unfold mins
    by_cases h : b = a
    · subst h
      split
      · simp [mget]
      · split
        · simp [mget]
        · rename_i n; have : ¬k = b := fun e => n e.symm
          simp [mget, ih, this]
    · have h' : ¬a = b := fun e => h e.symm
      split
      · simp [mget, h']
      · split
        · rename_i e; subst e; simp [mget, h']
        · simp [mget, ih, h]

/-- Reading a byte after one byte is written [08]. -/
theorem mget_mput (m : Memory) (a b : Nat) (v : Byte) : mget (mput m a v) b = if b = a then v else mget m b := by
  unfold mput
  split
  · rename_i h; subst h
    rw [mget_filter m (fun k => k != a)]
    by_cases h : b = a <;> simp [h]
  · exact mget_mins m a b v

@[simp] theorem mget_mput_same (m : Memory) (a : Nat) (v : Byte) : mget (mput m a v) a = v := by simp [mget_mput]

theorem mget_mput_ne (m : Memory) (a b : Nat) (v : Byte) (h : b ≠ a) : mget (mput m a v) b = mget m b := by simp [mget_mput, h]

/-- Reading a byte after a run of bytes is written. -/
theorem mget_mwrite (bs : List Byte) : ∀ (m : Memory) (a b : Nat),
    mget (mwrite m a bs) b = if a ≤ b ∧ b < a + bs.length then bs.getD (b - a) 0 else mget m b := by
  induction bs with
  | nil => intro m a b; rw [if_neg (by simp only [List.length_nil]; omega)]; rfl
  | cons x r ih =>
    intro m a b
    simp only [mwrite, ih, List.length_cons]
    by_cases h : b = a
    · subst h
      rw [if_neg (by omega), if_pos (by omega), Nat.sub_self, List.getD_cons_zero, mget_mput_same]
    · by_cases g : a + 1 ≤ b ∧ b < a + 1 + r.length
      · have g' : a ≤ b ∧ b < a + (r.length + 1) := by omega
        rw [if_pos g, if_pos g']
        have : b - a = (b - (a + 1)) + 1 := by omega
        rw [this]; simp
      · have g' : ¬(a ≤ b ∧ b < a + (r.length + 1)) := by omega
        rw [if_neg g, if_neg g', mget_mput_ne _ _ _ _ h]

theorem mget_mwrite_outside (m : Memory) (a b : Nat) (bs : List Byte) (h : b < a ∨ a + bs.length ≤ b) : mget (mwrite m a bs) b = mget m b := by
  rw [mget_mwrite, if_neg (by omega)]

@[simp] theorem mread_length (m : Memory) (n : Nat) : ∀ a, (mread m a n).length = n := by
  induction n with
  | zero => intro a; rfl
  | succ n ih => intro a; simp [mread, ih]

theorem mread_getD (m : Memory) (n : Nat) : ∀ a i, i < n → (mread m a n).getD i 0 = mget m (a + i) := by
  induction n with
  | zero => intro a i h; omega
  | succ n ih =>
    intro a i h
    cases i with
    | zero => simp [mread]
    | succ i => simp only [mread, List.getD_cons_succ]; rw [ih _ _ (by omega)]; congr 1; omega

/-- Two runs of bytes that agree byte by byte read the same. -/
theorem mread_congr (m m' : Memory) (n : Nat) : ∀ a, (∀ i, i < n → mget m' (a + i) = mget m (a + i)) → mread m' a n = mread m a n := by
  induction n with
  | zero => intro a _; rfl
  | succ n ih =>
    intro a h
    simp only [mread]
    rw [show mget m' a = mget m a from h 0 (by omega), ih (a + 1) (fun i hi => by rw [Nat.add_right_comm, Nat.add_assoc]; exact h (i + 1) (by omega))]

/-- A run of bytes reads back as it was written. -/
theorem mread_mwrite (bs : List Byte) : ∀ (m : Memory) (a : Nat), mread (mwrite m a bs) a bs.length = bs := by
  induction bs with
  | nil => intro m a; rfl
  | cons x r ih =>
    intro m a
    simp only [mwrite, List.length_cons, mread, ih]
    rw [mget_mwrite_outside _ _ _ _ (by omega)]; simp

theorem mread_mwrite_outside (m : Memory) (a b n : Nat) (bs : List Byte) (h : b + n ≤ a ∨ a + bs.length ≤ b) :
    mread (mwrite m a bs) b n = mread m b n :=
  mread_congr _ _ _ _ (fun i hi => mget_mwrite_outside _ _ _ _ (by omega))

@[simp] theorem leOf_length (n : Nat) : ∀ v, (leOf n v).length = n := by
  induction n with
  | zero => intro v; rfl
  | succ n ih => intro v; simp [leOf, ih]

/-- The little-endian bytes of a number give the number back, modulo their count. -/
theorem leNum_leOf (n : Nat) : ∀ v, leNum (leOf n v) = v % 2 ^ (8 * n) := by
  induction n with
  | zero => intro v; simp [leOf, leNum, Nat.mod_one]
  | succ n ih =>
    intro v
    have e : 2 ^ (8 * (n + 1)) = 256 * 2 ^ (8 * n) := by
      rw [show 8 * (n + 1) = 8 * n + 8 by omega, Nat.pow_add, Nat.mul_comm]
    have h8 : (2 : Nat) ^ 8 = 256 := by decide
    simp only [leOf, leNum, ih, BitVec.toNat_ofNat, e, h8]
    rw [Nat.mod_mul]

theorem leNum_lt (bs : List Byte) : leNum bs < 2 ^ (8 * bs.length) := by
  induction bs with
  | nil => simp [leNum]
  | cons b r ih =>
    have hb := b.isLt
    have e : 2 ^ (8 * (r.length + 1)) = 256 * 2 ^ (8 * r.length) := by
      rw [show 8 * (r.length + 1) = 8 * r.length + 8 by omega, Nat.pow_add, Nat.mul_comm]
    simp only [leNum, List.length_cons, e]; omega

/-! The canonical form -/

theorem mwfFrom_mono (m : Memory) (lo lo' : Nat) (h : lo' ≤ lo) (w : mwfFrom lo m = true) : mwfFrom lo' m = true := by
  cases m with
  | nil => rfl
  | cons p r => obtain ⟨k, v⟩ := p; simp only [mwfFrom, Bool.and_eq_true, decide_eq_true_eq] at *; exact ⟨⟨by omega, w.1.2⟩, w.2⟩

/-- Taking bytes away keeps the canonical form. -/
theorem mwfFrom_filter (m : Memory) (f : Nat × Byte → Bool) : ∀ lo, mwfFrom lo m = true → mwfFrom lo (m.filter f) = true := by
  induction m with
  | nil => intro lo _; rfl
  | cons p r ih =>
    intro lo w
    obtain ⟨k, v⟩ := p
    simp only [mwfFrom, Bool.and_eq_true, decide_eq_true_eq] at w
    cases g : f (k, v)
    · rw [List.filter_cons_of_neg (by simp [g])]; exact mwfFrom_mono _ _ _ (by omega) (ih _ w.2)
    · rw [List.filter_cons_of_pos g]; simp only [mwfFrom, Bool.and_eq_true, decide_eq_true_eq]; exact ⟨w.1, ih _ w.2⟩

theorem mwfFrom_mins (m : Memory) (a : Nat) (b : Byte) (hb : b ≠ 0) : ∀ lo, lo ≤ a → mwfFrom lo m = true → mwfFrom lo (mins m a b) = true := by
  induction m with
  | nil => intro lo h _; simp [mins, mwfFrom, h]; exact hb
  | cons p r ih =>
    intro lo h w
    obtain ⟨k, v⟩ := p
    simp only [mwfFrom, Bool.and_eq_true, decide_eq_true_eq, bne_iff_ne, ne_eq] at w
    unfold mins
    split
    · simp only [mwfFrom, Bool.and_eq_true, decide_eq_true_eq, bne_iff_ne, ne_eq]; exact ⟨⟨h, hb⟩, ⟨by omega, w.1.2⟩, w.2⟩
    · split
      · rename_i e; subst e
        simp only [mwfFrom, Bool.and_eq_true, decide_eq_true_eq, bne_iff_ne, ne_eq]; exact ⟨⟨h, hb⟩, w.2⟩
      · simp only [mwfFrom, Bool.and_eq_true, decide_eq_true_eq, bne_iff_ne, ne_eq]
        exact ⟨w.1, ih _ (by omega) w.2⟩

/-- Writing a byte keeps the canonical form. -/
theorem mput_wf (m : Memory) (a : Nat) (b : Byte) (w : m.wf = true) : (mput m a b).wf = true := by
  unfold mput
  split
  · exact mwfFrom_filter _ _ _ w
  · rename_i h; exact mwfFrom_mins _ _ _ h _ (Nat.zero_le _) w

/-- Writing a run of bytes keeps the canonical form. -/
theorem mwrite_wf (bs : List Byte) : ∀ (m : Memory) (a : Nat), m.wf = true → (mwrite m a bs).wf = true := by
  induction bs with
  | nil => intro m a w; exact w
  | cons b r ih => intro m a w; exact ih _ _ (mput_wf _ _ _ w)

/-- Wiping bytes keeps the canonical form. -/
theorem filter_wf (m : Memory) (f : Nat × Byte → Bool) (w : m.wf = true) : Memory.wf (m.filter f) = true := mwfFrom_filter _ _ _ w

/-- In canonical form a byte is listed just where it is not 0. -/
theorem mget_below (m : Memory) (lo a : Nat) (w : mwfFrom lo m = true) (h : a < lo) : mget m a = 0 := by
  induction m generalizing lo with
  | nil => rfl
  | cons p r ih =>
    obtain ⟨k, v⟩ := p
    simp only [mwfFrom, Bool.and_eq_true, decide_eq_true_eq] at w
    have : ¬k = a := by omega
    simp only [mget, this, if_false]
    exact ih _ w.2 (by omega)

/-- Equal memories are equal data. -/
theorem mem_ext (m : Memory) : ∀ (m' : Memory) (lo : Nat), mwfFrom lo m = true → mwfFrom lo m' = true → (∀ a, mget m a = mget m' a) → m = m' := by
  induction m with
  | nil =>
    intro m' lo _ w' h
    cases m' with
    | nil => rfl
    | cons p r =>
      obtain ⟨k, v⟩ := p
      have := h k
      simp only [mwfFrom, Bool.and_eq_true, bne_iff_ne, ne_eq] at w'
      simp [mget] at this; exact absurd this.symm w'.1.2
  | cons p r ih =>
    intro m' lo w w' h
    obtain ⟨k, v⟩ := p
    simp only [mwfFrom, Bool.and_eq_true, decide_eq_true_eq, bne_iff_ne, ne_eq] at w
    cases m' with
    | nil => have := h k; simp [mget] at this; exact absurd this w.1.2
    | cons q r' =>
      obtain ⟨k', v'⟩ := q
      simp only [mwfFrom, Bool.and_eq_true, decide_eq_true_eq, bne_iff_ne, ne_eq] at w'
      have hk : k = k' := by
        rcases Nat.lt_trichotomy k k' with l | e | l
        · have := h k
          rw [show mget ((k', v') :: r') k = 0 by simp only [mget, show ¬k' = k by omega, if_false]; exact mget_below _ _ _ w'.2 (by omega)] at this
          simp [mget] at this; exact absurd this w.1.2
        · exact e
        · have := h k'
          rw [show mget ((k, v) :: r) k' = 0 by simp only [mget, show ¬k = k' by omega, if_false]; exact mget_below _ _ _ w.2 (by omega)] at this
          simp [mget] at this; exact absurd this.symm w'.1.2
      subst hk
      have hv : v = v' := by have := h k; simpa [mget] using this
      subst hv
      rw [ih r' (k + 1) w.2 w'.2 (fun a => by
        by_cases e : k = a
        · subst e; rw [mget_below _ _ _ w.2 (by omega), mget_below _ _ _ w'.2 (by omega)]
        · have := h a; simpa [mget, e] using this)]

end Sys2Proof.Machine
end

