-- ==== Sys2Proof/Laws/State.lean ====
section
/-! SUPPORT. One lemma per field of the state and per update of it, and reading back what has been written. -/

namespace Sys2Proof.Machine

/-! Fields after an update of the state -/

@[simp] theorem State.draw_mg (s : State) : (s.draw.2).mg = s.mg := rfl
@[simp] theorem State.draw_hs (s : State) : (s.draw.2).hs = s.hs := rfl
@[simp] theorem State.draw_ms (s : State) : (s.draw.2).ms = s.ms := rfl
@[simp] theorem State.draw_fb (s : State) : (s.draw.2).fb = s.fb := rfl
@[simp] theorem State.draw_slots (s : State) : (s.draw.2).slots = s.slots := rfl
@[simp] theorem State.draw_wk (s : State) : (s.draw.2).wk = s.wk := rfl
@[simp] theorem State.draw_focus (s : State) : (s.draw.2).focus = s.focus := rfl
@[simp] theorem State.draw_agenda (s : State) : (s.draw.2).agenda = s.agenda := rfl
@[simp] theorem State.draw_time (s : State) : (s.draw.2).time = s.time := rfl
@[simp] theorem State.draw_freeCount (s : State) : (s.draw.2).freeCount = s.freeCount + 1 := rfl
@[simp] theorem State.draw_nextOp (s : State) : (s.draw.2).nextOp = s.nextOp := rfl
@[simp] theorem State.draw_hostData (s : State) : (s.draw.2).hostData = s.hostData := rfl
@[simp] theorem State.draw_msis (s : State) : (s.draw.2).msis = s.msis := rfl
@[simp] theorem State.putFn_mg (s : State) (n : Nat) (f : Fn) : (s.putFn n f).mg = s.mg := rfl
@[simp] theorem State.putFn_hs (s : State) (n : Nat) (f : Fn) : (s.putFn n f).hs = { s.hs with fns := tset s.hs.fns n f } := rfl
@[simp] theorem State.putFn_ms (s : State) (n : Nat) (f : Fn) : (s.putFn n f).ms = s.ms := rfl
@[simp] theorem State.putFn_fb (s : State) (n : Nat) (f : Fn) : (s.putFn n f).fb = s.fb := rfl
@[simp] theorem State.putFn_slots (s : State) (n : Nat) (f : Fn) : (s.putFn n f).slots = s.slots := rfl
@[simp] theorem State.putFn_wk (s : State) (n : Nat) (f : Fn) : (s.putFn n f).wk = s.wk := rfl
@[simp] theorem State.putFn_focus (s : State) (n : Nat) (f : Fn) : (s.putFn n f).focus = s.focus := rfl
@[simp] theorem State.putFn_agenda (s : State) (n : Nat) (f : Fn) : (s.putFn n f).agenda = s.agenda := rfl
@[simp] theorem State.putFn_time (s : State) (n : Nat) (f : Fn) : (s.putFn n f).time = s.time := rfl
@[simp] theorem State.putFn_freeCount (s : State) (n : Nat) (f : Fn) : (s.putFn n f).freeCount = s.freeCount := rfl
@[simp] theorem State.putFn_nextOp (s : State) (n : Nat) (f : Fn) : (s.putFn n f).nextOp = s.nextOp := rfl
@[simp] theorem State.putFn_hostData (s : State) (n : Nat) (f : Fn) : (s.putFn n f).hostData = s.hostData := rfl
@[simp] theorem State.putFn_msis (s : State) (n : Nat) (f : Fn) : (s.putFn n f).msis = s.msis := rfl
@[simp] theorem State.msi_mg (s : State) (n v : Nat) : (s.msi n v).mg = s.mg := rfl
@[simp] theorem State.msi_hs (s : State) (n v : Nat) : (s.msi n v).hs = s.hs := rfl
@[simp] theorem State.msi_ms (s : State) (n v : Nat) : (s.msi n v).ms = s.ms := rfl
@[simp] theorem State.msi_fb (s : State) (n v : Nat) : (s.msi n v).fb = s.fb := rfl
@[simp] theorem State.msi_slots (s : State) (n v : Nat) : (s.msi n v).slots = s.slots := rfl
@[simp] theorem State.msi_wk (s : State) (n v : Nat) : (s.msi n v).wk = s.wk := rfl
@[simp] theorem State.msi_focus (s : State) (n v : Nat) : (s.msi n v).focus = s.focus := rfl
@[simp] theorem State.msi_agenda (s : State) (n v : Nat) : (s.msi n v).agenda = s.agenda := rfl
@[simp] theorem State.msi_time (s : State) (n v : Nat) : (s.msi n v).time = s.time := rfl
@[simp] theorem State.msi_freeCount (s : State) (n v : Nat) : (s.msi n v).freeCount = s.freeCount := rfl
@[simp] theorem State.msi_nextOp (s : State) (n v : Nat) : (s.msi n v).nextOp = s.nextOp := rfl
@[simp] theorem State.msi_hostData (s : State) (n v : Nat) : (s.msi n v).hostData = s.hostData := rfl
@[simp] theorem State.msi_msis (s : State) (n v : Nat) : (s.msi n v).msis = s.msis ++ [(n, v)] := rfl
@[simp] theorem State.hostWrite_mg (s : State) (a : Nat) (b : List Byte) : (s.hostWrite a b).mg = s.mg := rfl
@[simp] theorem State.hostWrite_hs (s : State) (a : Nat) (b : List Byte) : (s.hostWrite a b).hs = s.hs := rfl
@[simp] theorem State.hostWrite_ms (s : State) (a : Nat) (b : List Byte) : (s.hostWrite a b).ms = { s.ms with host := mwrite s.ms.host a b } := rfl
@[simp] theorem State.hostWrite_fb (s : State) (a : Nat) (b : List Byte) : (s.hostWrite a b).fb = s.fb := rfl
@[simp] theorem State.hostWrite_slots (s : State) (a : Nat) (b : List Byte) : (s.hostWrite a b).slots = s.slots := rfl
@[simp] theorem State.hostWrite_wk (s : State) (a : Nat) (b : List Byte) : (s.hostWrite a b).wk = s.wk := rfl
@[simp] theorem State.hostWrite_focus (s : State) (a : Nat) (b : List Byte) : (s.hostWrite a b).focus = s.focus := rfl
@[simp] theorem State.hostWrite_agenda (s : State) (a : Nat) (b : List Byte) : (s.hostWrite a b).agenda = s.agenda := rfl
@[simp] theorem State.hostWrite_time (s : State) (a : Nat) (b : List Byte) : (s.hostWrite a b).time = s.time := rfl
@[simp] theorem State.hostWrite_freeCount (s : State) (a : Nat) (b : List Byte) : (s.hostWrite a b).freeCount = s.freeCount := rfl
@[simp] theorem State.hostWrite_nextOp (s : State) (a : Nat) (b : List Byte) : (s.hostWrite a b).nextOp = s.nextOp := rfl
@[simp] theorem State.hostWrite_hostData (s : State) (a : Nat) (b : List Byte) : (s.hostWrite a b).hostData = s.hostData := rfl
@[simp] theorem State.hostWrite_msis (s : State) (a : Nat) (b : List Byte) : (s.hostWrite a b).msis = s.msis := rfl
@[simp] theorem State.putSlot_mg (s : State) (i : Nat) (x : Slot) : (s.putSlot i x).mg = s.mg := rfl
@[simp] theorem State.putSlot_hs (s : State) (i : Nat) (x : Slot) : (s.putSlot i x).hs = s.hs := rfl
@[simp] theorem State.putSlot_ms (s : State) (i : Nat) (x : Slot) : (s.putSlot i x).ms = s.ms := rfl
@[simp] theorem State.putSlot_fb (s : State) (i : Nat) (x : Slot) : (s.putSlot i x).fb = s.fb := rfl
@[simp] theorem State.putSlot_slots (s : State) (i : Nat) (x : Slot) : (s.putSlot i x).slots = tset s.slots i x := rfl
@[simp] theorem State.putSlot_wk (s : State) (i : Nat) (x : Slot) : (s.putSlot i x).wk = s.wk := rfl
@[simp] theorem State.putSlot_focus (s : State) (i : Nat) (x : Slot) : (s.putSlot i x).focus = s.focus := rfl
@[simp] theorem State.putSlot_agenda (s : State) (i : Nat) (x : Slot) : (s.putSlot i x).agenda = s.agenda := rfl
@[simp] theorem State.putSlot_time (s : State) (i : Nat) (x : Slot) : (s.putSlot i x).time = s.time := rfl
@[simp] theorem State.putSlot_freeCount (s : State) (i : Nat) (x : Slot) : (s.putSlot i x).freeCount = s.freeCount := rfl
@[simp] theorem State.putSlot_nextOp (s : State) (i : Nat) (x : Slot) : (s.putSlot i x).nextOp = s.nextOp := rfl
@[simp] theorem State.putSlot_hostData (s : State) (i : Nat) (x : Slot) : (s.putSlot i x).hostData = s.hostData := rfl
@[simp] theorem State.putSlot_msis (s : State) (i : Nat) (x : Slot) : (s.putSlot i x).msis = s.msis := rfl
@[simp] theorem State.putRegion_mg (s : State) (i : Nat) (r : Region) : (s.putRegion i r).mg = s.mg := rfl
@[simp] theorem State.putRegion_hs (s : State) (i : Nat) (r : Region) : (s.putRegion i r).hs = s.hs := rfl
@[simp] theorem State.putRegion_ms (s : State) (i : Nat) (r : Region) : (s.putRegion i r).ms = s.ms := rfl
@[simp] theorem State.putRegion_fb (s : State) (i : Nat) (r : Region) : (s.putRegion i r).fb = s.fb := rfl
@[simp] theorem State.putRegion_slots (s : State) (i : Nat) (r : Region) : (s.putRegion i r).slots = tset s.slots i { s.slot i with region := some r } := rfl
@[simp] theorem State.putRegion_wk (s : State) (i : Nat) (r : Region) : (s.putRegion i r).wk = s.wk := rfl
@[simp] theorem State.putRegion_focus (s : State) (i : Nat) (r : Region) : (s.putRegion i r).focus = s.focus := rfl
@[simp] theorem State.putRegion_agenda (s : State) (i : Nat) (r : Region) : (s.putRegion i r).agenda = s.agenda := rfl
@[simp] theorem State.putRegion_time (s : State) (i : Nat) (r : Region) : (s.putRegion i r).time = s.time := rfl
@[simp] theorem State.putRegion_freeCount (s : State) (i : Nat) (r : Region) : (s.putRegion i r).freeCount = s.freeCount := rfl
@[simp] theorem State.putRegion_nextOp (s : State) (i : Nat) (r : Region) : (s.putRegion i r).nextOp = s.nextOp := rfl
@[simp] theorem State.putRegion_hostData (s : State) (i : Nat) (r : Region) : (s.putRegion i r).hostData = s.hostData := rfl
@[simp] theorem State.putRegion_msis (s : State) (i : Nat) (r : Region) : (s.putRegion i r).msis = s.msis := rfl
@[simp] theorem State.onRegion_mg (s : State) (i : Nat) (f : Region → Region) : (s.onRegion i f).mg = s.mg := by unfold State.onRegion; split <;> rfl
@[simp] theorem State.onRegion_hs (s : State) (i : Nat) (f : Region → Region) : (s.onRegion i f).hs = s.hs := by unfold State.onRegion; split <;> rfl
@[simp] theorem State.onRegion_ms (s : State) (i : Nat) (f : Region → Region) : (s.onRegion i f).ms = s.ms := by unfold State.onRegion; split <;> rfl
@[simp] theorem State.onRegion_fb (s : State) (i : Nat) (f : Region → Region) : (s.onRegion i f).fb = s.fb := by unfold State.onRegion; split <;> rfl
@[simp] theorem State.onRegion_wk (s : State) (i : Nat) (f : Region → Region) : (s.onRegion i f).wk = s.wk := by unfold State.onRegion; split <;> rfl
@[simp] theorem State.onRegion_focus (s : State) (i : Nat) (f : Region → Region) : (s.onRegion i f).focus = s.focus := by unfold State.onRegion; split <;> rfl
@[simp] theorem State.onRegion_agenda (s : State) (i : Nat) (f : Region → Region) : (s.onRegion i f).agenda = s.agenda := by unfold State.onRegion; split <;> rfl
@[simp] theorem State.onRegion_time (s : State) (i : Nat) (f : Region → Region) : (s.onRegion i f).time = s.time := by unfold State.onRegion; split <;> rfl
@[simp] theorem State.onRegion_freeCount (s : State) (i : Nat) (f : Region → Region) : (s.onRegion i f).freeCount = s.freeCount := by unfold State.onRegion; split <;> rfl
@[simp] theorem State.onRegion_nextOp (s : State) (i : Nat) (f : Region → Region) : (s.onRegion i f).nextOp = s.nextOp := by unfold State.onRegion; split <;> rfl
@[simp] theorem State.onRegion_hostData (s : State) (i : Nat) (f : Region → Region) : (s.onRegion i f).hostData = s.hostData := by unfold State.onRegion; split <;> rfl
@[simp] theorem State.onRegion_msis (s : State) (i : Nat) (f : Region → Region) : (s.onRegion i f).msis = s.msis := by unfold State.onRegion; split <;> rfl
@[simp] theorem State.putThread_mg (s : State) (i c h : Nat) (t : Thread) : (s.putThread i c h t).mg = s.mg := by simp [State.putThread]
@[simp] theorem State.putThread_hs (s : State) (i c h : Nat) (t : Thread) : (s.putThread i c h t).hs = s.hs := by simp [State.putThread]
@[simp] theorem State.putThread_ms (s : State) (i c h : Nat) (t : Thread) : (s.putThread i c h t).ms = s.ms := by simp [State.putThread]
@[simp] theorem State.putThread_fb (s : State) (i c h : Nat) (t : Thread) : (s.putThread i c h t).fb = s.fb := by simp [State.putThread]
@[simp] theorem State.putThread_wk (s : State) (i c h : Nat) (t : Thread) : (s.putThread i c h t).wk = s.wk := by simp [State.putThread]
@[simp] theorem State.putThread_focus (s : State) (i c h : Nat) (t : Thread) : (s.putThread i c h t).focus = s.focus := by simp [State.putThread]
@[simp] theorem State.putThread_agenda (s : State) (i c h : Nat) (t : Thread) : (s.putThread i c h t).agenda = s.agenda := by simp [State.putThread]
@[simp] theorem State.putThread_time (s : State) (i c h : Nat) (t : Thread) : (s.putThread i c h t).time = s.time := by simp [State.putThread]
@[simp] theorem State.putThread_freeCount (s : State) (i c h : Nat) (t : Thread) : (s.putThread i c h t).freeCount = s.freeCount := by simp [State.putThread]
@[simp] theorem State.putThread_nextOp (s : State) (i c h : Nat) (t : Thread) : (s.putThread i c h t).nextOp = s.nextOp := by simp [State.putThread]
@[simp] theorem State.putThread_hostData (s : State) (i c h : Nat) (t : Thread) : (s.putThread i c h t).hostData = s.hostData := by simp [State.putThread]
@[simp] theorem State.putThread_msis (s : State) (i c h : Nat) (t : Thread) : (s.putThread i c h t).msis = s.msis := by simp [State.putThread]
@[simp] theorem State.withMs_mg (s : State) (f : MemSys → MemSys) : (s.withMs f).mg = s.mg := rfl
@[simp] theorem State.withMs_hs (s : State) (f : MemSys → MemSys) : (s.withMs f).hs = s.hs := rfl
@[simp] theorem State.withMs_ms (s : State) (f : MemSys → MemSys) : (s.withMs f).ms = f s.ms := rfl
@[simp] theorem State.withMs_fb (s : State) (f : MemSys → MemSys) : (s.withMs f).fb = s.fb := rfl
@[simp] theorem State.withMs_slots (s : State) (f : MemSys → MemSys) : (s.withMs f).slots = s.slots := rfl
@[simp] theorem State.withMs_wk (s : State) (f : MemSys → MemSys) : (s.withMs f).wk = s.wk := rfl
@[simp] theorem State.withMs_focus (s : State) (f : MemSys → MemSys) : (s.withMs f).focus = s.focus := rfl
@[simp] theorem State.withMs_agenda (s : State) (f : MemSys → MemSys) : (s.withMs f).agenda = s.agenda := rfl
@[simp] theorem State.withMs_time (s : State) (f : MemSys → MemSys) : (s.withMs f).time = s.time := rfl
@[simp] theorem State.withMs_freeCount (s : State) (f : MemSys → MemSys) : (s.withMs f).freeCount = s.freeCount := rfl
@[simp] theorem State.withMs_nextOp (s : State) (f : MemSys → MemSys) : (s.withMs f).nextOp = s.nextOp := rfl
@[simp] theorem State.withMs_hostData (s : State) (f : MemSys → MemSys) : (s.withMs f).hostData = s.hostData := rfl
@[simp] theorem State.withMs_msis (s : State) (f : MemSys → MemSys) : (s.withMs f).msis = s.msis := rfl
@[simp] theorem State.withFb_mg (s : State) (f : Fabric → Fabric) : (s.withFb f).mg = s.mg := rfl
@[simp] theorem State.withFb_hs (s : State) (f : Fabric → Fabric) : (s.withFb f).hs = s.hs := rfl
@[simp] theorem State.withFb_ms (s : State) (f : Fabric → Fabric) : (s.withFb f).ms = s.ms := rfl
@[simp] theorem State.withFb_fb (s : State) (f : Fabric → Fabric) : (s.withFb f).fb = f s.fb := rfl
@[simp] theorem State.withFb_slots (s : State) (f : Fabric → Fabric) : (s.withFb f).slots = s.slots := rfl
@[simp] theorem State.withFb_wk (s : State) (f : Fabric → Fabric) : (s.withFb f).wk = s.wk := rfl
@[simp] theorem State.withFb_focus (s : State) (f : Fabric → Fabric) : (s.withFb f).focus = s.focus := rfl
@[simp] theorem State.withFb_agenda (s : State) (f : Fabric → Fabric) : (s.withFb f).agenda = s.agenda := rfl
@[simp] theorem State.withFb_time (s : State) (f : Fabric → Fabric) : (s.withFb f).time = s.time := rfl
@[simp] theorem State.withFb_freeCount (s : State) (f : Fabric → Fabric) : (s.withFb f).freeCount = s.freeCount := rfl
@[simp] theorem State.withFb_nextOp (s : State) (f : Fabric → Fabric) : (s.withFb f).nextOp = s.nextOp := rfl
@[simp] theorem State.withFb_hostData (s : State) (f : Fabric → Fabric) : (s.withFb f).hostData = s.hostData := rfl
@[simp] theorem State.withFb_msis (s : State) (f : Fabric → Fabric) : (s.withFb f).msis = s.msis := rfl
@[simp] theorem State.onMg_mg (s : State) (f : Mgmt → Mgmt) : (s.onMg f).mg = f s.mg := rfl
@[simp] theorem State.onMg_hs (s : State) (f : Mgmt → Mgmt) : (s.onMg f).hs = s.hs := rfl
@[simp] theorem State.onMg_ms (s : State) (f : Mgmt → Mgmt) : (s.onMg f).ms = s.ms := rfl
@[simp] theorem State.onMg_fb (s : State) (f : Mgmt → Mgmt) : (s.onMg f).fb = s.fb := rfl
@[simp] theorem State.onMg_slots (s : State) (f : Mgmt → Mgmt) : (s.onMg f).slots = s.slots := rfl
@[simp] theorem State.onMg_wk (s : State) (f : Mgmt → Mgmt) : (s.onMg f).wk = s.wk := rfl
@[simp] theorem State.onMg_focus (s : State) (f : Mgmt → Mgmt) : (s.onMg f).focus = s.focus := rfl
@[simp] theorem State.onMg_agenda (s : State) (f : Mgmt → Mgmt) : (s.onMg f).agenda = s.agenda := rfl
@[simp] theorem State.onMg_time (s : State) (f : Mgmt → Mgmt) : (s.onMg f).time = s.time := rfl
@[simp] theorem State.onMg_freeCount (s : State) (f : Mgmt → Mgmt) : (s.onMg f).freeCount = s.freeCount := rfl
@[simp] theorem State.onMg_nextOp (s : State) (f : Mgmt → Mgmt) : (s.onMg f).nextOp = s.nextOp := rfl
@[simp] theorem State.onMg_hostData (s : State) (f : Mgmt → Mgmt) : (s.onMg f).hostData = s.hostData := rfl
@[simp] theorem State.onMg_msis (s : State) (f : Mgmt → Mgmt) : (s.onMg f).msis = s.msis := rfl
@[simp] theorem State.putUnit_mg (s : State) (u : Nat) (x : Xunit) : (s.putUnit u x).mg = s.mg := rfl
@[simp] theorem State.putUnit_hs (s : State) (u : Nat) (x : Xunit) : (s.putUnit u x).hs = s.hs := rfl
@[simp] theorem State.putUnit_ms (s : State) (u : Nat) (x : Xunit) : (s.putUnit u x).ms = { s.ms with units := tset s.ms.units u x } := rfl
@[simp] theorem State.putUnit_fb (s : State) (u : Nat) (x : Xunit) : (s.putUnit u x).fb = s.fb := rfl
@[simp] theorem State.putUnit_slots (s : State) (u : Nat) (x : Xunit) : (s.putUnit u x).slots = s.slots := rfl
@[simp] theorem State.putUnit_wk (s : State) (u : Nat) (x : Xunit) : (s.putUnit u x).wk = s.wk := rfl
@[simp] theorem State.putUnit_focus (s : State) (u : Nat) (x : Xunit) : (s.putUnit u x).focus = s.focus := rfl
@[simp] theorem State.putUnit_agenda (s : State) (u : Nat) (x : Xunit) : (s.putUnit u x).agenda = s.agenda := rfl
@[simp] theorem State.putUnit_time (s : State) (u : Nat) (x : Xunit) : (s.putUnit u x).time = s.time := rfl
@[simp] theorem State.putUnit_freeCount (s : State) (u : Nat) (x : Xunit) : (s.putUnit u x).freeCount = s.freeCount := rfl
@[simp] theorem State.putUnit_nextOp (s : State) (u : Nat) (x : Xunit) : (s.putUnit u x).nextOp = s.nextOp := rfl
@[simp] theorem State.putUnit_hostData (s : State) (u : Nat) (x : Xunit) : (s.putUnit u x).hostData = s.hostData := rfl
@[simp] theorem State.putUnit_msis (s : State) (u : Nat) (x : Xunit) : (s.putUnit u x).msis = s.msis := rfl
@[simp] theorem State.putOp_mg (s : State) (o : Op) : (s.putOp o).mg = s.mg := rfl
@[simp] theorem State.putOp_hs (s : State) (o : Op) : (s.putOp o).hs = s.hs := rfl
@[simp] theorem State.putOp_fb (s : State) (o : Op) : (s.putOp o).fb = s.fb := rfl
@[simp] theorem State.putOp_slots (s : State) (o : Op) : (s.putOp o).slots = s.slots := rfl
@[simp] theorem State.putOp_wk (s : State) (o : Op) : (s.putOp o).wk = s.wk := rfl
@[simp] theorem State.putOp_focus (s : State) (o : Op) : (s.putOp o).focus = s.focus := rfl
@[simp] theorem State.putOp_agenda (s : State) (o : Op) : (s.putOp o).agenda = s.agenda := rfl
@[simp] theorem State.putOp_time (s : State) (o : Op) : (s.putOp o).time = s.time := rfl
@[simp] theorem State.putOp_freeCount (s : State) (o : Op) : (s.putOp o).freeCount = s.freeCount := rfl
@[simp] theorem State.putOp_nextOp (s : State) (o : Op) : (s.putOp o).nextOp = s.nextOp := rfl
@[simp] theorem State.putOp_hostData (s : State) (o : Op) : (s.putOp o).hostData = s.hostData := rfl
@[simp] theorem State.putOp_msis (s : State) (o : Op) : (s.putOp o).msis = s.msis := rfl
@[simp] theorem State.putGather_mg (s : State) (e : Nat) (g : Gather) : (s.putGather e g).mg = s.mg := rfl
@[simp] theorem State.putGather_hs (s : State) (e : Nat) (g : Gather) : (s.putGather e g).hs = s.hs := rfl
@[simp] theorem State.putGather_ms (s : State) (e : Nat) (g : Gather) : (s.putGather e g).ms = { s.ms with gather := tset s.ms.gather e g } := rfl
@[simp] theorem State.putGather_fb (s : State) (e : Nat) (g : Gather) : (s.putGather e g).fb = s.fb := rfl
@[simp] theorem State.putGather_slots (s : State) (e : Nat) (g : Gather) : (s.putGather e g).slots = s.slots := rfl
@[simp] theorem State.putGather_wk (s : State) (e : Nat) (g : Gather) : (s.putGather e g).wk = s.wk := rfl
@[simp] theorem State.putGather_focus (s : State) (e : Nat) (g : Gather) : (s.putGather e g).focus = s.focus := rfl
@[simp] theorem State.putGather_agenda (s : State) (e : Nat) (g : Gather) : (s.putGather e g).agenda = s.agenda := rfl
@[simp] theorem State.putGather_time (s : State) (e : Nat) (g : Gather) : (s.putGather e g).time = s.time := rfl
@[simp] theorem State.putGather_freeCount (s : State) (e : Nat) (g : Gather) : (s.putGather e g).freeCount = s.freeCount := rfl
@[simp] theorem State.putGather_nextOp (s : State) (e : Nat) (g : Gather) : (s.putGather e g).nextOp = s.nextOp := rfl
@[simp] theorem State.putGather_hostData (s : State) (e : Nat) (g : Gather) : (s.putGather e g).hostData = s.hostData := rfl
@[simp] theorem State.putGather_msis (s : State) (e : Nat) (g : Gather) : (s.putGather e g).msis = s.msis := rfl
@[simp] theorem State.record_mg (s : State) (ten slot elem ctx colour : Nat) (fi : FaultInfo) : (s.record ten slot elem ctx colour fi).mg = s.mg := by unfold State.record; simp only []; (repeat' split) <;> simp
@[simp] theorem State.record_fb (s : State) (ten slot elem ctx colour : Nat) (fi : FaultInfo) : (s.record ten slot elem ctx colour fi).fb = s.fb := by unfold State.record; simp only []; (repeat' split) <;> simp
@[simp] theorem State.record_slots (s : State) (ten slot elem ctx colour : Nat) (fi : FaultInfo) : (s.record ten slot elem ctx colour fi).slots = s.slots := by unfold State.record; simp only []; (repeat' split) <;> simp
@[simp] theorem State.record_wk (s : State) (ten slot elem ctx colour : Nat) (fi : FaultInfo) : (s.record ten slot elem ctx colour fi).wk = s.wk := by unfold State.record; simp only []; (repeat' split) <;> simp
@[simp] theorem State.record_focus (s : State) (ten slot elem ctx colour : Nat) (fi : FaultInfo) : (s.record ten slot elem ctx colour fi).focus = s.focus := by unfold State.record; simp only []; (repeat' split) <;> simp
@[simp] theorem State.record_agenda (s : State) (ten slot elem ctx colour : Nat) (fi : FaultInfo) : (s.record ten slot elem ctx colour fi).agenda = s.agenda := by unfold State.record; simp only []; (repeat' split) <;> simp
@[simp] theorem State.record_time (s : State) (ten slot elem ctx colour : Nat) (fi : FaultInfo) : (s.record ten slot elem ctx colour fi).time = s.time := by unfold State.record; simp only []; (repeat' split) <;> simp
@[simp] theorem State.record_freeCount (s : State) (ten slot elem ctx colour : Nat) (fi : FaultInfo) : (s.record ten slot elem ctx colour fi).freeCount = s.freeCount := by unfold State.record; simp only []; (repeat' split) <;> simp
@[simp] theorem State.record_nextOp (s : State) (ten slot elem ctx colour : Nat) (fi : FaultInfo) : (s.record ten slot elem ctx colour fi).nextOp = s.nextOp := by unfold State.record; simp only []; (repeat' split) <;> simp
@[simp] theorem State.record_hostData (s : State) (ten slot elem ctx colour : Nat) (fi : FaultInfo) : (s.record ten slot elem ctx colour fi).hostData = s.hostData := by unfold State.record; simp only []; (repeat' split) <;> simp
@[simp] theorem State.setTime_mg (s : State) (t : Nat) : (s.setTime t).mg = s.mg := rfl
@[simp] theorem State.setTime_hs (s : State) (t : Nat) : (s.setTime t).hs = s.hs := rfl
@[simp] theorem State.setTime_ms (s : State) (t : Nat) : (s.setTime t).ms = s.ms := rfl
@[simp] theorem State.setTime_fb (s : State) (t : Nat) : (s.setTime t).fb = s.fb := rfl
@[simp] theorem State.setTime_wk (s : State) (t : Nat) : (s.setTime t).wk = s.wk := rfl
@[simp] theorem State.setTime_focus (s : State) (t : Nat) : (s.setTime t).focus = s.focus := rfl
@[simp] theorem State.setTime_agenda (s : State) (t : Nat) : (s.setTime t).agenda = s.agenda := rfl
@[simp] theorem State.setTime_time (s : State) (t : Nat) : (s.setTime t).time = t := rfl
@[simp] theorem State.setTime_freeCount (s : State) (t : Nat) : (s.setTime t).freeCount = s.freeCount := rfl
@[simp] theorem State.setTime_nextOp (s : State) (t : Nat) : (s.setTime t).nextOp = s.nextOp := rfl
@[simp] theorem State.setTime_hostData (s : State) (t : Nat) : (s.setTime t).hostData = s.hostData := rfl
@[simp] theorem State.setTime_msis (s : State) (t : Nat) : (s.setTime t).msis = s.msis := rfl
@[simp] theorem State.focusThread_mg (s : State) (i c h : Nat) (w : W32) (b : Bool) : (s.focusThread i c h w b).mg = s.mg := rfl
@[simp] theorem State.focusThread_hs (s : State) (i c h : Nat) (w : W32) (b : Bool) : (s.focusThread i c h w b).hs = s.hs := rfl
@[simp] theorem State.focusThread_ms (s : State) (i c h : Nat) (w : W32) (b : Bool) : (s.focusThread i c h w b).ms = s.ms := rfl
@[simp] theorem State.focusThread_fb (s : State) (i c h : Nat) (w : W32) (b : Bool) : (s.focusThread i c h w b).fb = s.fb := rfl
@[simp] theorem State.focusThread_slots (s : State) (i c h : Nat) (w : W32) (b : Bool) : (s.focusThread i c h w b).slots = s.slots := rfl
@[simp] theorem State.focusThread_wk (s : State) (i c h : Nat) (w : W32) (b : Bool) : (s.focusThread i c h w b).wk = s.wk := rfl
@[simp] theorem State.focusThread_focus (s : State) (i c h : Nat) (w : W32) (b : Bool) : (s.focusThread i c h w b).focus = { s.focus with slot := i, core := c, thr := h, word := w, issue := b } := rfl
@[simp] theorem State.focusThread_agenda (s : State) (i c h : Nat) (w : W32) (b : Bool) : (s.focusThread i c h w b).agenda = s.agenda := rfl
@[simp] theorem State.focusThread_time (s : State) (i c h : Nat) (w : W32) (b : Bool) : (s.focusThread i c h w b).time = s.time := rfl
@[simp] theorem State.focusThread_freeCount (s : State) (i c h : Nat) (w : W32) (b : Bool) : (s.focusThread i c h w b).freeCount = s.freeCount := rfl
@[simp] theorem State.focusThread_nextOp (s : State) (i c h : Nat) (w : W32) (b : Bool) : (s.focusThread i c h w b).nextOp = s.nextOp := rfl
@[simp] theorem State.focusThread_hostData (s : State) (i c h : Nat) (w : W32) (b : Bool) : (s.focusThread i c h w b).hostData = s.hostData := rfl
@[simp] theorem State.focusThread_msis (s : State) (i c h : Nat) (w : W32) (b : Bool) : (s.focusThread i c h w b).msis = s.msis := rfl
@[simp] theorem State.focusUnit_mg (s : State) (i c e : Nat) (u : Nat × BitVec 12 × BitVec 8 × BitVec 5) : (s.focusUnit i c e u).mg = s.mg := rfl
@[simp] theorem State.focusUnit_hs (s : State) (i c e : Nat) (u : Nat × BitVec 12 × BitVec 8 × BitVec 5) : (s.focusUnit i c e u).hs = s.hs := rfl
@[simp] theorem State.focusUnit_ms (s : State) (i c e : Nat) (u : Nat × BitVec 12 × BitVec 8 × BitVec 5) : (s.focusUnit i c e u).ms = s.ms := rfl
@[simp] theorem State.focusUnit_fb (s : State) (i c e : Nat) (u : Nat × BitVec 12 × BitVec 8 × BitVec 5) : (s.focusUnit i c e u).fb = s.fb := rfl
@[simp] theorem State.focusUnit_slots (s : State) (i c e : Nat) (u : Nat × BitVec 12 × BitVec 8 × BitVec 5) : (s.focusUnit i c e u).slots = s.slots := rfl
@[simp] theorem State.focusUnit_wk (s : State) (i c e : Nat) (u : Nat × BitVec 12 × BitVec 8 × BitVec 5) : (s.focusUnit i c e u).wk = s.wk := rfl
@[simp] theorem State.focusUnit_agenda (s : State) (i c e : Nat) (u : Nat × BitVec 12 × BitVec 8 × BitVec 5) : (s.focusUnit i c e u).agenda = s.agenda := rfl
@[simp] theorem State.focusUnit_time (s : State) (i c e : Nat) (u : Nat × BitVec 12 × BitVec 8 × BitVec 5) : (s.focusUnit i c e u).time = s.time := rfl
@[simp] theorem State.focusUnit_freeCount (s : State) (i c e : Nat) (u : Nat × BitVec 12 × BitVec 8 × BitVec 5) : (s.focusUnit i c e u).freeCount = s.freeCount := rfl
@[simp] theorem State.focusUnit_nextOp (s : State) (i c e : Nat) (u : Nat × BitVec 12 × BitVec 8 × BitVec 5) : (s.focusUnit i c e u).nextOp = s.nextOp := rfl
@[simp] theorem State.focusUnit_hostData (s : State) (i c e : Nat) (u : Nat × BitVec 12 × BitVec 8 × BitVec 5) : (s.focusUnit i c e u).hostData = s.hostData := rfl
@[simp] theorem State.focusUnit_msis (s : State) (i c e : Nat) (u : Nat × BitVec 12 × BitVec 8 × BitVec 5) : (s.focusUnit i c e u).msis = s.msis := rfl
@[simp] theorem State.endClk_mg (s : State) (i c : Nat) : (s.endClk i c).mg = s.mg := by simp [State.endClk]
@[simp] theorem State.endClk_hs (s : State) (i c : Nat) : (s.endClk i c).hs = s.hs := by simp [State.endClk]
@[simp] theorem State.endClk_ms (s : State) (i c : Nat) : (s.endClk i c).ms = s.ms := by simp [State.endClk]
@[simp] theorem State.endClk_fb (s : State) (i c : Nat) : (s.endClk i c).fb = s.fb := by simp [State.endClk]
@[simp] theorem State.endClk_wk (s : State) (i c : Nat) : (s.endClk i c).wk = s.wk := by simp [State.endClk]
@[simp] theorem State.endClk_focus (s : State) (i c : Nat) : (s.endClk i c).focus = s.focus := by simp [State.endClk]
@[simp] theorem State.endClk_agenda (s : State) (i c : Nat) : (s.endClk i c).agenda = s.agenda := by simp [State.endClk]
@[simp] theorem State.endClk_time (s : State) (i c : Nat) : (s.endClk i c).time = s.time := by simp [State.endClk]
@[simp] theorem State.endClk_freeCount (s : State) (i c : Nat) : (s.endClk i c).freeCount = s.freeCount := by simp [State.endClk]
@[simp] theorem State.endClk_nextOp (s : State) (i c : Nat) : (s.endClk i c).nextOp = s.nextOp := by simp [State.endClk]
@[simp] theorem State.endClk_hostData (s : State) (i c : Nat) : (s.endClk i c).hostData = s.hostData := by simp [State.endClk]
@[simp] theorem State.endClk_msis (s : State) (i c : Nat) : (s.endClk i c).msis = s.msis := by simp [State.endClk]

/-! Slots, regions, cores, elements and threads read after they are written -/

@[simp] theorem State.slot_putSlot_same (s : State) (i : Nat) (x : Slot) : (s.putSlot i x).slot i = x := tget_tset_same _ _ _ _

theorem State.slot_putSlot (s : State) (i j : Nat) (x : Slot) : (s.putSlot i x).slot j = if j = i then x else s.slot j :=
  tget_tset _ _ _ _ _

/-- Every region after time has come to a ns. -/
theorem State.region_setTime (s : State) (t i : Nat) :
    (s.setTime t).region i = (s.region i).map (fun r => if s.countHeld i (r.atTime t) then (r.atTime t).restart else r.atTime t) := by
  have key : ∀ l : Table Slot, tget (l.map (fun p => (p.1, { p.2 with region := p.2.region.map (fun r =>
      if s.countHeld p.1 (r.atTime t) then (r.atTime t).restart else r.atTime t) }))) Slot.free i =
      { tget l Slot.free i with region := (tget l Slot.free i).region.map (fun r =>
        if s.countHeld i (r.atTime t) then (r.atTime t).restart else r.atTime t) } := by
    intro l
    induction l with
    | nil => rfl
    | cons p l ih =>
      obtain ⟨k, v⟩ := p
      by_cases g : k = i
      · subst g; simp [tget]
      · simp only [List.map_cons, tget, g, if_false]; exact ih
  exact congrArg Slot.region (key s.slots)

@[simp] theorem State.region_putRegion_same (s : State) (i : Nat) (r : Region) : (s.putRegion i r).region i = some r := by
  simp [State.region, State.putRegion]

/-- A written region is read back; every other slot's region is as before. -/
theorem State.region_putRegion (s : State) (i j : Nat) (r : Region) :
    (s.putRegion i r).region j = if j = i then some r else s.region j := by
  simp only [State.region, State.putRegion, State.slot_putSlot]; split <;> rfl

theorem State.slot_putRegion_ne (s : State) (i j : Nat) (r : Region) (h : j ≠ i) : (s.putRegion i r).slot j = s.slot j := by
  simp [State.putRegion, State.slot_putSlot, h]

theorem State.slot_onRegion_ne (s : State) (i j : Nat) (f : Region → Region) (h : j ≠ i) : (s.onRegion i f).slot j = s.slot j := by
  unfold State.onRegion; split
  · rfl
  · exact s.slot_putRegion_ne i j _ h

/-- A region changed in place: the slot's region is mapped, every other slot is as before. -/
theorem State.region_onRegion (s : State) (i j : Nat) (f : Region → Region) :
    (s.onRegion i f).region j = if j = i then (s.region i).map f else s.region j := by
  unfold State.onRegion
  cases h : s.region i with
  | none => simp only []; split
            · rename_i e; subst e; simp [h]
            · rfl
  | some r => rw [State.region_putRegion]; simp

@[simp] theorem Region.core_putCore_same (r : Region) (c : Nat) (x : Core) : (r.putCore c x).core c = x := tget_tset_same _ _ _ _

theorem Region.core_putCore (r : Region) (c d : Nat) (x : Core) : (r.putCore c x).core d = if d = c then x else r.core d :=
  tget_tset _ _ _ _ _

@[simp] theorem Core.thread_putThread_same (c : Core) (i : Nat) (t : Thread) : (c.putThread i t).thread i = t := by
  unfold Core.putThread Core.thread; exact tget_tset_same _ _ _ _

theorem Core.thread_putThread (c : Core) (i j : Nat) (t : Thread) : (c.putThread i t).thread j = if j = i then t else c.thread j := by
  unfold Core.putThread Core.thread
  rw [tget_tset]

@[simp] theorem Core.elem_putElem_same (c : Core) (e : Nat) (x : Elem) : (c.putElem e x).elem e = x := tget_tset_same _ _ _ _

theorem Core.elem_putElem (c : Core) (e f : Nat) (x : Elem) : (c.putElem e x).elem f = if f = e then x else c.elem f :=
  tget_tset _ _ _ _ _

@[simp] theorem Core.elem_putThread (c : Core) (i e : Nat) (t : Thread) : (c.putThread i t).elem e = c.elem e := rfl

@[simp] theorem Core.thread_putElem (c : Core) (i e : Nat) (x : Elem) : (c.putElem e x).thread i = c.thread i := rfl

@[simp] theorem Region.elem_putElem_same (r : Region) (c e : Nat) (x : Elem) : (r.putElem c e x).elem c e = x := by
  simp [Region.elem, Region.putElem]

/-- A written element is read back; every other element of the region is as before. -/
theorem Region.elem_putElem (r : Region) (c e d f : Nat) (x : Elem) :
    (r.putElem c e x).elem d f = if d = c ∧ f = e then x else r.elem d f := by
  simp only [Region.elem, Region.putElem, Region.core_putCore]
  by_cases h : d = c
  · subst h; simp [Core.elem_putElem]
  · simp [h]

/-- A written thread is read back; every other thread of the machine is as before. -/
theorem State.thread_putThread (s : State) (i c h i' c' h' : Nat) (t : Thread) (r : Region) (hr : s.region i = some r) :
    (s.putThread i c h t).thread i' c' h' = if i' = i ∧ c' = c ∧ h' = h then t else s.thread i' c' h' := by
  unfold State.thread State.putThread
  rw [State.region_onRegion]
  by_cases e : i' = i
  · subst e
    simp only [if_true, hr, Option.map_some, Region.core_putCore, true_and]
    by_cases e2 : c' = c
    · subst e2; simp [Core.thread_putThread]
    · simp [e2]
  · simp [e]

/-- A function written is read back; the others are as before. -/
theorem State.fn_putFn (s : State) (n m : Nat) (f : Fn) : (s.putFn n f).fn m = if m = n then f else s.fn m :=
  tget_tset _ _ _ _ _

/-! The focus's thread -/

/-- What `ccOf` answers: the thread of the focus, in its core and region. -/
theorem State.ccOf_some (s : State) (k : Cc) (h : s.ccOf = some k) :
    k.slot = s.focus.slot ∧ k.core = s.focus.core ∧ k.thr = s.focus.thr ∧ s.region k.slot = some k.r ∧ k.c = k.r.core k.core ∧
      k.t = k.c.thread k.thr ∧ s.thread k.slot k.core k.thr = k.t := by
  unfold State.ccOf at h
  split at h
  · cases h
  · rename_i r hr
    cases h
    exact ⟨rfl, rfl, rfl, hr, rfl, rfl, by simp [State.thread, hr]⟩

/-- A control-core meaning at a state with a focus. -/
theorem State.cc_eq (s : State) (k : Cc) (g : Cc → State) (h : s.ccOf = some k) : s.cc g = .next (g k) := by
  simp [State.cc, h]

/-- A synchronous trap of a thread that can enter its handler. -/
theorem State.trapAt_handler (s : State) (i c h code : Nat) (tv epc : Word) (r : Region) (hr : s.region i = some r)
    (hc : ((r.core c).thread h).canTrap = true) :
    s.trapAt i c h code tv epc = s.putThread i c h (((r.core c).thread h).trap code tv epc) := by
  simp [State.trapAt, hr, hc]

/-- A synchronous trap of a thread that cannot enter its handler. -/
theorem State.trapAt_halt (s : State) (i c h code : Nat) (tv epc : Word) (r : Region) (hr : s.region i = some r)
    (hc : ((r.core c).thread h).canTrap = false) :
    s.trapAt i c h code tv epc =
      (s.putThread i c h { (r.core c).thread h with st := .halt }).record r.ten i 0xFFFF 0 0 (FaultInfo.of 9 (0x100 + code)) := by
  simp [State.trapAt, hr, hc]

/-- The step of a control core's word that `exec` answers with a next state. -/
theorem thenOut_next (s : State) (f : State → Out) : thenOut (.next s) f = f s := rfl

/-! Memories keep their canonical form -/

/-- The canonical form of every memory of the memory system. -/
def MemSys.wf (m : MemSys) : Prop :=
  m.host.wf = true ∧ (∀ i, (tget m.hbm [] i).wf = true) ∧ ∀ i, (tget m.cxl [] i).wf = true

theorem MemSys.reset_wf : MemSys.reset.wf := ⟨rfl, fun _ => rfl, fun _ => rfl⟩

/-- The memory after reset is in canonical form. -/
theorem State.reset_wf : State.reset.ms.wf := MemSys.reset_wf

theorem State.hostWrite_wf (s : State) (a : Nat) (b : List Byte) (h : s.ms.wf) : (s.hostWrite a b).ms.wf :=
  ⟨mwrite_wf b _ a h.1, h.2.1, h.2.2⟩

/-- A write to a place in memory keeps the canonical form. -/
theorem State.locWrite_wf (s : State) (l : Loc) (b : List Byte) (h : s.ms.wf) : (s.locWrite l b).ms.wf := by
  cases l with
  | hbm st off =>
    refine ⟨h.1, fun i => ?_, h.2.2⟩
    simp only [State.locWrite, State.hbmWrite, State.withMs_ms, tget_tset]
    split
    · exact mwrite_wf _ _ _ (h.2.1 _)
    · exact h.2.1 i
  | cxl p off =>
    refine ⟨h.1, h.2.1, fun i => ?_⟩
    simp only [State.locWrite, State.withMs_ms, tget_tset]
    split
    · exact mwrite_wf _ _ _ (h.2.2 _)
    · exact h.2.2 i
  | host f a => exact s.hostWrite_wf a b h
  | peer d va => exact h

/-- A write to a stack, an expander or host memory is read back there. -/
theorem State.locRead_locWrite (s : State) (l : Loc) (b : List Byte) (h : ∀ d va, l ≠ .peer d va) :
    (s.locWrite l b).locRead l b.length = b := by
  cases l with
  | hbm st off => simp [State.locWrite, State.locRead, State.stack, State.hbmWrite, mread_mwrite]
  | cxl p off => simp [State.locWrite, State.locRead, mread_mwrite]
  | host f a => simp [State.locWrite, State.locRead, mread_mwrite]
  | peer d va => exact absurd rfl (h d va)

/-- A write to a stack leaves every byte outside it as it was. -/
theorem State.hbm_outside (s : State) (st off : Nat) (b : List Byte) (st' a : Nat) (h : st' ≠ st ∨ a < off ∨ off + b.length ≤ a) :
    (s.locWrite (.hbm st off) b).locRead (.hbm st' a) 1 = s.locRead (.hbm st' a) 1 := by
  simp only [State.locWrite, State.locRead, State.stack, State.hbmWrite, State.withMs_ms, tget_tset]
  split
  · rename_i e; subst e
    simp only [mread]
    rw [mget_mwrite_outside]
    rcases h with h | h
    · exact absurd rfl h
    · omega
  · rfl

end Sys2Proof.Machine
end

