-- ==== Sys2Proof/Tests/Slice0.lean ====
section
/-! SUPPORT. The model's own tests: ill-formed terms, words written out from the spec's encodings, single steps on small states, and the witnesses of the statements' hypotheses. -/

namespace Sys2Proof.Tests

set_option Elab.async false

open Sys2Proof Sys2Proof.Machine

/-! WellFormed refuses -/

/-- A header without destinations. -/
def hd (m : BitVec 2) : NodeHd := ⟨m, 0, ⟨3, 0, 0, 0⟩, ⟨3, 0, 0, 0⟩⟩

/-- An empty literal of format V. -/
def v0 : LitV := ⟨0, 0, 0, 0, 0⟩
/-- An empty literal of format M. -/
def m0 : LitM := ⟨0, 0, 0, 0⟩
/-- An empty literal of format P. -/
def p0 : LitP := ⟨0, 0, 0, 0, 0⟩

/-- R269: an atomic's SEM, SCOPE and SIZE; a plain atomic names core scope; a fence names an ordering; XFENCE a scope. -/
theorem test_wf_ordering :
    (Instr.amadd ⟨0, 0⟩ 1 2 3 5 1 2).wf = false ∧ (Instr.amswp ⟨0, 0⟩ 1 2 3 1 0 2).wf = false ∧ (Instr.amcas ⟨0, 0⟩ 1 2 3 1 6 2).wf = false ∧
    (Instr.ammax ⟨0, 0⟩ 1 2 3 1 1 1).wf = false ∧ (Instr.ammin ⟨0, 0⟩ 1 2 3 0 2 2).wf = false ∧ (Instr.fence ⟨0, 0⟩ 0 1).wf = false ∧
    (Instr.fence ⟨0, 0⟩ 5 1).wf = false ∧ (Instr.fence ⟨0, 0⟩ 1 7).wf = false ∧ (Instr.xfence ⟨0, 0⟩ 0 1 0).wf = false ∧
    (Instr.dlq ⟨0, 0⟩ 1 4 0).wf = false := by decide

/-- R260, R267: the match mode of each steering node, and the reserved bits of a destination with PORT 11. -/
theorem test_wf_node_header :
    (Instr.dup ⟨0, 0, ⟨3, 1, 0, 0⟩, ⟨3, 0, 0, 0⟩⟩).wf = false ∧ (Instr.dup ⟨0, 0, ⟨0, 0, 0, 0⟩, ⟨3, 0, 0, 1⟩⟩).wf = false ∧
    (Instr.steer (hd 0)).wf = false ∧ (Instr.select (hd 1)).wf = false ∧ (Instr.merge (hd 3)).wf = false ∧ (Instr.dup (hd 1)).wf = false ∧
    (Instr.sink (hd 2)).wf = false ∧ (Instr.cinc (hd 3)).wf = false ∧ (Instr.center (hd 2)).wf = false ∧ (Instr.cexit (hd 3)).wf = false ∧
    (Instr.loopn (hd 3) 0).wf = false ∧ (Instr.loopn (hd 1) 1).wf = false ∧ (Instr.invar (hd 1)).wf = false ∧ (Instr.purgen (hd 3)).wf = false ∧
    (Instr.gate (hd 0)).wf = false ∧ (Instr.join (hd 0)).wf = false ∧ (Instr.barv (hd 3) 0 0).wf = false ∧ (Instr.qpop (hd 1)).wf = false ∧
    (Instr.qtry (hd 1)).wf = false ∧ (Instr.eos (hd 1)).wf = false := by decide

/-- R267, R329 to R331: the match mode and the literal of each scalar node. -/
theorem test_wf_scalar_literal :
    (Instr.sadd (hd 1) 1).wf = false ∧ (Instr.ssub (hd 3) 0).wf = false ∧ (Instr.smul (hd 1) 1).wf = false ∧ (Instr.sand (hd 2) 0).wf = false ∧
    (Instr.sor (hd 1) 1).wf = false ∧ (Instr.sxor (hd 1) 1).wf = false ∧ (Instr.sshl (hd 1) 1).wf = false ∧ (Instr.sshr (hd 1) 1).wf = false ∧
    (Instr.ssra (hd 1) 1).wf = false ∧ (Instr.smin (hd 1) 1).wf = false ∧ (Instr.smax (hd 1) 1).wf = false ∧ (Instr.scmp (hd 0) 0).wf = false ∧
    (Instr.scmp (hd 1) 6).wf = false ∧ (Instr.ssel (hd 1)).wf = false ∧ (Instr.sconst (hd 1) 0).wf = false ∧ (Instr.skrd (hd 1) 0).wf = false ∧
    (Instr.sfadd (hd 1) 1).wf = false ∧ (Instr.sfmul (hd 1) 1).wf = false ∧ (Instr.scvt (hd 1) v0).wf = false ∧
    (Instr.scvt (hd 0) { v0 with rnd := 5 }).wf = false ∧ (Instr.scvt (hd 0) { v0 with kc := 1 }).wf = false ∧
    (Instr.scvt (hd 0) { v0 with md := 64 }).wf = false ∧ (Instr.scvt (hd 0) { v0 with md := 17 }).wf = false ∧
    (Instr.scvt (hd 0) { v0 with ofmt := 1, md := 32 }).wf = false := by decide

/-- R333 to R341: the match mode and the literal of each vector node. -/
theorem test_wf_vector_literal :
    (Instr.vadd (hd 0) v0).wf = false ∧ (Instr.vsub (hd 1) { v0 with rnd := 5 }).wf = false ∧ (Instr.vmul (hd 1) { v0 with kc := 1 }).wf = false ∧
    (Instr.vfma (hd 1) v0).wf = false ∧ (Instr.vmax (hd 1) { v0 with kd := 1 }).wf = false ∧ (Instr.vmin (hd 1) { v0 with md := 1 }).wf = false ∧
    (Instr.vabs (hd 1) v0).wf = false ∧ (Instr.vscl (hd 0) { v0 with md := 1 }).wf = false ∧ (Instr.vmov (hd 0) { v0 with kc := 1 }).wf = false ∧
    (Instr.vexp2 (hd 0) { v0 with kd := 1 }).wf = false ∧ (Instr.vlog2 (hd 0) { v0 with md := 1 }).wf = false ∧ (Instr.vrcp (hd 1) v0).wf = false ∧
    (Instr.vrsq (hd 1) v0).wf = false ∧ (Instr.vcvt (hd 0) { v0 with md := 16 }).wf = false ∧ (Instr.vbscale (hd 1) { v0 with md := 2 }).wf = false ∧
    (Instr.vquant (hd 0) { v0 with md := 3 }).wf = false ∧ (Instr.vquant (hd 1) { v0 with md := 0 }).wf = false ∧
    (Instr.vquant (hd 0) { v0 with md := 4 }).wf = false ∧ (Instr.vquant (hd 0) { v0 with ofmt := 3, md := 1 }).wf = false ∧
    (Instr.vrowmax (hd 1) v0).wf = false ∧ (Instr.vrowsum (hd 0) { v0 with md := 1 }).wf = false ∧ (Instr.vsmx (hd 0) { v0 with ofmt := 1 }).wf = false ∧
    (Instr.vsmx (hd 0) { v0 with md := 64 }).wf = false ∧ (Instr.vsmx (hd 1) { v0 with md := 1 }).wf = false ∧
    (Instr.vsmxf (hd 0) { v0 with md := 16 }).wf = false ∧ (Instr.vsmxf (hd 1) { v0 with md := 1 }).wf = false ∧ (Instr.vtrans (hd 1) v0).wf = false ∧
    (Instr.vsel (hd 1) v0).wf = false ∧ (Instr.vcmp (hd 1) { v0 with md := 6 }).wf = false ∧ (Instr.vclamp (hd 1) v0).wf = false ∧
    (Instr.vbcast (hd 0) { v0 with md := 2 }).wf = false ∧ (Instr.vzero (hd 1) v0).wf = false := by decide

/-- R347 to R356, R363 to R368: the match mode and the literal of each matrix and sum-product node. -/
theorem test_wf_matrix_sum_product_literal :
    (Instr.mclaim (hd 0) { m0 with md := 128 }).wf = false ∧ (Instr.mrel (hd 0) { m0 with ofmt := 1 }).wf = false ∧
    (Instr.mldb (hd 0) { m0 with md := 1 }).wf = false ∧ (Instr.mbcb (hd 0) { m0 with rnd := 1 }).wf = false ∧
    (Instr.msel (hd 1) { m0 with slot := 1 }).wf = false ∧ (Instr.msel (hd 0) { m0 with md := 128 }).wf = false ∧
    (Instr.mma (hd 0) { m0 with md := 256 }).wf = false ∧ (Instr.mma (hd 0) { m0 with md := 129 }).wf = false ∧
    (Instr.mma (hd 0) { m0 with slot := 1, md := 128 }).wf = false ∧ (Instr.mmas (hd 0) m0).wf = false ∧ (Instr.mzero (hd 0) { m0 with slot := 1 }).wf = false ∧
    (Instr.mdrn (hd 0) { m0 with md := 8 }).wf = false ∧ (Instr.mdrn (hd 0) { m0 with ofmt := 1, md := 1 }).wf = false ∧
    (Instr.mdrn (hd 0) { m0 with rnd := 5 }).wf = false ∧ (Instr.msave (hd 0) { m0 with md := 1 }).wf = false ∧ (Instr.mrest (hd 1) m0).wf = false ∧
    (Instr.spld (hd 0) { p0 with shape := 1 }).wf = false ∧ (Instr.spld (hd 0) { p0 with md := 2 }).wf = false ∧
    (Instr.spst (hd 0) { p0 with md := 6 }).wf = false ∧ (Instr.spst (hd 0) { p0 with md := 8 }).wf = false ∧
    (Instr.spw (hd 1) { p0 with idx := 1 }).wf = false ∧ (Instr.spup (hd 0) { p0 with bank := 1 }).wf = false ∧
    (Instr.spup (hd 0) { p0 with md := 2 }).wf = false ∧ (Instr.spdn (hd 0) { p0 with md := 8 }).wf = false ∧ (Instr.spmax (hd 0) { p0 with md := 2 }).wf = false ∧
    (Instr.sparg (hd 0) { p0 with md := 4 }).wf = false ∧ (Instr.spnrm (hd 0) p0).wf = false ∧ (Instr.spnrm (hd 0) { p0 with spm := 1, md := 1024 }).wf = false ∧
    (Instr.spcvt (hd 0) p0).wf = false ∧ (Instr.spzero (hd 0) { p0 with md := 1024 }).wf = false := by decide

/-- R372 to R389: the match mode and the literal of each memory and exchange node; a barrier lies inside its buffer. -/
theorem test_wf_memory_exchange_literal :
    (Instr.aload (hd 1) ⟨0, 0⟩).wf = false ∧ (Instr.astore (hd 0) ⟨1, 0⟩).wf = false ∧ (Instr.agath (hd 1) ⟨0, 0⟩).wf = false ∧
    (Instr.ascat (hd 1) ⟨1, 0⟩).wf = false ∧ (Instr.acfg (hd 1) ⟨0, 0⟩).wf = false ∧ (Instr.aeos (hd 0) ⟨2, 0⟩).wf = false ∧
    (Instr.wld (hd 1) ⟨0, 0⟩).wf = false ∧ (Instr.wst (hd 0) ⟨0, 0⟩).wf = false ∧ (Instr.rld (hd 1) ⟨7, 0, 0⟩).wf = false ∧
    (Instr.rld (hd 1) ⟨0, 1, 0⟩).wf = false ∧ (Instr.rst (hd 3) ⟨7, 0, 0⟩).wf = false ∧ (Instr.rst (hd 3) ⟨0, 1, 0⟩).wf = false ∧
    (Instr.ratom (hd 3) ⟨13, 0, 0⟩).wf = false ∧ (Instr.rfen (hd 1)).wf = false ∧ (Instr.smsend (hd 1) ⟨0, 0, 0⟩).wf = false ∧
    (Instr.smrecv (hd 0) ⟨0, 1, 0⟩).wf = false ∧ (Instr.claunch (hd 1) 0).wf = false ∧ (Instr.crecv (hd 1) 0).wf = false ∧
    (Instr.fencex (hd 0) ⟨0, 0, 6⟩).wf = false ∧ (Instr.tbarv (hd 0) ⟨0, 0x60000⟩).wf = false ∧ (Instr.tbarv (hd 0) ⟨1, 0x30000⟩).wf = false ∧
    (Instr.tbarv (hd 0) ⟨2, 0x18000⟩).wf = false ∧ (Instr.tbarv (hd 0) ⟨3, 0⟩).wf = false ∧ (Instr.tbarv (hd 0) ⟨2, 0x17FFF⟩).wf = true := by decide

/-! Words written out from the encoding tables (R260 to R271), every field at a value that names its own bits -/

/-- R271: the ALU group; RD 30, RA 13, RB 21. -/
theorem test_words_alu :
    decodeWord 0x0379B500 = .ok (.add ⟨1, 2⟩ 30 13 21) ∧
    decodeWord 0x0379B501 = .ok (.sub ⟨1, 2⟩ 30 13 21) ∧
    decodeWord 0x0379B502 = .ok (.and ⟨1, 2⟩ 30 13 21) ∧
    decodeWord 0x0379B503 = .ok (.or ⟨1, 2⟩ 30 13 21) ∧
    decodeWord 0x0379B504 = .ok (.xor ⟨1, 2⟩ 30 13 21) ∧
    decodeWord 0x0379B505 = .ok (.sll ⟨1, 2⟩ 30 13 21) ∧
    decodeWord 0x0379B506 = .ok (.srl ⟨1, 2⟩ 30 13 21) ∧
    decodeWord 0x0379B507 = .ok (.sra ⟨1, 2⟩ 30 13 21) ∧
    decodeWord 0x0379B508 = .ok (.slt ⟨1, 2⟩ 30 13 21) ∧
    decodeWord 0x0379B509 = .ok (.sltu ⟨1, 2⟩ 30 13 21) ∧
    decodeWord 0x0379B50A = .ok (.mul ⟨1, 2⟩ 30 13 21) ∧
    decodeWord 0x0379B50B = .ok (.mulh ⟨1, 2⟩ 30 13 21) ∧
    decodeWord 0x0379B50C = .ok (.mulhu ⟨1, 2⟩ 30 13 21) ∧
    decodeWord 0x0379B50D = .ok (.min ⟨1, 2⟩ 30 13 21) ∧
    decodeWord 0x0379B50E = .ok (.max ⟨1, 2⟩ 30 13 21) :=
  by and_intros <;> rfl

/-- R270: the immediate forms. -/
theorem test_words_immediate :
    decodeWord 0x0779BAB5 = .ok (.addi ⟨1, 2⟩ 30 13 0x1AB5) ∧
    decodeWord 0x0B79BAB5 = .ok (.andi ⟨1, 2⟩ 30 13 0x1AB5) ∧
    decodeWord 0x0F79BAB5 = .ok (.ori ⟨1, 2⟩ 30 13 0x1AB5) ∧
    decodeWord 0x1379BAB5 = .ok (.xori ⟨1, 2⟩ 30 13 0x1AB5) ∧
    decodeWord 0x1779A02D = .ok (.slli ⟨1, 2⟩ 30 13 45) ∧
    decodeWord 0x1B79A02D = .ok (.srli ⟨1, 2⟩ 30 13 45) ∧
    decodeWord 0x1F79A02D = .ok (.srai ⟨1, 2⟩ 30 13 45) ∧
    decodeWord 0x2379BAB5 = .ok (.slti ⟨1, 2⟩ 30 13 0x1AB5) ∧
    decodeWord 0x2779BAB5 = .ok (.sltiu ⟨1, 2⟩ 30 13 0x1AB5) ∧
    decodeWord 0x2B7AAB5D = .ok (.lui ⟨1, 2⟩ 30 0x2AB5D) :=
  by and_intros <;> rfl

/-- R270: loads, and stores with RB in [22:18]. -/
theorem test_words_load_store :
    decodeWord 0x2F79BAB5 = .ok (.ld1 ⟨1, 2⟩ 30 13 0x1AB5) ∧
    decodeWord 0x3379BAB5 = .ok (.ld2 ⟨1, 2⟩ 30 13 0x1AB5) ∧
    decodeWord 0x3779BAB5 = .ok (.ld4 ⟨1, 2⟩ 30 13 0x1AB5) ∧
    decodeWord 0x3B79BAB5 = .ok (.ld8 ⟨1, 2⟩ 30 13 0x1AB5) ∧
    decodeWord 0x3F79BAB5 = .ok (.ld1z ⟨1, 2⟩ 30 13 0x1AB5) ∧
    decodeWord 0x4379BAB5 = .ok (.ld2z ⟨1, 2⟩ 30 13 0x1AB5) ∧
    decodeWord 0x4779BAB5 = .ok (.ld4z ⟨1, 2⟩ 30 13 0x1AB5) ∧
    decodeWord 0x4B79BAB5 = .ok (.st1 ⟨1, 2⟩ 30 13 0x1AB5) ∧
    decodeWord 0x4F79BAB5 = .ok (.st2 ⟨1, 2⟩ 30 13 0x1AB5) ∧
    decodeWord 0x5379BAB5 = .ok (.st4 ⟨1, 2⟩ 30 13 0x1AB5) ∧
    decodeWord 0x5779BAB5 = .ok (.st8 ⟨1, 2⟩ 30 13 0x1AB5) :=
  by and_intros <;> rfl

/-- R270: branches with RB in [22:18], jumps, loops. -/
theorem test_words_control_flow :
    decodeWord 0x5B79BAB5 = .ok (.beq ⟨1, 2⟩ 30 13 0x1AB5) ∧
    decodeWord 0x5F79BAB5 = .ok (.bne ⟨1, 2⟩ 30 13 0x1AB5) ∧
    decodeWord 0x6379BAB5 = .ok (.blt ⟨1, 2⟩ 30 13 0x1AB5) ∧
    decodeWord 0x6779BAB5 = .ok (.bge ⟨1, 2⟩ 30 13 0x1AB5) ∧
    decodeWord 0x6B79BAB5 = .ok (.bltu ⟨1, 2⟩ 30 13 0x1AB5) ∧
    decodeWord 0x6F79BAB5 = .ok (.bgeu ⟨1, 2⟩ 30 13 0x1AB5) ∧
    decodeWord 0x737AAB5D = .ok (.jal ⟨1, 2⟩ 30 0x2AB5D) ∧
    decodeWord 0x7779BAB5 = .ok (.jalr ⟨1, 2⟩ 30 13 0x1AB5) ∧
    decodeWord 0x7B54FAB5 = .ok (.loopi ⟨1, 2⟩ 0x2A7 0x1AB5) ∧
    decodeWord 0x7F01BAB5 = .ok (.loopr ⟨1, 2⟩ 13 0x1AB5) :=
  by and_intros <;> rfl

/-- R269, R270: atomics and fences. -/
theorem test_words_atomic_fence :
    decodeWord 0x8379B573 = .ok (.amadd ⟨1, 2⟩ 30 13 21 3 4 3) ∧
    decodeWord 0x8779B573 = .ok (.amswp ⟨1, 2⟩ 30 13 21 3 4 3) ∧
    decodeWord 0x8B79B573 = .ok (.amcas ⟨1, 2⟩ 30 13 21 3 4 3) ∧
    decodeWord 0x8F79B573 = .ok (.ammax ⟨1, 2⟩ 30 13 21 3 4 3) ∧
    decodeWord 0x9379B573 = .ok (.ammin ⟨1, 2⟩ 30 13 21 3 4 3) ∧
    decodeWord 0x97000094 = .ok (.fence ⟨1, 2⟩ 4 5) ∧
    decodeWord 0x9B18A068 = .ok (.xfence ⟨1, 2⟩ 6 5 2) :=
  by and_intros <;> rfl

/-- R270 and the entries of chapter 12: commands to elements. -/
theorem test_words_element_commands :
    decodeWord 0x9F79A023 = .ok (.gload ⟨1, 2⟩ 30 13 0x23) ∧
    decodeWord 0xA301B50D = .ok (.cfgw ⟨1, 2⟩ 13 21 0xD) ∧
    decodeWord 0xA701B5A5 = .ok (.kset ⟨1, 2⟩ 13 21 0xA5) ∧
    decodeWord 0xAB01B500 = .ok (.inj ⟨1, 2⟩ 13 21) ∧
    decodeWord 0xAF01B5BA = .ok (.injt ⟨1, 2⟩ 13 21 5 26) ∧
    decodeWord 0xB301A0A5 = .ok (.mark ⟨1, 2⟩ 13 0xA5) ∧
    decodeWord 0xB779A000 = .ok (.purge ⟨1, 2⟩ 30 13) ∧
    decodeWord 0xBB79B500 = .ok (.clrset ⟨1, 2⟩ 30 13 21) ∧
    decodeWord 0xBF79A002 = .ok (.dlq ⟨1, 2⟩ 30 13 2) ∧
    decodeWord 0xC301B504 = .ok (.sbind ⟨1, 2⟩ 13 21 4) ∧
    decodeWord 0xC779A000 = .ok (.sbar ⟨1, 2⟩ 30 13) ∧
    decodeWord 0xCB79BAB5 = .ok (.swait ⟨1, 2⟩ 30 13 0x1AB5) :=
  by and_intros <;> rfl

/-- R270 and the entries of chapter 12: copy channels, transfer barriers, queues. -/
theorem test_words_units :
    decodeWord 0xCF79A00B = .ok (.chstart ⟨1, 2⟩ 30 13 0xB) ∧
    decodeWord 0xD378001B = .ok (.chstat ⟨1, 2⟩ 30 1 0xB) ∧
    decodeWord 0xD701B500 = .ok (.tbinit ⟨1, 2⟩ 13 21) ∧
    decodeWord 0xDB01B500 = .ok (.tbarr ⟨1, 2⟩ 13 21) ∧
    decodeWord 0xDF79B500 = .ok (.tbwait ⟨1, 2⟩ 30 13 21) ∧
    decodeWord 0xE379B500 = .ok (.qpushc ⟨1, 2⟩ 30 13 21) ∧
    decodeWord 0xE779A000 = .ok (.qclose ⟨1, 2⟩ 30 13) ∧
    decodeWord 0xEB000005 = .ok (.tsigExit ⟨1, 2⟩ 5) ∧
    decodeWord 0xEB000405 = .ok (.tsigMsi ⟨1, 2⟩ 5) ∧
    decodeWord 0xEB01A802 = .ok (.tsigWake ⟨1, 2⟩ 13 2) :=
  by and_intros <;> rfl

/-- R271: the SYS group and the CSR forms. -/
theorem test_words_system :
    decodeWord 0xEF0002A7 = .ok (.trap ⟨1, 2⟩ 0x2A7) ∧
    decodeWord 0xEF000400 = .ok (.eret ⟨1, 2⟩) ∧
    decodeWord 0xEF000800 = .ok (.wfe ⟨1, 2⟩) ∧
    decodeWord 0xEF000C00 = .ok (.yield ⟨1, 2⟩) ∧
    decodeWord 0xF3780A5B = .ok (.csrr ⟨1, 2⟩ 30 0xA5B) ∧
    decodeWord 0xF779AA5B = .ok (.csrw ⟨1, 2⟩ 30 13 0xA5B) ∧
    decodeWord 0xFB79AA5B = .ok (.csrs ⟨1, 2⟩ 30 13 0xA5B) ∧
    decodeWord 0xFF79AA5B = .ok (.csrc ⟨1, 2⟩ 30 13 0xA5B) :=
  by and_intros <;> rfl

/-- R260, R262: the steering nodes; both destinations have every field set. -/
theorem test_words_steering :
    decodeNode 0x003696ED6A5A44A500000000 = .ok (.steer ⟨1, 1, ⟨1, 0xA5B, 0x2D, 0x1A⟩, ⟨2, 0x5A4, 0x12, 0x25⟩⟩) ∧
    decodeNode 0x00F696ED6A5A44A500000000 = .ok (.select ⟨3, 1, ⟨1, 0xA5B, 0x2D, 0x1A⟩, ⟨2, 0x5A4, 0x12, 0x25⟩⟩) ∧
    decodeNode 0x013696ED6A5A44A500000000 = .ok (.merge ⟨1, 1, ⟨1, 0xA5B, 0x2D, 0x1A⟩, ⟨2, 0x5A4, 0x12, 0x25⟩⟩) ∧
    decodeNode 0x019696ED6A5A44A500000000 = .ok (.dup ⟨0, 1, ⟨1, 0xA5B, 0x2D, 0x1A⟩, ⟨2, 0x5A4, 0x12, 0x25⟩⟩) ∧
    decodeNode 0x021696ED6A5A44A500000000 = .ok (.sink ⟨0, 1, ⟨1, 0xA5B, 0x2D, 0x1A⟩, ⟨2, 0x5A4, 0x12, 0x25⟩⟩) ∧
    decodeNode 0x02B696ED6A5A44A500000000 = .ok (.cinc ⟨1, 1, ⟨1, 0xA5B, 0x2D, 0x1A⟩, ⟨2, 0x5A4, 0x12, 0x25⟩⟩) ∧
    decodeNode 0x031696ED6A5A44A500000000 = .ok (.center ⟨0, 1, ⟨1, 0xA5B, 0x2D, 0x1A⟩, ⟨2, 0x5A4, 0x12, 0x25⟩⟩) ∧
    decodeNode 0x03B696ED6A5A44A500000000 = .ok (.cexit ⟨1, 1, ⟨1, 0xA5B, 0x2D, 0x1A⟩, ⟨2, 0x5A4, 0x12, 0x25⟩⟩) ∧
    decodeNode 0x041696ED6A5A44A5CAFE1234 = .ok (.loopn ⟨0, 1, ⟨1, 0xA5B, 0x2D, 0x1A⟩, ⟨2, 0x5A4, 0x12, 0x25⟩⟩ 0xCAFE1234) ∧
    decodeNode 0x049696ED6A5A44A500000000 = .ok (.invar ⟨0, 1, ⟨1, 0xA5B, 0x2D, 0x1A⟩, ⟨2, 0x5A4, 0x12, 0x25⟩⟩) ∧
    decodeNode 0x053696ED6A5A44A500000000 = .ok (.purgen ⟨1, 1, ⟨1, 0xA5B, 0x2D, 0x1A⟩, ⟨2, 0x5A4, 0x12, 0x25⟩⟩) ∧
    decodeNode 0x05B696ED6A5A44A500000000 = .ok (.gate ⟨1, 1, ⟨1, 0xA5B, 0x2D, 0x1A⟩, ⟨2, 0x5A4, 0x12, 0x25⟩⟩) ∧
    decodeNode 0x067696ED6A5A44A500000000 = .ok (.join ⟨3, 1, ⟨1, 0xA5B, 0x2D, 0x1A⟩, ⟨2, 0x5A4, 0x12, 0x25⟩⟩) ∧
    decodeNode 0x06B696ED6A5A44A500000B5A = .ok (.barv ⟨1, 1, ⟨1, 0xA5B, 0x2D, 0x1A⟩, ⟨2, 0x5A4, 0x12, 0x25⟩⟩ 0x2D 0x1A) ∧
    decodeNode 0x071696ED6A5A44A500000000 = .ok (.qpop ⟨0, 1, ⟨1, 0xA5B, 0x2D, 0x1A⟩, ⟨2, 0x5A4, 0x12, 0x25⟩⟩) ∧
    decodeNode 0x079696ED6A5A44A500000000 = .ok (.qtry ⟨0, 1, ⟨1, 0xA5B, 0x2D, 0x1A⟩, ⟨2, 0x5A4, 0x12, 0x25⟩⟩) ∧
    decodeNode 0x081696ED6A5A44A500000000 = .ok (.eos ⟨0, 1, ⟨1, 0xA5B, 0x2D, 0x1A⟩, ⟨2, 0x5A4, 0x12, 0x25⟩⟩) :=
  by and_intros <;> rfl

/-- R263: the scalar nodes. -/
theorem test_words_scalar :
    decodeNode 0x201696ED6A5A44A580000001 = .ok (.sadd ⟨0, 1, ⟨1, 0xA5B, 0x2D, 0x1A⟩, ⟨2, 0x5A4, 0x12, 0x25⟩⟩ 0x80000001) ∧
    decodeNode 0x209696ED6A5A44A580000001 = .ok (.ssub ⟨0, 1, ⟨1, 0xA5B, 0x2D, 0x1A⟩, ⟨2, 0x5A4, 0x12, 0x25⟩⟩ 0x80000001) ∧
    decodeNode 0x211696ED6A5A44A580000001 = .ok (.smul ⟨0, 1, ⟨1, 0xA5B, 0x2D, 0x1A⟩, ⟨2, 0x5A4, 0x12, 0x25⟩⟩ 0x80000001) ∧
    decodeNode 0x219696ED6A5A44A580000001 = .ok (.sand ⟨0, 1, ⟨1, 0xA5B, 0x2D, 0x1A⟩, ⟨2, 0x5A4, 0x12, 0x25⟩⟩ 0x80000001) ∧
    decodeNode 0x221696ED6A5A44A580000001 = .ok (.sor ⟨0, 1, ⟨1, 0xA5B, 0x2D, 0x1A⟩, ⟨2, 0x5A4, 0x12, 0x25⟩⟩ 0x80000001) ∧
    decodeNode 0x229696ED6A5A44A580000001 = .ok (.sxor ⟨0, 1, ⟨1, 0xA5B, 0x2D, 0x1A⟩, ⟨2, 0x5A4, 0x12, 0x25⟩⟩ 0x80000001) ∧
    decodeNode 0x231696ED6A5A44A580000001 = .ok (.sshl ⟨0, 1, ⟨1, 0xA5B, 0x2D, 0x1A⟩, ⟨2, 0x5A4, 0x12, 0x25⟩⟩ 0x80000001) ∧
    decodeNode 0x239696ED6A5A44A580000001 = .ok (.sshr ⟨0, 1, ⟨1, 0xA5B, 0x2D, 0x1A⟩, ⟨2, 0x5A4, 0x12, 0x25⟩⟩ 0x80000001) ∧
    decodeNode 0x241696ED6A5A44A580000001 = .ok (.ssra ⟨0, 1, ⟨1, 0xA5B, 0x2D, 0x1A⟩, ⟨2, 0x5A4, 0x12, 0x25⟩⟩ 0x80000001) ∧
    decodeNode 0x249696ED6A5A44A580000001 = .ok (.smin ⟨0, 1, ⟨1, 0xA5B, 0x2D, 0x1A⟩, ⟨2, 0x5A4, 0x12, 0x25⟩⟩ 0x80000001) ∧
    decodeNode 0x251696ED6A5A44A580000001 = .ok (.smax ⟨0, 1, ⟨1, 0xA5B, 0x2D, 0x1A⟩, ⟨2, 0x5A4, 0x12, 0x25⟩⟩ 0x80000001) ∧
    decodeNode 0x25B696ED6A5A44A500000005 = .ok (.scmp ⟨1, 1, ⟨1, 0xA5B, 0x2D, 0x1A⟩, ⟨2, 0x5A4, 0x12, 0x25⟩⟩ 5) ∧
    decodeNode 0x267696ED6A5A44A500000000 = .ok (.ssel ⟨3, 1, ⟨1, 0xA5B, 0x2D, 0x1A⟩, ⟨2, 0x5A4, 0x12, 0x25⟩⟩) ∧
    decodeNode 0x269696ED6A5A44A580000001 = .ok (.sconst ⟨0, 1, ⟨1, 0xA5B, 0x2D, 0x1A⟩, ⟨2, 0x5A4, 0x12, 0x25⟩⟩ 0x80000001) ∧
    decodeNode 0x271696ED6A5A44A50000000D = .ok (.skrd ⟨0, 1, ⟨1, 0xA5B, 0x2D, 0x1A⟩, ⟨2, 0x5A4, 0x12, 0x25⟩⟩ 13) ∧
    decodeNode 0x279696ED6A5A44A53FC00000 = .ok (.sfadd ⟨0, 1, ⟨1, 0xA5B, 0x2D, 0x1A⟩, ⟨2, 0x5A4, 0x12, 0x25⟩⟩ 0x3FC00000) ∧
    decodeNode 0x281696ED6A5A44A53FC00000 = .ok (.sfmul ⟨0, 1, ⟨1, 0xA5B, 0x2D, 0x1A⟩, ⟨2, 0x5A4, 0x12, 0x25⟩⟩ 0x3FC00000) ∧
    decodeNode 0x289696ED6A5A44A508000021 = .ok (.scvt ⟨0, 1, ⟨1, 0xA5B, 0x2D, 0x1A⟩, ⟨2, 0x5A4, 0x12, 0x25⟩⟩ ⟨0, 4, 0, 0, 0x21⟩) :=
  by and_intros <;> rfl

/-- R264: the vector nodes, literal V. -/
theorem test_words_vector :
    decodeNode 0x403696ED6A5A44A596000000 = .ok (.vadd ⟨1, 1, ⟨1, 0xA5B, 0x2D, 0x1A⟩, ⟨2, 0x5A4, 0x12, 0x25⟩⟩ ⟨9, 3, 0, 0, 0⟩) ∧
    decodeNode 0x40B696ED6A5A44A596000000 = .ok (.vsub ⟨1, 1, ⟨1, 0xA5B, 0x2D, 0x1A⟩, ⟨2, 0x5A4, 0x12, 0x25⟩⟩ ⟨9, 3, 0, 0, 0⟩) ∧
    decodeNode 0x413696ED6A5A44A596000000 = .ok (.vmul ⟨1, 1, ⟨1, 0xA5B, 0x2D, 0x1A⟩, ⟨2, 0x5A4, 0x12, 0x25⟩⟩ ⟨9, 3, 0, 0, 0⟩) ∧
    decodeNode 0x41F696ED6A5A44A596000000 = .ok (.vfma ⟨3, 1, ⟨1, 0xA5B, 0x2D, 0x1A⟩, ⟨2, 0x5A4, 0x12, 0x25⟩⟩ ⟨9, 3, 0, 0, 0⟩) ∧
    decodeNode 0x423696ED6A5A44A596000000 = .ok (.vmax ⟨1, 1, ⟨1, 0xA5B, 0x2D, 0x1A⟩, ⟨2, 0x5A4, 0x12, 0x25⟩⟩ ⟨9, 3, 0, 0, 0⟩) ∧
    decodeNode 0x42B696ED6A5A44A596000000 = .ok (.vmin ⟨1, 1, ⟨1, 0xA5B, 0x2D, 0x1A⟩, ⟨2, 0x5A4, 0x12, 0x25⟩⟩ ⟨9, 3, 0, 0, 0⟩) ∧
    decodeNode 0x431696ED6A5A44A596000000 = .ok (.vabs ⟨0, 1, ⟨1, 0xA5B, 0x2D, 0x1A⟩, ⟨2, 0x5A4, 0x12, 0x25⟩⟩ ⟨9, 3, 0, 0, 0⟩) ∧
    decodeNode 0x439696ED6A5A44A5976C0000 = .ok (.vscl ⟨0, 1, ⟨1, 0xA5B, 0x2D, 0x1A⟩, ⟨2, 0x5A4, 0x12, 0x25⟩⟩ ⟨9, 3, 11, 6, 0⟩) ∧
    decodeNode 0x441696ED6A5A44A596000000 = .ok (.vmov ⟨0, 1, ⟨1, 0xA5B, 0x2D, 0x1A⟩, ⟨2, 0x5A4, 0x12, 0x25⟩⟩ ⟨9, 3, 0, 0, 0⟩) ∧
    decodeNode 0x449696ED6A5A44A596000000 = .ok (.vexp2 ⟨0, 1, ⟨1, 0xA5B, 0x2D, 0x1A⟩, ⟨2, 0x5A4, 0x12, 0x25⟩⟩ ⟨9, 3, 0, 0, 0⟩) ∧
    decodeNode 0x451696ED6A5A44A596000000 = .ok (.vlog2 ⟨0, 1, ⟨1, 0xA5B, 0x2D, 0x1A⟩, ⟨2, 0x5A4, 0x12, 0x25⟩⟩ ⟨9, 3, 0, 0, 0⟩) ∧
    decodeNode 0x459696ED6A5A44A596000000 = .ok (.vrcp ⟨0, 1, ⟨1, 0xA5B, 0x2D, 0x1A⟩, ⟨2, 0x5A4, 0x12, 0x25⟩⟩ ⟨9, 3, 0, 0, 0⟩) ∧
    decodeNode 0x461696ED6A5A44A596000000 = .ok (.vrsq ⟨0, 1, ⟨1, 0xA5B, 0x2D, 0x1A⟩, ⟨2, 0x5A4, 0x12, 0x25⟩⟩ ⟨9, 3, 0, 0, 0⟩) ∧
    decodeNode 0x469696ED6A5A44A59600000B = .ok (.vcvt ⟨0, 1, ⟨1, 0xA5B, 0x2D, 0x1A⟩, ⟨2, 0x5A4, 0x12, 0x25⟩⟩ ⟨9, 3, 0, 0, 11⟩) ∧
    decodeNode 0x473696ED6A5A44A596000001 = .ok (.vbscale ⟨1, 1, ⟨1, 0xA5B, 0x2D, 0x1A⟩, ⟨2, 0x5A4, 0x12, 0x25⟩⟩ ⟨9, 3, 0, 0, 1⟩) ∧
    decodeNode 0x47B696ED6A5A44A586000006 = .ok (.vquant ⟨1, 1, ⟨1, 0xA5B, 0x2D, 0x1A⟩, ⟨2, 0x5A4, 0x12, 0x25⟩⟩ ⟨8, 3, 0, 0, 6⟩) ∧
    decodeNode 0x481696ED6A5A44A596000000 = .ok (.vrowmax ⟨0, 1, ⟨1, 0xA5B, 0x2D, 0x1A⟩, ⟨2, 0x5A4, 0x12, 0x25⟩⟩ ⟨9, 3, 0, 0, 0⟩) ∧
    decodeNode 0x489696ED6A5A44A596000000 = .ok (.vrowsum ⟨0, 1, ⟨1, 0xA5B, 0x2D, 0x1A⟩, ⟨2, 0x5A4, 0x12, 0x25⟩⟩ ⟨9, 3, 0, 0, 0⟩) ∧
    decodeNode 0x491696ED6A5A44A50160003D = .ok (.vsmx ⟨0, 1, ⟨1, 0xA5B, 0x2D, 0x1A⟩, ⟨2, 0x5A4, 0x12, 0x25⟩⟩ ⟨0, 0, 11, 0, 61⟩) ∧
    decodeNode 0x499696ED6A5A44A59760000D = .ok (.vsmxf ⟨0, 1, ⟨1, 0xA5B, 0x2D, 0x1A⟩, ⟨2, 0x5A4, 0x12, 0x25⟩⟩ ⟨9, 3, 11, 0, 13⟩) ∧
    decodeNode 0x4A1696ED6A5A44A596000000 = .ok (.vtrans ⟨0, 1, ⟨1, 0xA5B, 0x2D, 0x1A⟩, ⟨2, 0x5A4, 0x12, 0x25⟩⟩ ⟨9, 3, 0, 0, 0⟩) ∧
    decodeNode 0x4AF696ED6A5A44A596000000 = .ok (.vsel ⟨3, 1, ⟨1, 0xA5B, 0x2D, 0x1A⟩, ⟨2, 0x5A4, 0x12, 0x25⟩⟩ ⟨9, 3, 0, 0, 0⟩) ∧
    decodeNode 0x4B3696ED6A5A44A596000005 = .ok (.vcmp ⟨1, 1, ⟨1, 0xA5B, 0x2D, 0x1A⟩, ⟨2, 0x5A4, 0x12, 0x25⟩⟩ ⟨9, 3, 0, 0, 5⟩) ∧
    decodeNode 0x4B9696ED6A5A44A5976C0000 = .ok (.vclamp ⟨0, 1, ⟨1, 0xA5B, 0x2D, 0x1A⟩, ⟨2, 0x5A4, 0x12, 0x25⟩⟩ ⟨9, 3, 11, 6, 0⟩) ∧
    decodeNode 0x4C1696ED6A5A44A596000001 = .ok (.vbcast ⟨0, 1, ⟨1, 0xA5B, 0x2D, 0x1A⟩, ⟨2, 0x5A4, 0x12, 0x25⟩⟩ ⟨9, 3, 0, 0, 1⟩) ∧
    decodeNode 0x4C9696ED6A5A44A596000000 = .ok (.vzero ⟨0, 1, ⟨1, 0xA5B, 0x2D, 0x1A⟩, ⟨2, 0x5A4, 0x12, 0x25⟩⟩ ⟨9, 3, 0, 0, 0⟩) :=
  by and_intros <;> rfl

/-- R265: the matrix nodes, literal M. -/
theorem test_words_matrix :
    decodeNode 0x601696ED6A5A44A5AA000064 = .ok (.mclaim ⟨0, 1, ⟨1, 0xA5B, 0x2D, 0x1A⟩, ⟨2, 0x5A4, 0x12, 0x25⟩⟩ ⟨85, 0, 0, 100⟩) ∧
    decodeNode 0x609696ED6A5A44A5AA000064 = .ok (.mrel ⟨0, 1, ⟨1, 0xA5B, 0x2D, 0x1A⟩, ⟨2, 0x5A4, 0x12, 0x25⟩⟩ ⟨85, 0, 0, 100⟩) ∧
    decodeNode 0x611696ED6A5A44A5AA000000 = .ok (.mldb ⟨0, 1, ⟨1, 0xA5B, 0x2D, 0x1A⟩, ⟨2, 0x5A4, 0x12, 0x25⟩⟩ ⟨85, 0, 0, 0⟩) ∧
    decodeNode 0x619696ED6A5A44A5AA000000 = .ok (.mbcb ⟨0, 1, ⟨1, 0xA5B, 0x2D, 0x1A⟩, ⟨2, 0x5A4, 0x12, 0x25⟩⟩ ⟨85, 0, 0, 0⟩) ∧
    decodeNode 0x621696ED6A5A44A5AA000064 = .ok (.msel ⟨0, 1, ⟨1, 0xA5B, 0x2D, 0x1A⟩, ⟨2, 0x5A4, 0x12, 0x25⟩⟩ ⟨85, 0, 0, 100⟩) ∧
    decodeNode 0x629696ED6A5A44A5AA000064 = .ok (.mma ⟨0, 1, ⟨1, 0xA5B, 0x2D, 0x1A⟩, ⟨2, 0x5A4, 0x12, 0x25⟩⟩ ⟨85, 0, 0, 100⟩) ∧
    decodeNode 0x633696ED6A5A44A5AA000064 = .ok (.mmas ⟨1, 1, ⟨1, 0xA5B, 0x2D, 0x1A⟩, ⟨2, 0x5A4, 0x12, 0x25⟩⟩ ⟨85, 0, 0, 100⟩) ∧
    decodeNode 0x639696ED6A5A44A500000000 = .ok (.mzero ⟨0, 1, ⟨1, 0xA5B, 0x2D, 0x1A⟩, ⟨2, 0x5A4, 0x12, 0x25⟩⟩ ⟨0, 0, 0, 0⟩) ∧
    decodeNode 0x641696ED6A5A44A5012C0006 = .ok (.mdrn ⟨0, 1, ⟨1, 0xA5B, 0x2D, 0x1A⟩, ⟨2, 0x5A4, 0x12, 0x25⟩⟩ ⟨0, 9, 3, 6⟩) ∧
    decodeNode 0x649696ED6A5A44A5AA000000 = .ok (.msave ⟨0, 1, ⟨1, 0xA5B, 0x2D, 0x1A⟩, ⟨2, 0x5A4, 0x12, 0x25⟩⟩ ⟨85, 0, 0, 0⟩) ∧
    decodeNode 0x651696ED6A5A44A5AA000000 = .ok (.mrest ⟨0, 1, ⟨1, 0xA5B, 0x2D, 0x1A⟩, ⟨2, 0x5A4, 0x12, 0x25⟩⟩ ⟨85, 0, 0, 0⟩) :=
  by and_intros <;> rfl

/-- R265: the sum-product nodes, literal P. -/
theorem test_words_sum_product :
    decodeNode 0x801696ED6A5A44A500BA5807 = .ok (.spld ⟨0, 1, ⟨1, 0xA5B, 0x2D, 0x1A⟩, ⟨2, 0x5A4, 0x12, 0x25⟩⟩ ⟨0, 11, 165, 1, 7⟩) ∧
    decodeNode 0x809696ED6A5A44A500BA580D = .ok (.spst ⟨0, 1, ⟨1, 0xA5B, 0x2D, 0x1A⟩, ⟨2, 0x5A4, 0x12, 0x25⟩⟩ ⟨0, 11, 165, 1, 13⟩) ∧
    decodeNode 0x811696ED6A5A44A500BA5800 = .ok (.spw ⟨0, 1, ⟨1, 0xA5B, 0x2D, 0x1A⟩, ⟨2, 0x5A4, 0x12, 0x25⟩⟩ ⟨0, 11, 165, 1, 0⟩) ∧
    decodeNode 0x819696ED6A5A44A5B60A5801 = .ok (.spup ⟨0, 1, ⟨1, 0xA5B, 0x2D, 0x1A⟩, ⟨2, 0x5A4, 0x12, 0x25⟩⟩ ⟨182, 0, 165, 1, 1⟩) ∧
    decodeNode 0x821696ED6A5A44A5B60A5805 = .ok (.spdn ⟨0, 1, ⟨1, 0xA5B, 0x2D, 0x1A⟩, ⟨2, 0x5A4, 0x12, 0x25⟩⟩ ⟨182, 0, 165, 1, 5⟩) ∧
    decodeNode 0x829696ED6A5A44A5B60A5801 = .ok (.spmax ⟨0, 1, ⟨1, 0xA5B, 0x2D, 0x1A⟩, ⟨2, 0x5A4, 0x12, 0x25⟩⟩ ⟨182, 0, 165, 1, 1⟩) ∧
    decodeNode 0x831696ED6A5A44A5B60A5803 = .ok (.sparg ⟨0, 1, ⟨1, 0xA5B, 0x2D, 0x1A⟩, ⟨2, 0x5A4, 0x12, 0x25⟩⟩ ⟨182, 0, 165, 1, 3⟩) ∧
    decodeNode 0x839696ED6A5A44A500BA5AA5 = .ok (.spnrm ⟨0, 1, ⟨1, 0xA5B, 0x2D, 0x1A⟩, ⟨2, 0x5A4, 0x12, 0x25⟩⟩ ⟨0, 11, 165, 1, 677⟩) ∧
    decodeNode 0x841696ED6A5A44A500BA5EA5 = .ok (.spcvt ⟨0, 1, ⟨1, 0xA5B, 0x2D, 0x1A⟩, ⟨2, 0x5A4, 0x12, 0x25⟩⟩ ⟨0, 11, 165, 1, 1701⟩) ∧
    decodeNode 0x849696ED6A5A44A500BA5AA5 = .ok (.spzero ⟨0, 1, ⟨1, 0xA5B, 0x2D, 0x1A⟩, ⟨2, 0x5A4, 0x12, 0x25⟩⟩ ⟨0, 11, 165, 1, 677⟩) :=
  by and_intros <;> rfl

/-- R266: the memory nodes, literal A, and the exchange nodes. -/
theorem test_words_memory_exchange :
    decodeNode 0xA01696ED6A5A44A5AABCDEF1 = .ok (.aload ⟨0, 1, ⟨1, 0xA5B, 0x2D, 0x1A⟩, ⟨2, 0x5A4, 0x12, 0x25⟩⟩ ⟨2, 0x2ABCDEF1⟩) ∧
    decodeNode 0xA09696ED6A5A44A52ABCDEF1 = .ok (.astore ⟨0, 1, ⟨1, 0xA5B, 0x2D, 0x1A⟩, ⟨2, 0x5A4, 0x12, 0x25⟩⟩ ⟨0, 0x2ABCDEF1⟩) ∧
    decodeNode 0xA11696ED6A5A44A5EABCDEF1 = .ok (.agath ⟨0, 1, ⟨1, 0xA5B, 0x2D, 0x1A⟩, ⟨2, 0x5A4, 0x12, 0x25⟩⟩ ⟨3, 0x2ABCDEF1⟩) ∧
    decodeNode 0xA1B696ED6A5A44A52ABCDEF1 = .ok (.ascat ⟨1, 1, ⟨1, 0xA5B, 0x2D, 0x1A⟩, ⟨2, 0x5A4, 0x12, 0x25⟩⟩ ⟨0, 0x2ABCDEF1⟩) ∧
    decodeNode 0xA21696ED6A5A44A5EABCDEF1 = .ok (.acfg ⟨0, 1, ⟨1, 0xA5B, 0x2D, 0x1A⟩, ⟨2, 0x5A4, 0x12, 0x25⟩⟩ ⟨3, 0x2ABCDEF1⟩) ∧
    decodeNode 0xA29696ED6A5A44A56ABCDEF1 = .ok (.aeos ⟨0, 1, ⟨1, 0xA5B, 0x2D, 0x1A⟩, ⟨2, 0x5A4, 0x12, 0x25⟩⟩ ⟨1, 0x2ABCDEF1⟩) ∧
    decodeNode 0xA31696ED6A5A44A5EABCDEF1 = .ok (.wld ⟨0, 1, ⟨1, 0xA5B, 0x2D, 0x1A⟩, ⟨2, 0x5A4, 0x12, 0x25⟩⟩ ⟨3, 0x2ABCDEF1⟩) ∧
    decodeNode 0xA3B696ED6A5A44A5AABCDEF1 = .ok (.wst ⟨1, 1, ⟨1, 0xA5B, 0x2D, 0x1A⟩, ⟨2, 0x5A4, 0x12, 0x25⟩⟩ ⟨2, 0x2ABCDEF1⟩) ∧
    decodeNode 0xC03696ED6A5A44A562ABCDEF = .ok (.rld ⟨1, 1, ⟨1, 0xA5B, 0x2D, 0x1A⟩, ⟨2, 0x5A4, 0x12, 0x25⟩⟩ ⟨6, 0, 0x2ABCDEF⟩) ∧
    decodeNode 0xC0F696ED6A5A44A562ABCDEF = .ok (.rst ⟨3, 1, ⟨1, 0xA5B, 0x2D, 0x1A⟩, ⟨2, 0x5A4, 0x12, 0x25⟩⟩ ⟨6, 0, 0x2ABCDEF⟩) ∧
    decodeNode 0xC17696ED6A5A44A5CEABCDEF = .ok (.ratom ⟨3, 1, ⟨1, 0xA5B, 0x2D, 0x1A⟩, ⟨2, 0x5A4, 0x12, 0x25⟩⟩ ⟨12, 3, 0x2ABCDEF⟩) ∧
    decodeNode 0xC19696ED6A5A44A500000000 = .ok (.rfen ⟨0, 1, ⟨1, 0xA5B, 0x2D, 0x1A⟩, ⟨2, 0x5A4, 0x12, 0x25⟩⟩) ∧
    decodeNode 0xC21696ED6A5A44A5ABCDAC00 = .ok (.smsend ⟨0, 1, ⟨1, 0xA5B, 0x2D, 0x1A⟩, ⟨2, 0x5A4, 0x12, 0x25⟩⟩ ⟨0xABCD, 0x15, 1⟩) ∧
    decodeNode 0xC29696ED6A5A44A5ABCD0400 = .ok (.smrecv ⟨0, 1, ⟨1, 0xA5B, 0x2D, 0x1A⟩, ⟨2, 0x5A4, 0x12, 0x25⟩⟩ ⟨0xABCD, 0, 1⟩) ∧
    decodeNode 0xC31696ED6A5A44A5B4000000 = .ok (.claunch ⟨0, 1, ⟨1, 0xA5B, 0x2D, 0x1A⟩, ⟨2, 0x5A4, 0x12, 0x25⟩⟩ 0x2D) ∧
    decodeNode 0xC39696ED6A5A44A5B4000000 = .ok (.crecv ⟨0, 1, ⟨1, 0xA5B, 0x2D, 0x1A⟩, ⟨2, 0x5A4, 0x12, 0x25⟩⟩ 0x2D) ∧
    decodeNode 0xC41696ED6A5A44A5D6000000 = .ok (.fencex ⟨0, 1, ⟨1, 0xA5B, 0x2D, 0x1A⟩, ⟨2, 0x5A4, 0x12, 0x25⟩⟩ ⟨6, 5, 4⟩) ∧
    decodeNode 0xC49696ED6A5A44A58015A5A0 = .ok (.tbarv ⟨0, 1, ⟨1, 0xA5B, 0x2D, 0x1A⟩, ⟨2, 0x5A4, 0x12, 0x25⟩⟩ ⟨2, 0x15A5A⟩) :=
  by and_intros <;> rfl

/-- R272, R269, R310: words that are no instruction, each refused by name. -/
theorem test_words_refused :
    decodeWord 0x0000000F = .error .aluFunction ∧ decodeWord 0xEC001000 = .error .sysFunction ∧ decodeWord 0xE8000C00 = .error .tsigKind ∧
    decodeWord 0x14000040 = .error .unusedField ∧ decodeWord 0x7C040001 = .error .unusedField ∧ decodeWord 0x94000004 = .error .reservedCode ∧
    decodeWord 0x80000004 = .error .reservedCode ∧ decodeWord 0x98080044 = .error .unusedField ∧ decodeWord 0x98080060 = .error .reservedCode ∧
    decodeNode 0x088000000300000000000000 = .error .nodeOpcode ∧ decodeNode 0x020C00000300000000000001 = .error .literal ∧
    decodeNode 0x022C00000300000000000000 = .error .badRecord ∧ decodeNode 0x020C00000300000100000000 = .error .badRecord :=
  by and_intros <;> rfl

/-! Small states -/

/-- Thread 0, running at 0x100 with registers. -/
def thr (regs : Table Word) : Thread := { Thread.start 0 with st := .run, regs := regs, pc := 0x100 }

/-- A region of one core. -/
def region1 (c : Core) : Region := { Region.empty with cores := [(0, c)] }

/-- The machine with a region running in slot 0, its core 0 and thread 0 (or element and node 0) in the focus. -/
def inSlot (r : Region) : State := State.reset.putSlot 0 { Slot.free with st := 2, region := some r }

/-- One thread that runs. -/
def ccOne (t : Thread) : State := inSlot (region1 { Core.empty with thr := [(0, t)] })

/-- The pc of thread 0 after an instruction, and the value that a register has then some clk later. -/
def after (i : Instr) (s : State) (reg : BitVec 5) (clk : Nat) : Option (Word × Word) :=
  match exec i s with
  | .next t => some ((t.thread 0 0 0).pc, ((t.thread 0 0 0).commit clk).rd reg)
  | _ => none

/-- The thread 0 after an instruction. -/
def thread0 (i : Instr) (s : State) : Option Thread :=
  match exec i s with
  | .next t => some (t.thread 0 0 0)
  | _ => none

/-! Single steps: the control core -/

/-- R281, the worked example of R153: ADDI s3, s0, 5. -/
theorem test_addi : after (.addi ⟨0, 1⟩ 3 0 5) (ccOne (thr [])) 3 2 = some (0x104, 5) := by decide +kernel
/-- R153: a result is not readable a clk early. -/
theorem test_latency : after (.addi ⟨0, 1⟩ 3 0 5) (ccOne (thr [(3, 9)])) 3 1 = some (0x104, 9) := by decide +kernel
/-- R280: 5 + 5. -/
theorem test_add : after (.add ⟨1, 0⟩ 4 3 3) (ccOne (thr [(3, 5)])) 4 2 = some (0x104, 10) := by decide +kernel
/-- R280: 3 - 5 wraps. -/
theorem test_sub : after (.sub ⟨0, 0⟩ 4 1 2) (ccOne (thr [(1, 3), (2, 5)])) 4 2 = some (0x104, 0xFFFFFFFFFFFFFFFE) := by decide +kernel
/-- R280: the signed high product of -1 and 2, and the unsigned one. -/
theorem test_mulh : after (.mulh ⟨0, 0⟩ 4 1 2) (ccOne (thr [(1, 0xFFFFFFFFFFFFFFFF), (2, 2)])) 4 4 = some (0x104, 0xFFFFFFFFFFFFFFFF) ∧
    after (.mulhu ⟨0, 0⟩ 4 1 2) (ccOne (thr [(1, 0xFFFFFFFFFFFFFFFF), (2, 2)])) 4 4 = some (0x104, 1) := by decide +kernel
/-- R280: shifts take 6 bits of RB; SRA keeps the sign. -/
theorem test_sra : after (.sra ⟨0, 0⟩ 4 1 2) (ccOne (thr [(1, 0x8000000000000000), (2, 68)])) 4 2 = some (0x104, 0xF800000000000000) := by decide +kernel
/-- R281: SLTIU compares with the sign-extended immediate as unsigned; LUI of the most negative immediate. -/
theorem test_sltiu_lui : after (.sltiu ⟨0, 0⟩ 4 1 0x1FFF) (ccOne (thr [(1, 5)])) 4 2 = some (0x104, 1) ∧
    after (.lui ⟨0, 0⟩ 4 0x20000) (ccOne (thr [])) 4 2 = some (0x104, 0xFFFFFFFFC0000000) := by decide +kernel
/-- R268: a write to s0 is discarded. -/
theorem test_s0 : after (.addi ⟨0, 0⟩ 0 0 5) (ccOne (thr [])) 0 9 = some (0x104, 0) := by decide +kernel
/-- R284: a branch backwards taken, and not taken. -/
theorem test_branch : after (.blt ⟨0, 0⟩ 2 1 0x1FFE) (ccOne (thr [(1, 0xFFFFFFFFFFFFFFFF), (2, 1)])) 0 0 = some (0xF8, 0) ∧
    after (.bltu ⟨0, 0⟩ 2 1 0x1FFE) (ccOne (thr [(1, 0xFFFFFFFFFFFFFFFF), (2, 1)])) 0 0 = some (0x104, 0) := by decide +kernel
/-- R285: JAL links the next word. -/
theorem test_jal : after (.jal ⟨0, 0⟩ 1 4) (ccOne (thr [])) 1 2 = some (0x110, 0x104) := by decide +kernel
/-- R286, R287: LOOPI of one word turns back while the count lasts. -/
theorem test_loop : (thread0 (.loopi ⟨0, 0⟩ 3 2) (ccOne (thr []))).map (fun t => (t.lcnt, t.lbeg, t.lend, t.pc)) = some (3, 0x104, 0x10C, 0x104) ∧
    (thread0 (.addi ⟨0, 0⟩ 1 0 1) (ccOne { thr [] with pc := 0x108, lcnt := 3, lbeg := 0x104, lend := 0x10C })).map (fun t => (t.lcnt, t.pc)) =
      some (2, 0x104) := by decide +kernel
/-- R155, R312: TRAP 7 enters the handler with EPC at the next word; without a handler the thread halts. -/
theorem test_trap : (thread0 (.trap ⟨0, 0⟩ 7) (ccOne { thr [] with tvec := 0x203 })).map (fun t => (t.epc, t.cause, t.tval, t.inh, t.pc)) =
      some (0x104, 5, 7, true, 0x200) ∧
    (thread0 (.trap ⟨0, 0⟩ 7) (ccOne (thr []))).map (fun t => t.st) = some .halt := by decide +kernel
/-- R313: CSRW of SCRATCH answers the old value and governs after 2 clk. -/
theorem test_csrw : (thread0 (.csrw ⟨0, 0⟩ 4 1 5) (ccOne { thr [(1, 8)] with scratch := 3 })).map (fun t => ((t.commit 2).rd 4, t.scratch, t.csrPend)) =
    some (3, 3, [⟨2, 5, 8⟩]) := by decide +kernel
/-- R155: a misaligned load of the buffer window traps MISALIGN with the address. -/
theorem test_misaligned : (thread0 (.ld4 ⟨0, 0⟩ 4 1 2) (ccOne { thr [(1, 0xC000000000000000)] with tvec := 0x200 })).map (fun t => (t.cause, t.tval, t.epc)) =
    some (1, 0xC000000000000002, 0x100) := by decide +kernel
/-- R282: LD1 of 0x80 in buffer A sign-extends after 4 clk, LD1Z does not. -/
theorem test_ld1 :
    let s := inSlot (region1 { Core.empty with thr := [(0, thr [(1, 0xC000000001000000)])], bufA := [(5, 0x80)] })
    after (.ld1 ⟨0, 0⟩ 4 1 5) s 4 4 = some (0x104, 0xFFFFFFFFFFFFFF80) ∧ after (.ld1z ⟨0, 0⟩ 4 1 5) s 4 4 = some (0x104, 0x80) := by decide +kernel
/-- R283: ST2 writes two bytes, little-endian. -/
theorem test_st2 : (match exec (.st2 ⟨0, 0⟩ 2 1 6) (ccOne (thr [(1, 0xC000000002000000), (2, 0x11223344)])) with
    | .next t => t.bufRead 0 0 2 5 4
    | _ => []) = [0, 0x44, 0x33, 0] := by decide +kernel
/-- R288: AMADD of 4 bytes wraps in its size and answers the old value. -/
theorem test_amadd :
    (match exec (.amadd ⟨0, 0⟩ 4 1 2 0 1 2) (inSlot (region1
      { Core.empty with thr := [(0, thr [(1, 0xC000000000000000), (2, 3)])], bufW := [(0, 0xFE), (1, 0xFF), (2, 0xFF), (3, 0xFF)] })) with
    | .next t => (t.bufRead 0 0 0 0 5, ((t.thread 0 0 0).commit 4).rd 4)
    | _ => ([], 0)) = ([1, 0, 0, 0, 0], 0xFFFFFFFFFFFFFFFE) := by decide +kernel

/-! Single steps: nodes -/

/-- A consume token of a kind at a port of node 0, on context 7 and colour 0. -/
def opnd (p : BitVec 2) (k : TokKind) (y : Payload) : Held := ⟨{ Token.mk0 k 7 0 0 y with port := p }, .general, .none⟩

/-- An element with operands at node 0, in the focus; colour 0 is live for context 7. -/
def nodeOne (el : Nat) (e : Elem) (ops : List Held) : State :=
  let x : Elem := { e with used := true, nrec := 1, npool := 8, pool := ops }
  let s := inSlot { region1 { Core.empty with elems := [(el, x)] } with next := 1, owners := [⟨0, 7⟩] }
  { s with focus := { s.focus with elem := el, ctx := 7 } }

/-- A header with a match mode, its first destination node 3 of element 20, port L. -/
def h1 (mm : BitVec 2) : NodeHd := ⟨mm, 0, ⟨0, 3, 0, 20⟩, ⟨3, 0, 0, 0⟩⟩

/-- A header with two destinations: ports L and R of node 3. -/
def h2 (mm : BitVec 2) : NodeHd := ⟨mm, 0, ⟨0, 3, 0, 20⟩, ⟨1, 3, 0, 20⟩⟩

/-- What an instruction puts in flight: port, kind and payload. -/
def sent (i : Instr) (s : State) : Option (List (BitVec 2 × TokKind × Payload)) :=
  match exec i s with
  | .next t => (t.region 0).map (fun r => r.flight.map (fun f => (f.tok.port, f.tok.kind, f.tok.pay)))
  | _ => none

/-- The element of the focus after an instruction. -/
def elemAfter (i : Instr) (s : State) : Option Elem :=
  match exec i s with
  | .next t => (t.region 0).map (fun r => r.elem s.focus.core s.focus.elem)
  | _ => none

/-- A SCALAR operand. -/
def sc (p : BitVec 2) (v : Word) : Held := opnd p .scalar (.word v)

/-- The bytes of FP32 lanes. -/
def lanes (l : List Nat) : List Byte := l.flatMap (leOf 4)

/-- R329: a monadic SADD adds its sign-extended immediate. -/
theorem test_sadd : sent (.sadd (h1 0) 0xFFFFFFFF) (nodeOne 16 Elem.empty [sc 0 5]) = some [(0, .scalar, .word 4)] := by decide +kernel
/-- R330: SCMP compares as signed under code 2, as unsigned under code 4. -/
theorem test_scmp : sent (.scmp (h1 1) 2) (nodeOne 16 Elem.empty [sc 0 0xFFFFFFFFFFFFFFFF, sc 1 1]) = some [(0, .scalar, .word 1)] ∧
    sent (.scmp (h1 1) 4) (nodeOne 16 Elem.empty [sc 0 0xFFFFFFFFFFFFFFFF, sc 1 1]) = some [(0, .scalar, .word 0)] := by decide +kernel
/-- R331: 1.5 + 2.25 in FP32. -/
theorem test_sfadd : sent (.sfadd (h1 1) 0) (nodeOne 16 Elem.empty [sc 0 0x3FC00000, sc 1 0x40100000]) = some [(0, .scalar, .word 0x40700000)] := by decide +kernel
/-- R321: STEER sends the value to the first destination when bit 0 of R is 1, and NIL to the other. -/
theorem test_steer : sent (.steer (h2 1)) (nodeOne 16 Elem.empty [sc 0 5, sc 1 3]) = some [(0, .scalar, .word 5), (1, .nil, .none)] ∧
    sent (.steer (h2 1)) (nodeOne 16 Elem.empty [sc 0 5, sc 1 2]) = some [(1, .scalar, .word 5), (0, .nil, .none)] := by decide +kernel
/-- R161: NIL before EOS; a FAULT operand fires alone. -/
theorem test_operand_class : sent (.sadd (h1 1) 0) (nodeOne 16 Elem.empty [opnd 0 .nil .none, opnd 1 .eos .none]) = some [(0, .nil, .none)] ∧
    sent (.sadd (h1 1) 0) (nodeOne 16 Elem.empty [opnd 1 .fault .none]) = some [(0, .fault, .none)] := by decide +kernel
/-- R164: a dyadic firing takes 2 from its colour's count and its emission adds 1. -/
theorem test_counts : (match exec (.sadd (h1 1) 0) (nodeOne 16 Elem.empty [sc 0 5, sc 1 3]) with
    | .next t => (t.region 0).map (fun r => r.sum 0)
    | _ => none) = some (-1) := by decide +kernel
/-- R324: LOOPN with a count of 0 sends its value past the loop; with 3 it admits colour 1 and sends the body its first token. -/
theorem test_loopn : sent (.loopn (h2 0) 0) (nodeOne 16 Elem.empty [sc 0 5]) = some [(1, .scalar, .word 5)] ∧
    sent (.loopn (h2 0) 3) (let s := nodeOne 16 { Elem.empty with ecw := [(4, 2)] } [sc 0 5]; s.onRegion 0 (fun r => { r with l := 2 })) =
      some [(0, .scalar, .word 0x500000000)] := by decide +kernel
/-- R333: VADD of 8 lanes: 1 + 2, and infinity minus infinity is a NaN with FNAN. -/
theorem test_vadd :
    let s := nodeOne 16 Elem.empty
      [opnd 0 .tile (.bytes (lanes [0x3F800000, 0x7F800000, 0, 0, 0, 0, 0, 0])), opnd 1 .tile (.bytes (lanes [0x40000000, 0xFF800000, 0, 0, 0, 0, 0, 0]))]
    sent (.vadd (h1 1) v0) s = some [(0, .tile, .bytes (lanes [0x40400000, 0x7FC00000, 0, 0, 0, 0, 0, 0]))] ∧
    (elemAfter (.vadd (h1 1) v0) s).map (fun e => e.estat) = some flFNAN := by decide +kernel
/-- R337, its worked example: one block of FP4 E2M1. -/
theorem test_vquant :
    let s := nodeOne 16 Elem.empty [opnd 0 .tile (.bytes (lanes [0x3F400000, 0xC0400000, 0x41200000, 0x3DCCCCCD, 0, 0xBF000000, 0x40B00000, 0x40000000]))]
    sent (.vquant (h2 0) { v0 with ofmt := 8, md := 1 }) s =
      some [(0, .tile, .bytes [0xB1, 0x06, 0x80, 0x25]), (1, .tile, .bytes (0x80 :: List.replicate 7 0))] ∧
    (elemAfter (.vquant (h2 0) { v0 with ofmt := 8, md := 1 }) s).map (fun e => e.estat) = some flFUFL := by decide +kernel
/-- R338: VROWMAX of a row writes the largest lane everywhere. -/
theorem test_vrowmax :
    sent (.vrowmax (h1 0) v0) (nodeOne 16 Elem.empty [opnd 0 .tile (.bytes (lanes [0x3F800000, 0xC0000000, 0x40000000, 0, 0, 0, 0, 0]))]) =
      some [(0, .tile, .bytes (lanes (List.replicate 8 0x40000000)))] := by decide +kernel
/-- R236, its worked example: the exact sum 3 of a row is rounded once, then added to 2^24. -/
theorem test_mma :
    let b := lanes [0x45800000, 0x3F800000, 0x3F800000, 0x3F800000, 0x45800000, 0, 0, 0]
    let a := lanes [0x45800000, 0x3F800000, 0x3F800000, 0x3F800000, 0xC5800000, 0, 0, 0]
    let me : MeSt := { MeSt.start with slots := [(4, ⟨mwrite [] 0 b, true, false⟩)], acc := [(0, ⟨[(0, 0x4B800000)], some 7, 0⟩)] }
    (elemAfter (.mma (h1 0) ⟨4, 0, 0, 0⟩) (nodeOne 0 { Elem.empty with me := me } [opnd 0 .arow (.bytes a)])).map (fun e => tget (e.me.row 0).w 0 0) =
      some 0x4B800002 := by decide +kernel
/-- R347: MCLAIM of two slots; a slot claimed already is an operator fault CLAIMED. -/
theorem test_mclaim :
    (elemAfter (.mclaim (h1 0) ⟨3, 0, 0, 1⟩) (nodeOne 0 Elem.empty [sc 0 1])).map (fun e => (e.me.slot 3, e.me.slot 4, e.me.slot 5)) =
      some (⟨[], true, false⟩, ⟨[], true, false⟩, ⟨[], false, false⟩) ∧
    sent (.mclaim (h1 0) ⟨3, 0, 0, 1⟩) (nodeOne 0 { Elem.empty with me := { MeSt.start with slots := [(4, ⟨[], true, false⟩)] } } [sc 0 1]) =
      some [(0, .fault, .none)] := by decide +kernel

/-- The shape of R363's worked example: w0 x0 + w1 x1. -/
def shape5 : Memory :=
  mwrite [] 320 (leOf 4 0x82008100 ++ leOf 4 0x83018101 ++ List.replicate 24 0 ++ leOf 4 0x00028040 ++ leOf 4 0x00040000 ++ leOf 4 0x00100000)

/-- Its registers before: SPF32 0.5, 0.75, 0.5, 0.25, and 1.0 at the outside of the root. -/
def regs5 : Table W32 := [(1, 0xFFFF8000), (2, 0xFFFFC000), (17, 0xFFFF8000), (19, 0xFFFE8000), (256, 0x00008000)]

/-- R364, its worked example: SPUP gives 0.5. -/
theorem test_spup :
    let s := nodeOne 32 { Elem.empty with nser := 256, shapes := shape5, se := regs5 } [sc 0 0]
    (elemAfter (.spup (h1 0) ⟨5, 0, 0, 1, 0⟩) s).map (fun e => e.seReg 0) = some 0xFFFF8000 ∧
    sent (.spup (h1 0) ⟨5, 0, 0, 1, 0⟩) s = some [(0, .scalar, .word 0xFFFF8000)] := by decide +kernel
/-- R365, its worked example: SPDN gives each leaf its outside. -/
theorem test_spdn :
    (elemAfter (.spdn (h1 0) ⟨5, 0, 0, 1, 0⟩) (nodeOne 32 { Elem.empty with nser := 256, shapes := shape5, se := tset regs5 0 0xFFFF8000 } [sc 0 0])).map
      (fun e => (e.seReg 257, e.seReg 258, e.seReg 273, e.seReg 275)) = some (0xFFFFC000, 0xFFFF8000, 0xFFFE8000, 0xFFFF8000) := by decide +kernel

/-! The manual's tables of numbers -/

/-- The table after R234: conversions to FP4 E2M1 (code 8), FP8 E4M3 (4) and E5M2 (5). -/
theorem test_narrow_conversions :
    convFmt [] 8 rne (f32 0x40A00000) = (6, 0) ∧ convFmt [] 8 ⟨2, 0⟩ (f32 0x40A00000) = (7, 0) ∧ convFmt [] 8 rne (f32 0x40E00000) = (7, flCSAT) ∧
    convFmt [] 8 rne (f32 0x3E4CCCCD) = (0, flFUFL) ∧ convFmt [] 8 rne (f32 0xBE800000) = (8, flFUFL) ∧ convFmt [] 8 rne .nan = (0, flCNAN) ∧
    convFmt [] 4 rne (f32 0x43FA0000) = (0x7E, flCSAT) ∧ convFmt [] 5 rne (f32 0x4788B800) = (0x7C, flFOVF) ∧
    convFmt [] 5 ⟨1, 0⟩ (f32 0x4788B800) = (0x7B, 0) := by decide +kernel
/-- The table after R245: SPF32 products and sums. -/
theorem test_spf32 :
    spMul true 0x0001C000 0xFFFEA000 = (0xFFFFF000, 0) ∧ spAdd true 0x0001C000 0xFFFEA000 = (0x0001D400, 0) ∧ spMul true 0x00008001 0x0000C000 = (0x0000C002, 0) ∧
    spMul true 0x00008001 0x00008001 = (0x00008002, 0) ∧ spMul true 0x7FFF8000 0x00018000 = (0x7FFFFFFF, flSPSAT) ∧
    spMul true 0x80008000 0xFFFF8000 = (0, flSPUFL) := by decide +kernel
/-- R246: 2 to an integer is exact; 128 overflows. -/
theorem test_vexp2 : vexp2 0x40400000 = (0x41000000, 0) ∧ vexp2 0x43000000 = (0x7F800000, flFOVF) := by decide +kernel
/-- R50, its worked example: 1 + 2^24 - 2^24 in order of the inputs is +0. -/
theorem test_meld_sum :
    let i (v : W32) : MeldIn := { MeldIn.start with ents := [(0x400, v)] }
    let m : Meld := { ten := 0, red := 0, nin := 3, vti := false, vto := false, dth := 16, up := none, mcg := 0,
                      ins := [(0, i 0x3F800000), (1, i 0x4B800000), (2, i 0xCB800000)], next := 0, pseq := 0, movf := false, mnan := false, coll := 0, last := 0 }
    (m.segment 0).1 = [(0x400, 0)] := by decide +kernel

/-! Single steps: memory, barriers, elision, resets -/

/-- Tenant 4 of R97's worked example: a table at 0x20_0010_0000 on stack n2 that maps the 2 MiB page of VA 0x1234_5660_0000, in a near window. -/
def mapped : State :=
  { State.reset with
    mg := { Mgmt.reset with ptroot := [(4, 0x2000100001)], twin := [(64, 0x8000010000008000)] }
    ms := { MemSys.reset with hbm := [(2, mwrite (mwrite (mwrite [] 0x112340 (leOf 8 0x0000002000200001)) 0x2000A8 (leOf 8 0x0000002000200101))
      0x200198 (leOf 8 0x00000204000000C3))] } }

/-- R94, R97, the worked example: the load reaches 0x20_4018_9ABC, an atomic lacks PA. -/
theorem test_translate :
    (match mapped.translate 4 0x123456789ABC needR 7 with | .ok l => some l | .error _ => none) = some (.hbm 2 0x40189ABC) ∧
    (match mapped.translate 4 0x123456789ABC needRWA 7 with | .ok _ => 0 | .error f => f.cls) = fcPERMIT := by decide +kernel

/-- The state after an instruction. -/
def nextOf (i : Instr) (s : State) : State :=
  match exec i s with
  | .next t => t
  | _ => State.reset

/-- R203, R307, the worked example after R200: INIT of one arrival and six sectors as it reads in memory; the last ARRIVE flips. -/
theorem test_tbinit :
    let s := nextOf (.tbinit ⟨0, 0⟩ 1 2) (ccOne (thr [(1, 0xC000000001002000), (2, 0x600001)]))
    (leNum (s.bufRead 0 0 1 0x2000 8), leNum (s.bufRead 0 0 1 0x2008 8)) = (0x0000600001000010, 0x60000) := by decide +kernel

/-- An element whose arc to element 20 may elide. -/
def eliding : Elem := { Elem.empty with used := true, ecw := [(2, 0x100000)], skips := [⟨0, 0, 7, 22, 2⟩] }

/-- R179, the worked example: two elided tiles, then a tile that takes SKIP 2 with it; a further zero tile is elided. -/
theorem test_elision :
    let r := region1 { Core.empty with elems := [(3, eliding)] }
    let t : Token := Token.mk0 .tile 7 23 0 (.bytes [1])
    ((r.send 0 3 0 0 (h1 0).d0 t false).flight.map (fun f => (f.tok.colour, f.tok.skip)), ((r.send 0 3 0 0 (h1 0).d0 t false).elem 0 3).skips) = ([(23, 2)], []) ∧
    ((r.send 0 3 0 0 (h1 0).d0 t true).flight, ((r.send 0 3 0 0 (h1 0).d0 t true).elem 0 3).skips) = ([], [⟨0, 0, 7, 23, 3⟩]) := by decide +kernel

/-- R104, R410: a record whose CMAP bytes above NCORE are not 0xFF refuses every command with BADBIND. -/
theorem test_badbind : (let t := nextOf (.release 3) { State.reset with mg := { Mgmt.reset with slq := [(3, 5, 0)] } }; (t.mg.slq, (t.slot 3).lastst)) =
    ([], 0x24) := by decide +kernel
/-- R174: a detection time below 10 is ignored; 10 is taken. -/
theorem test_dlkcfg : ((nextOf (.dlkcfgWrite 9) State.reset).mg.dlkK, (nextOf (.dlkcfgWrite 10) State.reset).mg.dlkK) = (20, 10) := by decide +kernel
/-- R76: PLIMIT outside 500 to 3,000 W is ignored; VERSION answers 1. -/
theorem test_sideband : ((nextOf (.plimitWrite 499) State.reset).mg.plimit, (nextOf (.plimitWrite 500) State.reset).mg.plimit,
    (nextOf .version State.reset).hostData) = (3000, 500, [1]) := by decide +kernel
/-- R37, R74: coordinates outside the domain are refused whole. -/
theorem test_domcfg : ((nextOf (.domcfgWrite 0x3340) State.reset).mg.x, (nextOf (.domcfgWrite 0x3332) State.reset).mg.y) = (0, 2) := by decide +kernel

/-! A step runs the decoded instruction -/

/-- A placed word runs as the first instruction after reset. -/
theorem test_step_word : (match step (State.reset.withFetchWord 32 0x048C0005) with
    | .next t => ((t.thread 0 0 0).pc, ((t.thread 0 0 0).commit 9).rd 3)
    | _ => (0, 0)) = (4, 5) := by decide +kernel
/-- A placed node record fires. -/
theorem test_step_node : (match step (State.reset.withFetchWord 96 0x200C00000300000000000007) with
    | .next t => (t.arbOf 0 0 16).map (fun a => a.run)
    | _ => none) = some 1 := by decide +kernel

/-! Witnesses of the statements' hypotheses, each at values on the boundary of its ranges -/

/-- The region of one thread. -/
def rgn (t : Thread) : Region := region1 { Core.empty with thr := [(0, t)] }

/-- The focus's thread in a region of slot 0. -/
def ccAt (r : Region) : Cc := { slot := 0, core := 0, thr := 0, r := r, c := r.core 0, t := (r.core 0).thread 0 }

theorem ccOf_inSlot (r : Region) : (inSlot r).ccOf = some (ccAt r) := rfl

/-- What a value of a computation that can fail satisfies. -/
theorem ok_of {ε α : Type} (x : Except ε α) (p : α → Bool) (h : (match x with | .ok v => p v | .error _ => false) = true) : ∃ v, x = .ok v ∧ p v = true := by
  cases x with
  | ok v => exact ⟨v, rfl, h⟩
  | error e => cases h

/-- What an optional value satisfies. -/
theorem some_of {α : Type} (x : Option α) (p : α → Bool) (h : (match x with | some v => p v | none => false) = true) : ∃ v, x = some v ∧ p v = true := by
  cases x with
  | some v => exact ⟨v, rfl, h⟩
  | none => cases h

/-- What a unit that fires satisfies. -/
theorem fires_of (s : State) (h : NodeHd) (p : Fire → Bool) (e : (match s.startFiring h with | some (.normal, f) => p f | _ => false) = true) :
    ∃ f, s.startFiring h = some (.normal, f) ∧ p f = true := by
  split at e
  · rename_i f hf; exact ⟨f, hf, e⟩
  · cases e

theorem witness_AluRegisterResult : (ccOne (thr [])).ccOf = some (ccAt (rgn (thr []))) := rfl

theorem witness_ImmediateResult : (ccOne (thr [])).ccOf = some (ccAt (rgn (thr []))) := rfl

/-- R285: a target of JALR that is aligned; R286: a body of one word. -/
theorem witness_ControlFlowResult :
    let k := ccAt (rgn (thr [(1, 0x8000000000000000)]))
    (ccOne (thr [(1, 0x8000000000000000)])).ccOf = some k ∧ ((k.t.rd 1).toInt + (0x1000 : BitVec 13).toInt) % 4 = 0 ∧ (1 : BitVec 13) ≠ 0 :=
  ⟨rfl, by decide +kernel⟩

/-- A thread with a handler at 4, the lowest. -/
def thrH : Thread := { thr [(1, 1), (2, 0xC000000000600000), (3, 0xBFFFFFFFFFFFFFF8), (4, 0xC00000000217FFF8), (5, 0xC00000000217FFFC)] with tvec := 7 }

theorem witness_SystemGroupResult :
    let s := ccOne thrH
    let k := ccAt (rgn thrH)
    s.ccOf = some k ∧ (ccOne { thrH with event := true }).ccOf = some (ccAt (rgn { thrH with event := true })) ∧
    (k.t.inh = false ∧ k.t.tvec &&& ~~~3#64 ≠ 0#64) ∧ k.t.event = false ∧ (s.csrRead k 0x105).isSome = true ∧
    (s.csrRead k 0x104).isSome = true ∧ csrWritable 0x104 = true ∧ (s.csrRead k 0x00A).isSome = true ∧ csrWritable 0x00A = true ∧
    (ccAt (rgn { thrH with event := true })).t.event = true :=
  ⟨rfl, rfl, by decide +kernel⟩

/-- Addresses misaligned for 2, 4 and 8 bytes, the first byte behind buffer W, a CSR that is not listed and one that is read only; and a
thread inside its handler, and one whose vector's base is 0. -/
theorem witness_SynchronousTrapEntry :
    let s := ccOne thrH
    let k := ccAt (rgn thrH)
    s.ccOf = some k ∧ (k.t.inh = false ∧ k.t.tvec &&& ~~~3#64 ≠ 0#64) ∧
    (k.t.rd 1 + (0 : BitVec 13).signExtend 64).toNat % 2 ≠ 0 ∧ (k.t.rd 1 + (1 : BitVec 13).signExtend 64).toNat % 4 ≠ 0 ∧
    (k.t.rd 1 + (3 : BitVec 13).signExtend 64).toNat % 8 ≠ 0 ∧ (k.t.rd 1).toNat % 2 ^ (3 : BitVec 2).toNat ≠ 0 ∧
    (isWindow (k.t.rd 2 + (0 : BitVec 13).signExtend 64) = true ∧ k.r.window (k.t.rd 2 + (0 : BitVec 13).signExtend 64) 1 = none) ∧
    s.csrRead k 6 = none ∧ csrWritable 3 = false ∧
    (ccAt (rgn { thrH with inh := true })).t.inh = true ∧ (ccAt (rgn { thrH with tvec := 3 })).t.tvec &&& ~~~3#64 = 0#64 :=
  ⟨rfl, by decide +kernel⟩

/-- A thread with a handler at 4. -/
def thrR (regs : Table Word) : Thread := { thr regs with tvec := 7 }

/-- For the units: elements 17 of core 0 and 16 of core 1, which are none; a layout number and a configuration word that are refused; headers of kinds that INJ and INJT do not take, with
an ACT of 3, and to core 1; operands that are misaligned or behind their buffer; the exit condition and core behind the last. -/
theorem witness_SynchronousTrapEntry_units :
    let es : Table Elem := [(16, { Elem.empty with used := true }), (40, { Elem.empty with used := true })]
    let k (regs : Table Word) : Cc := ccAt (region1 { Core.empty with thr := [(0, thrR regs)], elems := es })
    let none_ (v : Word) (ae : Bool) : Bool := decide ¬(v.toNat / 64 % 64 < (k []).r.ncore ∧ ((k []).r.elem (v.toNat / 64 % 64) (v.toNat % 64)).used = true ∧ (ae = true → elemClass (v.toNat % 64) = 3))
    let head (v : Word) : Bool := decide (v.toNat / 2 ^ 58 % 4 ≠ 3 ∧ v.toNat / 2 ^ 56 % 4 ≠ 3 ∧ v.toNat / 2 ^ 8 % 16 = 0 ∧ (v.toNat / 2 ^ 60 = 6 → 1 ≤ v.toNat % 256 ∧ v.toNat % 256 ≤ 0x11))
    let out (v : Word) (n : Nat) : Bool := decide (isWindow v = true ∧ (k []).r.window v n = none ∧ v.toNat % n = 0)
    (inSlot (k [(1, 17)]).r).ccOf = some (k [(1, 17)]) ∧ (k []).t.st = .run ∧ (none_ 17 false ∧ none_ 64 false ∧ none_ 16 true ∧ ¬none_ 16 false ∧ ¬none_ 40 true) ∧
    (layoutOk 4 12 = false ∧ layoutOk 4 11 = true ∧ (4 : BitVec 3).toNat < 5) ∧
    ((k []).r.live = 0 ∧ ((k []).r.elem 0 16).cfgWait = [] ∧ (k []).r.cfgwOk 0 16 0 0xFF = false) ∧
    ((k []).r.ncore ≤ (64 : Word).toNat / 64 % 64) ∧
    (0x7000000000000000 : Word).toNat / 2 ^ 60 ∉ [0, 4, 5, 6, 8] ∧ ¬head 0x0C00000000000000 ∧ ¬head 0x6000000000000012 ∧ head 0x6000000000000011 ∧
    (head 0x4000004000000000 ∧ (0x4000004000000000 : Word).toNat / 2 ^ 60 ∈ [0, 4, 5, 6, 8] ∧ (k []).r.ncore ≤ (0x4000004000000000 : Word).toNat / 2 ^ 38 % 64) ∧
    ((0x3000000000000000 : Word).toNat / 2 ^ 60 = 3 ∧ head 0x3000000000000000 ∧ (0 : Nat) < (k []).r.ncore ∧ (16 : Word).toNat % 32 ≠ 0 ∧ (32 : Word).toNat % 32 = 0 ∧
      injtBytes 3 7 31 = some 8192 ∧ (k []).r.window 32 8192 = none) ∧
    ((32 : Word).toNat % 64 ≠ 0 ∧ (8 : Word).toNat % 16 ≠ 0 ∧ (64 : Word).toNat % 64 = 0 ∧ (k []).r.window 64 16 = none ∧ 6 ≤ (6 : BitVec 3).toNat ∧ (k []).r.ncore ≤ (1 : Word).toNat % 64) ∧
    (∀ n ∈ [1, 2, 4, 8], out 0xC000000000600000 n) ∧ (0x24 ≤ (0x24 : BitVec 8).toNat ∧ (3 : BitVec 2) ≠ 2 ∧ (1 : BitVec 5) ≠ 0) :=
  ⟨rfl, by decide +kernel⟩

/-- Writes to register 1 that become readable at 4, 5, 5 and 6, of which the later of the two at 5 is read then; none of register 2. -/
theorem witness_RegisterReadAfterLatency :
    let t : Thread := { thr [] with pend := [⟨5, 1, 7⟩, ⟨4, 1, 9⟩, ⟨5, 1, 8⟩, ⟨6, 1, 1⟩] }
    let mine (n : BitVec 5) (j : Nat) (q : RegPend) : Prop := t.pend[j]? = some q ∧ q.reg = n ∧ q.ready ≤ 5
    (1 : BitVec 5) ≠ 0 ∧ mine 1 2 ⟨5, 1, 8⟩ ∧ (∀ i < 4, ∀ q, t.pend[i]? = some q → q.reg = 1 → q.ready ≤ 5 → q.ready < 5 ∨ q.ready = 5 ∧ i ≤ 2) ∧
      (t.pend.all (fun q => q.reg != 2)) = true := by
  refine ⟨by decide, ⟨rfl, by decide, by decide⟩, fun i hi q h a b => ?_, by decide⟩
  match i, hi, h with
  | 0, _, h | 1, _, h | 2, _, h | 3, _, h => cases h; revert b; decide

theorem witness_RegisterInstructionFrame : ∃ t, (ccOne (thr [])).ccOf = some (ccAt (rgn (thr []))) ∧
    exec (.sltiu ⟨0, 0⟩ 31 31 0) (ccOne (thr [])) = .next t := ⟨_, rfl, rfl⟩

/-- The last bytes of buffer C, by size. -/
theorem witness_BufferLoadResult :
    let k := ccAt (rgn thrH)
    (ccOne thrH).ccOf = some k ∧ (k.r.window (k.t.rd 4 + (7 : BitVec 13).signExtend 64) 1 = some (2, 0x17FFFF)) ∧
    (k.r.window (k.t.rd 4 + (6 : BitVec 13).signExtend 64) 2 = some (2, 0x17FFFE) ∧ (k.t.rd 4 + (6 : BitVec 13).signExtend 64).toNat % 2 = 0) ∧
    (k.r.window (k.t.rd 4 + (4 : BitVec 13).signExtend 64) 4 = some (2, 0x17FFFC) ∧ (k.t.rd 4 + (4 : BitVec 13).signExtend 64).toNat % 4 = 0) ∧
    (k.r.window (k.t.rd 4 + (0 : BitVec 13).signExtend 64) 8 = some (2, 0x17FFF8) ∧ (k.t.rd 4 + (0 : BitVec 13).signExtend 64).toNat % 8 = 0) :=
  ⟨rfl, by decide +kernel⟩

theorem witness_BufferStoreResult :
    let k := ccAt (rgn thrH)
    (ccOne thrH).ccOf = some k ∧ (k.r.window (k.t.rd 5 + (3 : BitVec 13).signExtend 64) 1 = some (2, 0x17FFFF)) ∧
    (k.r.window (k.t.rd 5 + (2 : BitVec 13).signExtend 64) 2 = some (2, 0x17FFFE) ∧ (k.t.rd 5 + (2 : BitVec 13).signExtend 64).toNat % 2 = 0) ∧
    (k.r.window (k.t.rd 5 + (0 : BitVec 13).signExtend 64) 4 = some (2, 0x17FFFC) ∧ (k.t.rd 5 + (0 : BitVec 13).signExtend 64).toNat % 4 = 0) ∧
    (k.r.window (k.t.rd 5 + (0x1FFC : BitVec 13).signExtend 64) 8 = some (2, 0x17FFF8) ∧ (k.t.rd 5 + (0x1FFC : BitVec 13).signExtend 64).toNat % 8 = 0) :=
  ⟨rfl, by decide +kernel⟩

/-- A window that opens now; a release of another core that lies with the thread in each other's domain. -/
theorem witness_TenantAccessBegins_fences :
    let s := (inSlot (rgn (thr []))).withMs (fun m => { m with winDue := some 0, views := [{ thr := (0, 0, 0), seen := [3], got := [⟨0, 1, 4, [5]⟩], rels := [], sem := none }] })
    s.ccOf = some (ccAt (rgn (thr []))) ∧ s.windowOpen = true ∧ (State.reset).windowOpen = false ∧ 4 ≤ (4 : BitVec 3).toNat ∧
      (∃ x ∈ (s.view (0, 0, 0)).got, s.syncs (0, 0, 0) 4 x = true) ∧ (s.view (0, 0, 0)).seen ≠ [] ∧ (State.reset.view (0, 0, 0)).seen = [] :=
  ⟨rfl, by decide +kernel⟩

/-- The last addresses below the buffer window. -/
theorem witness_TenantAccessBegins :
    let k := ccAt (rgn thrH)
    (ccOne thrH).ccOf = some k ∧ (isWindow (k.t.rd 3 + (0 : BitVec 13).signExtend 64) = false ∧ (k.t.rd 3 + (0 : BitVec 13).signExtend 64).toNat % 8 = 0) ∧
    (isWindow (k.t.rd 3) = false ∧ (k.t.rd 3).toNat % 2 ^ (3 : BitVec 2).toNat = 0) ∧ ((4 : BitVec 3) = 1 ∨ (4 : BitVec 3) = 3 ∨ (4 : BitVec 3) = 4) :=
  ⟨rfl, by decide +kernel⟩

theorem witness_BufferAtomicResult :
    let k := ccAt (rgn thrH)
    (ccOne thrH).ccOf = some k ∧ k.r.window (k.t.rd 5) (2 ^ (2 : BitVec 2).toNat) = some (2, 0x17FFFC) ∧ (k.t.rd 5).toNat % 2 ^ (2 : BitVec 2).toNat = 0 ∧
    k.r.window (k.t.rd 4) (2 ^ (3 : BitVec 2).toNat) = some (2, 0x17FFF8) ∧ (k.t.rd 4).toNat % 2 ^ (3 : BitVec 2).toNat = 0 :=
  ⟨rfl, by decide +kernel⟩

theorem witness_StoreThenLoadReturnsValue :
    (ccOne (thr [])).ccOf = some (ccAt (rgn (thr []))) ∧ 2 < 3 ∧ 0x17FFF8 % 8 = 0 ∧ 8 ∈ [1, 2, 4, 8] := ⟨rfl, by decide +kernel⟩

/-- A region with one thread and elements. -/
def rgnE (regs : Table Word) (es : Table Elem) : Region := region1 { Core.empty with thr := [(0, thr regs)], elems := es }

/-- An address generator whose boundary counter is 2 ahead, at no boundary. -/
def ae0 (queue : List LayoutWord) : Elem := { Elem.empty with used := true, npool := 64, ecw := [(0, 0x6000FF00), (4, 5), (6, 0x101)], ae := { AeSt.start with sbc := 2, atBound := false, queue := queue } }

/-- The element named by its number; SWAIT for a boundary counted already, and for the next; a DLQ of a colour and one without operand; the least
GLOAD item that traps and a DLQ with an operand that it does not take, of a thread with a handler. -/
theorem witness_StatusReadResult :
    let k := ccAt (rgnE [(1, 40), (2, 2), (3, 3)] [(40, ae0 [])])
    let e := k.r.elem 0 40
    let kh := ccAt (rgn thrH)
    (inSlot (rgnE [(1, 40), (2, 2), (3, 3)] [(40, ae0 [])])).ccOf = some k ∧ (ccOne thrH).ccOf = some kh ∧
    k.target (k.t.rd 1) none = .ok (0, 40) ∧ k.target (k.t.rd 1) (some 3) = .ok (0, 40) ∧ k.t.st = .run ∧ kh.t.st = .run ∧
    (kh.t.inh = false ∧ kh.t.tvec &&& ~~~3#64 ≠ 0 ∧ 0x24 ≤ (0x24 : BitVec 8).toNat ∧ (3 : BitVec 2) ≠ 2 ∧ (1 : BitVec 5) ≠ 0) ∧
    (0x23 : BitVec 8).toNat < 0x24 ∧ (e.ae.sbc - BitVec.ofInt 16 ((k.t.rd 2).toInt + (0 : BitVec 13).toInt)).toNat < 2 ^ 15 ∧
    ¬(e.ae.sbc - BitVec.ofInt 16 ((k.t.rd 3).toInt + (0 : BitVec 13).toInt)).toNat < 2 ^ 15 :=
  ⟨rfl, rfl, rfl, rfl, by decide +kernel⟩

/-- A layout word to a layout queue with room for one more, and to a full one; a constant to a queue of 7, and of 8. -/
theorem witness_ElementCommandResult :
    let w : LayoutWord := ⟨0, 0, none, 0⟩
    let e1 : Elem := { ae0 (List.replicate 15 w) with pendK := List.replicate 7 ⟨0, 0, 0⟩ }
    let e2 : Elem := { ae0 (List.replicate 16 w) with pendK := List.replicate 8 ⟨0, 0, 0⟩ }
    let k1 := ccAt (rgnE [(1, 40), (2, 11)] [(40, e1)])
    let k2 := ccAt (rgnE [(1, 40), (2, 11)] [(40, e2)])
    let r3 : Region := rgnE [(1, 40), (2, 0)] [(40, { e1 with cfgWait := [⟨0, 0, 8, 0⟩] })]
    k1.target (k1.t.rd 1) none = .ok (0, 40) ∧ k1.t.st = .run ∧ (k1.r.elem 0 40).pendK.length < 8 ∧ ¬(k2.r.elem 0 40).pendK.length < 8 ∧
    (k1.r.live = 0 ∧ (k1.r.elem 0 40).cfgWait = [] ∧ k1.r.cfgwOk 0 40 5 0 = true) ∧
    (ccAt { rgnE [(1, 40)] [(40, e1)] with next := 1 }).r.live ≠ 0 ∧
    (elemClass 40 = 3 ∧ (4 : BitVec 3).toNat < 5 ∧ layoutOk 4 (k1.t.rd 2) = true ∧ (k1.r.elem 0 40).ae.atBound = false ∧
      (k1.r.elem 0 40).ae.queue.length < 16) ∧ ¬(k2.r.elem 0 40).ae.queue.length < 16 ∧
    (inSlot r3).region 0 = some r3 ∧ (r3.elem 0 40).cfgWait = [⟨0, 0, 8, 0⟩] ∧ (ccAt r3).r.live = 0 ∧
    (r3.putElem 0 40 { r3.elem 0 40 with cfgWait := [] }).cfgwOk 0 40 (8 : BitVec 4).toNat 0 = true :=
  ⟨rfl, by decide +kernel⟩

/-- A region with colours 0 live for context 7 and room for one more. -/
def rgnL (regs : Table Word) : Region := { rgnE regs [] with next := 1, l := 2, owners := [⟨0, 7⟩] }

/-- Headers of a SCALAR to port L of a live colour, of the colour NEXT, and of CFG; an entry link with one slot free and with none; injection
stalled; NEXT with L colours live; and AROW, VROW and a TILE of the largest shape, all at the last bytes of buffer A that hold them. -/
theorem witness_InjectionResult :
    let r : Region := rgnL [(1, 0x700000), (2, 0x701000), (3, 0x8000000000700000)]
    let k := ccAt r
    let t := tokenOf .scalar (k.t.rd 1) (.word 0)
    let u := tokenOf .scalar (k.t.rd 2) (.word 0)
    let c := tokenOf .cfg (k.t.rd 3) (.word 0)
    let f (y : Token) : Flight := { arc := .inject 0 0 y.core.toNat y.elem.toNat, sender := 0, tok := y, entered := true }
    let full (n : Nat) : Region := { r with flight := List.replicate n (f t) }
    (inSlot r).ccOf = some k ∧ k.t.st = .run ∧ bitsAt (k.t.rd 1).toNat 6 6 < k.r.ncore ∧
    ((inSlot (full 63)).mayEnter (full 63) 0 (f t) = true ∧ (inSlot (full 64)).mayEnter (full 64) 0 (f t) = false) ∧
    ((k.t.rd 1).toNat / 2 ^ 60 = 0 ∧ t.act ≠ 3 ∧ t.port ≠ 3 ∧ t.skip = 0 ∧ t.core.toNat < k.r.ncore ∧ k.r.stalled = false) ∧
    (k.r.isLive t.colour = true ∧ t.colour ≠ k.r.next ∧ k.r.owner t.colour = some t.ctx) ∧
    (u.act ≠ 1 ∧ u.colour = k.r.next ∧ k.r.live < k.r.l ∧ k.r.live < 256 ∧ k.r.isLive u.colour = false) ∧
    (ccAt { r with draining := true }).r.stalled = true ∧ (ccAt { r with l := 1 }).r.l ≤ (ccAt { r with l := 1 }).r.live ∧
    ((k.t.rd 3).toNat / 2 ^ 60 = 8 ∧ c.act = 0 ∧ c.port ≠ 3 ∧ c.skip = 0 ∧ k.r.owner c.colour = some c.ctx) ∧
    (let q := ccAt (rgnL [(1, 0x1000000000700000), (2, 0x2000000000700000), (3, 0x3000000000700000), (4, 0xC0000000012FFFE0), (5, 0xC0000000012FFF00),
        (6, 0xC0000000012FE000)]);
      ((q.t.rd 1).toNat / 2 ^ 60 = 1 ∧ (q.t.rd 4).toNat % 32 = 0 ∧ q.r.window (q.t.rd 4) 32 = some (1, 0x2FFFE0) ∧
        (tokenOf .arow (q.t.rd 1) (.bytes [])).ctx = 7) ∧
      ((q.t.rd 2).toNat / 2 ^ 60 = 2 ∧ (q.t.rd 5).toNat % 32 = 0 ∧ q.r.window (q.t.rd 5) 256 = some (1, 0x2FFF00)) ∧
      ((q.t.rd 3).toNat / 2 ^ 60 = 3 ∧ (q.t.rd 6).toNat % 32 = 0 ∧ q.r.window (q.t.rd 6) (4 * (31 + 1) * ((7 + 1) * 8)) = some (1, 0x2FE000)) ∧
      (let y := tokenOf .tile (q.t.rd 3) (.bytes (List.replicate 8192 0))
       q.r.isLive y.colour = true ∧ y.colour ≠ q.r.next ∧ q.r.owner y.colour = some y.ctx ∧ y.act ≠ 3 ∧ y.port ≠ 3 ∧ y.skip = 0 ∧
         y.core.toNat < q.r.ncore ∧ (inSlot q.r).mayEnter q.r 0 (f y) = true)) :=
  ⟨rfl, by decide +kernel⟩

/-- The thread first in the wait for NEXT and behind another; a colour that is neither live nor NEXT, and one of another context, of a thread with a handler. -/
theorem witness_InjectionResult_colours :
    let r : Region := { rgnL [] with cores := [(0, { Core.empty with thr := [(0, thrR [])] })] }
    let k := ccAt r
    let y := tokenOf .scalar 0x702000 (.word 0)
    (inSlot r).ccOf = some k ∧ r.injq.head? = none ∧ ({ r with injq := [(0, 1)] } : Region).injq.head? = some (0, 1) ∧ k.core = 0 ∧ k.thr = 0 ∧
    (k.r.isLive y.colour = false ∧ y.colour ≠ k.r.next ∧ y.act = 0) ∧ k.r.isLive 0 = true ∧ k.r.owner 0 ≠ some 8 ∧ k.t.inh = false ∧ k.t.tvec &&& ~~~3#64 ≠ 0#64 ∧
    (tokenOf .scalar 0x0400000000700000 (.word 0)).act = 1 := ⟨rfl, by decide +kernel⟩

theorem witness_PurgeResult :
    let k := ccAt (rgnL [(1, 0x100), (2, 0x101)])
    (inSlot (rgnL [(1, 0x100), (2, 0x101)])).ccOf = some k ∧ k.r.isLive ((k.t.rd 1).setWidth 8) = true ∧ k.r.isLive ((k.t.rd 2).setWidth 8) = false ∧ ¬((0 : BitVec 8) ∈ k.r.done) ∧
    (let r := { rgnL [] with done := [0] }; (0 : BitVec 8) ∈ r.done ∧ r.sum 0 = 0 ∧ r.isLive 0 = true) :=
  ⟨rfl, by decide +kernel⟩

/-- Channels in each state; a barrier in the last bytes of buffer W whose phase TBWAIT names, and one it does not. -/
theorem witness_ChannelAndBarrierResult :
    let cs : Table Chan := [(0, { Chan.idle with st := .err }), (1, { Chan.idle with st := .walk }), (2, { Chan.idle with st := .drain })]
    let r : Region := region1 { Core.empty with thr := [(0, thr [(1, 0xC0000000005FFFF0), (2, 1), (3, 0xFFFFFFFFFFFFFFC0)])], chans := cs }
    let k := ccAt r
    (inSlot r).ccOf = some k ∧ k.t.st = .run ∧ (k.t.rd 3).toNat % 64 = 0 ∧ (k.c.chan 0).st = .err ∧ (k.c.chan 15).st = .idle ∧ (k.c.chan 1).st = .walk ∧
    (k.c.chan 2).st = .drain ∧ (k.t.rd 1).toNat % 16 = 0 ∧ k.r.window (k.t.rd 1) 16 = some (0, 0x5FFFF0) ∧
    ((inSlot r).tbar 0 0 0 0x5FFFF0).phase ≠ (k.t.rd 2).toNat % 16 ∧
    ¬(((inSlot r).tbar 0 0 0 0x5FFFF0).phase ≠ (k.t.rd 0).toNat % 16 ∨ ((inSlot r).tbar 0 0 0 0x5FFFF0).flags % 2 = 1) :=
  ⟨rfl, by decide +kernel⟩

/-- The last exit condition and vector; a region with a colour live, and one that another thread is ending; threads that wait in WFE since region
start, in WFE, and in a queue. -/
theorem witness_SignalResult :
    let r : Region := region1 { Core.empty with thr := [(0, thr []), (2, { thr [] with st := .wfe false }), (3, { thr [] with st := .block .queue })] }
    let k := ccAt r
    let q : Region := { r with next := 1 }
    let x : Region := { r with exit := some (0, 1, 5) }
    (inSlot r).ccOf = some k ∧ (k.r.exit = none ∧ ((inSlot r).slot k.slot).st = 2 ∧ k.r.mayExit k.core k.thr = true) ∧ (5 : BitVec 3).toNat < 6 ∧
    ((ccAt q).r.exit = none ∧ (ccAt q).t.st = .run ∧ (ccAt q).r.mayExit 0 0 = false) ∧ ((ccAt x).r.exit = some (0, 1, 5) ∧ (0, 1) ≠ ((ccAt x).core, (ccAt x).thr)) ∧
    (bitsAt (k.t.rd 0).toNat 0 6 < k.r.ncore ∧ (0, 1) ≠ (k.core, k.thr)) ∧ ((inSlot r).thread 0 0 1).st = .wfe true ∧
    ((inSlot r).thread 0 0 2).st = .wfe false ∧ ((inSlot r).thread 0 0 3).st = .block .queue := ⟨rfl, by decide +kernel⟩

/-- Trap 3 alone pending, for thread 0, running and in each wait without bound. -/
theorem witness_AsynchronousTrapEntry :
    let c (x : ThState) : Core := { Core.empty with thr := [(0, { thr [] with ie := true, tvec := 4, st := x })], ccfg := 0, evpend := 8 }
    ∀ x ∈ [ThState.run, .wfe true, .wfe false, .block (.retry 1 2 3), .block .cfgw, .block .queue],
      (inSlot (region1 (c x))).region 0 = some (region1 (c x)) ∧ 3 < 4 ∧ (c x).evpend.getLsbD 3 = true ∧ (∀ j, j < 3 → (c x).evpend.getLsbD j = false) ∧
        (let t := (c x).thread (c x).ccfg.toNat; t.ie = true ∧ t.inh = false ∧ t.tvec &&& ~~~3#64 ≠ 0 ∧ t.st = x) := by decide +kernel

/-- A tile of one row of 8 lanes. -/
def tile8 (v : Nat) : Payload := .bytes (lanes (List.replicate 8 v))

/-- Units with a CFG operand at a VE and at an ME. -/
theorem witness_OperandClassRules_config :
    (∃ f, (nodeOne 16 Elem.empty [opnd 0 .cfg (.word 0)]).startFiring (h1 0) = some (.normal, f) ∧ decide (f.a.kind = .cfg ∧ elemClass f.elem = 1) = true) ∧
    ∃ f, (nodeOne 0 Elem.empty [opnd 0 .cfg (.word 0)]).startFiring (h1 0) = some (.normal, f) ∧ decide (f.a.kind = .cfg ∧ elemClass f.elem = 0) = true :=
  ⟨fires_of _ _ _ (by decide +kernel), fires_of _ _ _ (by decide +kernel)⟩

/-- The class of a unit that fires. -/
def cls (s : State) (h : NodeHd) : Option FireCls := (s.startFiring h).map (fun p => p.1)

theorem witness_OperandClassRules :
    cls (nodeOne 16 Elem.empty [opnd 0 .nil .none, opnd 1 .fault .none]) (h1 1) = some (.fault 0) ∧
    cls (nodeOne 16 Elem.empty [opnd 0 .nil .none, opnd 1 .eos .none]) (h1 1) = some .nil ∧ cls (nodeOne 16 Elem.empty [sc 0 0, opnd 1 .eos .none]) (h1 1) = some .eos ∧
    elemClass 16 ≠ 3 ∧
    ∃ f, (nodeOne 16 { Elem.empty with vzeros := [⟨0, 1, 7, 0⟩] } [opnd 0 .tile (tile8 0x40000000)]).startFiring (h1 1) = some (.normal, f) ∧
      decide (f.vz = true ∧ vkind f.b = vkind f.a ∧
        (match f.e.lanes32 f.a, f.e.lanes32 f.b with
          | some ra, some rb => (ra ++ rb).all (fun r => r.all (fun w => !(f32 w).isNan && !(f32 w).isInf))
          | _, _ => false) = true) = true :=
  ⟨rfl, rfl, rfl, by decide, fires_of _ _ _ (by decide +kernel)⟩

theorem witness_FiringAndEmission :
    let s := nodeOne 16 Elem.empty [sc 0 5, sc 1 3]
    (match s.region 0 with
      | some r => decide (r.running = true ∧ (r.elem 0 16).used = true ∧ (r.elem 0 16).pool = [sc 0 5, sc 1 3] ∧ s.focus.row = none ∧
          (sc 0 5).tok = { tokenOf .scalar 0 (.word 5) with port := 0, node := 0, ctx := s.focus.ctx, colour := s.focus.colour } ∧
          (sc 1 3).tok = { tokenOf .scalar 0 (.word 3) with port := 1, node := 0, ctx := s.focus.ctx, colour := s.focus.colour })
      | none => false) = true ∧
    ∃ f, s.startFiring (h1 1) = some (.normal, f) ∧ decide (f.e = f.r.elem f.core f.elem ∧ f.e.skips.all (fun k => k.node != f.node) = true) = true :=
  ⟨by decide +kernel, fires_of _ _ _ (by decide +kernel)⟩

/-- SINK's operand of each class, none of kind CFG, at a VE and at an AE. -/
theorem witness_SteeringResult_classes :
    ∀ e ∈ [16, 40], ∀ p ∈ [(TokKind.nil, FireCls.nil), (.eos, .eos), (.fault, .fault 0), (.scalar, .normal)],
      (match (nodeOne e Elem.empty [opnd 0 p.1 .none]).startFiring (h1 0) with
        | some (c, f) => c == p.2 && f.a.kind != .cfg && f.b.kind != .cfg && f.p.kind != .cfg && (elemClass f.elem == 3) == (e == 40)
        | none => false) = true := by decide +kernel

theorem witness_SteeringResult : elemClass 16 ≠ 3 ∧
    (∃ f, (nodeOne 16 Elem.empty [sc 0 5, sc 1 1]).startFiring (h1 1) = some (.normal, f) ∧ decide (f.b.kind = .scalar ∧ f.elem = 16) = true) ∧
    ∃ f, (nodeOne 16 Elem.empty [sc 0 5, sc 1 1, sc 2 0]).startFiring (h1 3) = some (.normal, f) ∧ decide (f.p.kind = .scalar) = true :=
  ⟨by decide, fires_of _ _ _ (by decide +kernel), fires_of _ _ _ (by decide +kernel)⟩

/-- A unit on a colour of context 7, of the colours 0 up to `n - 1` that it owns, with a limit. -/
def onColour (mm : Nat) (k : BitVec 8) (n l : Nat) : State :=
  let s := nodeOne 16 Elem.empty ((if mm = 0 then [sc 0 5] else [sc 0 5, sc 1 1]).map (fun y => { y with tok := { y.tok with colour := k } }))
  let s1 := s.onRegion 0 (fun r => { r with next := BitVec.ofNat 8 n, l := l, owners := (List.range n).map (fun i => ⟨BitVec.ofNat 8 i, 7⟩) })
  { s1.onRegion 0 (fun r => r.putElem 0 16 { r.elem 0 16 with ecw := [(4, 2)] }) with focus := { s1.focus with colour := k } }

/-- CINC and CEXIT between two owned colours, CEXIT by its port; NEXT admitted below the limit, and at it by the hand-off of the lead colour; NEXT
that waits. -/
theorem witness_ColourChangeResult :
    (∃ f, (onColour 0 0 2 2).startFiring (h1 0) = some (.normal, f) ∧
      decide (f.colour + 1 ≠ f.r.next ∧ f.r.isLive (f.colour + 1) = true ∧ f.r.owner (f.colour + 1) = some f.ctx) = true) ∧
    (∃ f, (onColour 0 1 2 3).startFiring (h1 0) = some (.normal, f) ∧
      decide (f.colour - 1 ≠ f.r.next ∧ f.r.isLive (f.colour - 1) = true ∧ f.r.owner (f.colour - 1) = some f.ctx ∧ f.r.live < f.r.l ∧ f.colour + 1 = f.r.next) = true) ∧
    (∃ f, (onColour 0 0 1 1).startFiring (h1 0) = some (.normal, f) ∧
      decide (f.colour = f.e.lead ∧ f.r.live = f.r.l ∧ f.colour + 1 = f.r.next) = true) ∧
    (∃ f, (onColour 0 1 2 2).startFiring (h1 0) = some (.normal, f) ∧
      decide (¬(f.r.live < f.r.l ∨ f.colour = f.e.lead ∧ f.r.live = f.r.l) ∧ f.colour + 1 = f.r.next) = true) ∧
    ∃ f, (onColour 1 0 2 2).startFiring (h1 1) = some (.normal, f) ∧
      decide (f.b.kind = .scalar ∧ f.b.value.setWidth 8 ≠ f.r.next ∧ f.r.isLive (f.b.value.setWidth 8) = true ∧ f.r.owner (f.b.value.setWidth 8) = some f.ctx) = true := by
  refine ⟨?_, ?_, ?_, ?_, ?_⟩ <;> exact fires_of _ _ _ (by decide +kernel)

/-- A first token with a place for its activation, and a count of 0; an activation with one more step that may be admitted, and at its last. -/
theorem witness_LoopNodeResult :
    let e (n : Nat) : Elem := { Elem.empty with recs := [(0, 0x040000004400101100000003)], nrec := 1, loops := [⟨0, 7, 0, 0, n, 5⟩] }
    let r (n : Nat) : Region := { region1 { Core.empty with elems := [(16, e n)] } with next := 1, l := 2 }
    (∃ f, (onColour 1 0 1 2).startFiring (h1 1) = some (.normal, f) ∧
      decide (f.a.kind = .scalar ∧ f.b.kind = .scalar ∧ f.e.loops = [] ∧ f.b.value.toNat % 2 ^ 32 ≠ 0 ∧ f.r.live < f.r.l ∧
        f.e.generalUsed f.node 0 + 1 < f.e.pcap ∧ f.e.skips = []) = true) ∧
    (∃ f, (onColour 0 0 1 2).startFiring (h1 0) = some (.normal, f) ∧ decide (f.a.kind = .scalar ∧ f.e.loops = [] ∧ (0 : W32).toNat = 0) = true) ∧
    (inSlot (r 2)).region 0 = some (r 2) ∧ (inSlot (r 1)).region 0 = some (r 1) ∧ (r 2).running = true ∧ (inSlot (r 2)).mayFire (r 2) 0 16 = true ∧
    (inSlot (r 1)).mayFire (r 1) 0 16 = true ∧ ((r 2).elem 0 16).skips = [] ∧
    ((r 2).elem 0 16).loopOf 0 (BitVec.ofNat 12 7) = some ⟨0, 7, 0, 0, 2, 5⟩ ∧ 0 + 1 < 2 ∧ (r 2).live < (r 2).l ∧ (recHd (((r 2).elem 0 16).rec_ 0)).d0.port ≠ 3 ∧
    ((r 1).elem 0 16).loopOf 0 (BitVec.ofNat 12 7) = some ⟨0, 7, 0, 0, 1, 5⟩ ∧ ¬ 0 + 1 < 1 :=
  ⟨fires_of _ _ _ (by decide +kernel), fires_of _ _ _ (by decide +kernel), rfl, rfl, by decide +kernel⟩

/-- A MERGE whose colour is expected, with every pair of NIL, EOS, FAULT and a value at its ports; and one that expects the colour before. -/
theorem witness_MergeResult :
    let r (x y : Held) : Region := { region1 { Core.empty with elems := [(16, { Elem.empty with used := true, nrec := 1, npool := 8, pool := [x, y] })] } with
      next := 1, owners := [⟨0, 7⟩] }
    let t := onColour 0 1 2 2
    (∀ p ∈ [(TokKind.scalar, TokKind.nil), (.nil, .scalar), (.nil, .nil), (.scalar, .eos), (.fault, .nil), (.scalar, .fault)],
      let x := opnd 0 p.1 (.word 5)
      let y := opnd 1 p.2 (.word 6)
      let q := r x y
      (nodeOne 16 Elem.empty [x, y]).region 0 = some q ∧ q.running = true ∧ (q.elem 0 16).used = true ∧ q.expected (q.elem 0 16) 0 7 = some 0 ∧
        (q.elem 0 16).operand 0 0 7 0 0 = some x.tok ∧ (q.elem 0 16).operand 0 1 7 0 0 = some y.tok ∧ x.tok.act ≠ 1 ∧ x.tok.kind = p.1 ∧ y.tok.kind = p.2 ∧
        x.tok.moreRows = false ∧ y.tok.moreRows = false) ∧ elemClass 16 ≠ 3 ∧
    (match t.region 0 with | some q => decide (q.expected (q.elem 0 16) 0 7 ≠ some t.focus.colour) | none => false) = true := by decide +kernel

/-- The last barrier; an arrival that does not complete its phase, and one that does, whose element holds it and another holds a counted one; one of another phase; releases
to an element whose one hold they free, and to one that took BAROVER. -/
theorem witness_BarrierResult :
    let t : Token := Token.mk0 .scalar 7 0 0 (.word 5)
    let y (b : Nat) (ph : BitVec 4) (n : Bool) : BarHeld := ⟨0, 0, b, ph, t, false, n⟩
    let e1 : Elem := { Elem.empty with used := true, barv := [y 0 0 false] }
    let e2 : Elem := { Elem.empty with used := true, barv := [y 0 0 true] }
    let e3 : Elem := { Elem.empty with used := true, barv := [y 63 15 true] }
    let e4 : Elem := { e3 with barOver := [63] }
    let c : Core := { Core.empty with
      arrs := [⟨0, 16, 0, 63, 0, 7, 0⟩, ⟨0, 16, 0, 0, 0, 7, 0⟩, ⟨0, 16, 0, 0, 1, 7, 0⟩], bars := [(63, ⟨2, 1, 0, 0⟩), (0, ⟨1, 1, 0, 0⟩)],
      rels := [⟨0, 18, 63, 15, 2, []⟩, ⟨0, 19, 63, 15, 2, []⟩], elems := [(16, e1), (17, e2), (18, e3), (19, e4)] }
    let r := region1 c
    (∃ f, (nodeOne 16 Elem.empty [sc 0 5]).startFiring (h1 0) = some (.normal, f) ∧ true = true) ∧
    (inSlot r).region 0 = some r ∧ c.arrs[0]? = some ⟨0, 16, 0, 63, 0, 7, 0⟩ ∧ (tget c.bars ⟨0, 0, 0, 0⟩ 63).exp ≠ 0 ∧
    (tget c.bars ⟨0, 0, 0, 0⟩ 63).phase = 0 ∧ (tget c.bars ⟨0, 0, 0, 0⟩ 63).arr + 1 ≠ (tget c.bars ⟨0, 0, 0, 0⟩ 63).exp ∧
    (tget c.bars ⟨0, 0, 0, 0⟩ 0).arr + 1 = (tget c.bars ⟨0, 0, 0, 0⟩ 0).exp ∧ (1 : BitVec 4) ≠ (tget c.bars ⟨0, 0, 0, 0⟩ 0).phase ∧
    (r.elem 0 16).barv = [y 0 0 false] ∧ (y 0 0 false).node = 0 ∧ t.ctx = 7 ∧ (r.elem 0 17).barv = [y 0 0 true] ∧
    c.rels.find? (fun y => y.ecore == 0 && y.elem == 18 && y.bar == 63) = some ⟨0, 18, 63, 15, 2, []⟩ ∧
    c.rels.find? (fun y => y.ecore == 0 && y.elem == 19 && y.bar == 63) = some ⟨0, 19, 63, 15, 2, []⟩ ∧
    (r.elem 0 18).barv = [y 63 15 true] ∧ t.kind ≠ .tile ∧ (r.elem 0 18).skips = [] ∧ 0 * 64 + 63 ∉ (r.elem 0 18).barOver ∧ 0 * 64 + 63 ∈ (r.elem 0 19).barOver :=
  ⟨fires_of _ _ (fun _ => true) (by decide +kernel), rfl, by decide +kernel⟩

theorem witness_ScalarNodeResult :
    (∃ f, (nodeOne 16 Elem.empty [sc 0 5]).startFiring (h1 0) = some (.normal, f) ∧ decide (f.a.kind = .scalar) = true) ∧
    (∃ f, (nodeOne 16 Elem.empty [sc 0 5, sc 1 64]).startFiring (h1 1) = some (.normal, f) ∧ decide (f.a.kind = .scalar ∧ f.b.kind = .scalar) = true) ∧
    (∃ f, (nodeOne 16 Elem.empty [sc 0 5, sc 1 64, sc 2 1]).startFiring (h1 3) = some (.normal, f) ∧
      decide (f.a.kind = .scalar ∧ f.b.kind = .scalar ∧ f.p.kind = .scalar) = true) ∧
    (let l : LitV := ⟨2, 0, 0, 0, 0⟩; l.md = 0#17 ∧ l.ofmt = 2#4 ∧ l.rnd = 0#3) ∧
    (let l : LitV := ⟨0, 0, 0, 0, 16⟩; l.md.getLsbD 4 = true ∧ l.md.getLsbD 5 = false ∧ l.ofmt = 0#4 ∧ l.rnd = 0#3) :=
  ⟨fires_of _ _ _ (by decide +kernel), fires_of _ _ _ (by decide +kernel), fires_of _ _ _ (by decide +kernel), by decide, by decide⟩

/-- The operands of three lane-wise units: in mode 3, in mode 1 as rows, and in mode 0. -/
theorem witness_LaneWiseResult :
    (∃ f, (nodeOne 16 Elem.empty [opnd 0 .tile (tile8 0), opnd 1 .tile (tile8 0x7FC00000), opnd 2 .tile (tile8 0x80000000)]).startFiring (h1 3) = some (.normal, f) ∧
      decide (f.vz = false ∧ vkind f.b = vkind f.a ∧ vkind f.p = vkind f.a ∧ (f.e.lanes32 f.a).isSome ∧ (f.e.lanes32 f.b).isSome ∧ (f.e.lanes32 f.p).isSome) = true) ∧
    (∃ f, (nodeOne 16 Elem.empty [opnd 0 .vrow (tile8 0), opnd 1 .vrow (tile8 1)]).startFiring (h1 1) = some (.normal, f) ∧
      decide (f.vz = false ∧ vkind f.b = vkind f.a ∧ (f.e.lanes32 f.a).isSome ∧ (f.e.lanes32 f.b).isSome) = true) ∧
    ∃ f, (nodeOne 16 Elem.empty [opnd 0 .tile (tile8 0)]).startFiring (h1 0) = some (.normal, f) ∧ decide (f.vz = false ∧ (f.e.lanes32 f.a).isSome) = true :=
  ⟨fires_of _ _ _ (by decide +kernel), fires_of _ _ _ (by decide +kernel), fires_of _ _ _ (by decide +kernel)⟩

/-- Units of one and two operands; VQUANT's scales at port R; an elided zero; each literal at the bounds of its cases. -/
theorem witness_VectorReshapeResult :
    (∃ f, (nodeOne 16 Elem.empty [opnd 0 .tile (tile8 0), opnd 1 .tile (tile8 0x40000000)]).startFiring (h1 1) = some (.normal, f) ∧
      decide (f.vz = false ∧ (f.e.lanes32 f.a).isSome ∧ f.a.kind = .tile ∧ f.b.kind = .tile ∧ (f.e.lanes32 f.b).isSome) = true) ∧
    (∃ f, (nodeOne 16 Elem.empty [opnd 0 .tile (tile8 0), opnd 1 .tile (.bytes (List.replicate 8 0x80))]).startFiring (h1 1) = some (.normal, f) ∧
      decide ((f.e.lanes32 f.a).isSome ∧ (f.e.zeroTokBits 8 f.b).kind = .tile ∧ (f.e.laneRows 8 (f.e.zeroTokBits 8 f.b)).isSome) = true) ∧
    (∃ f, (nodeOne 16 Elem.empty [opnd 0 .tile (tile8 0)]).startFiring (h1 0) = some (.normal, f) ∧
      decide (f.vz = false ∧ (f.e.lanes32 f.a).isSome ∧ f.a.kind ≠ .zero ∧ f.a.kind ≠ .vrow ∧ (f.e.laneRows 32 f.a).isSome ∧ (h1 0).mm = 0) = true) ∧
    (∃ f, (nodeOne 16 Elem.empty [sc 0 5]).startFiring (h1 0) = some (.normal, f) ∧ decide (f.a.kind = .scalar) = true) ∧
    (∃ f, (nodeOne 16 { Elem.empty with vzeros := [⟨0, 0, 7, 0⟩] } []).startFiring (h1 0) = some (.normal, f) ∧ decide (f.a.kind = .zero) = true) ∧
    ({ v0 with md := 0 } : LitV).md.getLsbD 0 = false ∧ ({ v0 with md := 1 } : LitV).md.getLsbD 0 = true ∧ ({ v0 with md := 4 } : LitV).md.toNat % 4 = 0 ∧
    ({ v0 with md := 5 } : LitV).md.toNat % 4 ≠ 0 := by
  refine ⟨?_, ?_, ?_, ?_, ?_, by decide⟩ <;> exact fires_of _ _ _ (by decide +kernel)

/-- An ME of 8 claimed slots, or of none. -/
def me8 (claim : Bool) : Elem := { Elem.empty with nslot := 8, me := { MeSt.start with slots := (List.range 8).map (fun i => (i, ⟨[], claim, false⟩)) } }

theorem witness_SlotAndSaveResult :
    let l : LitM := ⟨7, 0, 0, 0⟩
    let b : Mbcb := ⟨0, 7, some [1], 0, 7, 0, false⟩
    let c : Core := { Core.empty with elems := [(0, { me8 true with used := true })], mbcb := [b] }
    let r := region1 c
    (∃ f, (nodeOne 0 (me8 false) [sc 0 1]).startFiring (h1 0) = some (.normal, f) ∧ decide (!(f.e.me.slot 7).claim && l.md.toNat % 2 ^ 7 == 0 && (h1 0).mm == 0) = true) ∧
    (∃ f, (nodeOne 0 (me8 true) [opnd 0 .tile (tile8 1)]).startFiring (h1 0) = some (.normal, f) ∧
      decide ((f.e.me.slot l.slot.toNat).claim = true ∧ (f.r.core f.core).mbcbPending f.elem none = false ∧ f.a.kind = .tile) = true) ∧
    (∃ f, (nodeOne 0 { me8 true with vzeros := [⟨0, 0, 7, 0⟩] } []).startFiring (h1 0) = some (.normal, f) ∧
      decide ((f.e.me.slot l.slot.toNat).claim = true ∧ f.a.kind = .zero) = true) ∧
    (∃ f, (nodeOne 0 (me8 true) [sc 0 0x800]).startFiring (h1 0) = some (.normal, f) ∧
      decide (f.a.kind = .scalar ∧ f.a.value.toNat % 2048 = 0 ∧ (f.e.me.slot l.slot.toNat).claim = true) = true) ∧
    (inSlot r).region 0 = some r ∧ lowestMbcb (r.core 0).mbcb = some b ∧
    (∀ i < 16, (r.core 0).receives b.elem i = true → ((r.elem 0 i).me.slot b.slot.toNat).claim = true) ∧ (r.core 0).receives b.elem 0 = true :=
  ⟨fires_of _ _ _ (by decide +kernel), fires_of _ _ _ (by decide +kernel), fires_of _ _ _ (by decide +kernel), fires_of _ _ _ (by decide +kernel), rfl,
    by decide +kernel⟩

/-- A row beat for a free accumulator row, the last beat for a row of its own context, and a scaled beat with its scales at port R. -/
theorem witness_MatrixRowResult :
    let ok (f : Fire) (l : LitM) : Bool :=
      f.a.kind == .arow && f.a.row.toNat < f.e.rows && (f.e.me.slot l.slot.toNat).claim && !(f.r.core f.core).mbcbPending f.elem (some l.slot)
    let l : LitM := ⟨7, 0, 0, 6⟩
    (∃ f, (nodeOne 0 (me8 true) [opnd 0 .arow (tile8 1)]).startFiring (h1 0) = some (.normal, f) ∧
      (ok f l && f.e.meCfg.blk == 0 && !f.a.aux.getLsbD 7 && (f.e.me.row 0).owner == none) = true) ∧
    (∃ f, (nodeOne 0 { me8 true with me := { (me8 true).me with acc := [(0, ⟨[], some 7, 0⟩)] } }
        [⟨{ (opnd 0 .arow (tile8 1)).tok with aux := 0x80 }, .general, .none⟩]).startFiring (h1 0) = some (.normal, f) ∧
      (ok f l && f.a.aux.getLsbD 7 && !f.e.lowerBeat f.node f.ctx f.colour f.a.row && (f.e.me.row 0).owner == some f.ctx) = true) ∧
    (∃ f, (nodeOne 0 { me8 true with ecw := [(1, 0x00400000)] } [opnd 0 .arow (tile8 1), opnd 1 .arow (tile8 1)]).startFiring (h1 1) = some (.normal, f) ∧
      (ok f l && f.e.meCfg.blk == 1 && f.b.kind == .arow && (f.e.me.slot 6).claim && !(f.r.core f.core).mbcbPending f.elem (some 6)) = true) ∧
    ∃ f, (nodeOne 0 { me8 true with ecw := [(1, 0x99000000)] } [sc 0 1]).startFiring (h1 0) = some (.normal, f) ∧ (!fmtFloat (bitsAt (f.e.w 1) 28 4)) = true :=
  ⟨fires_of _ _ _ (by decide +kernel), fires_of _ _ _ (by decide +kernel), fires_of _ _ _ (by decide +kernel), fires_of _ _ _ (by decide +kernel)⟩

/-- The worked example's shape with its registers below NSER; a window of the last register; one that is all zero. -/
theorem witness_SumProductResult :
    let e : Elem := { Elem.empty with nser := 17, shapes := shape5, se := regs5 }
    let sh := e.shape 5
    let low (rs : List Nat) : Bool := rs.all (fun a => a / 16 < e.nser)
    let ev := sh.eval true false 0 e.seReg 5 sh.root
    let d := sh.down true false 0 e.seReg 5 sh.root (e.seReg (sh.rootOut 0))
    (∃ f, (nodeOne 32 { e with nser := 18 } [sc 0 5]).startFiring (h1 0) = some (.normal, f) ∧ decide (f.a.kind = .scalar ∧ (h1 0).mm = 0) = true) ∧
    (({ p0 with md := 0 } : LitP).md.getLsbD 0 = false ∧ ({ p0 with md := 4 } : LitP).md.getLsbD 0 = false ∧
      ({ p0 with md := 0x400 } : LitP).md.getLsbD 0 = false ∧ ({ p0 with md := 0x400 } : LitP).md.getLsbD 10 = true) ∧
    low ((sh.leaves 5 sh.root).map (sh.leafReg 0) ++ ((ev.nodes.filter (fun p => sh.saves p.1)).map (fun p => sh.saveReg 0 p.1) ++ [sh.outReg 0])) = true ∧
    ([sh.rootOut 0] ++ d.reads ++ ((d.outs.map (fun p => sh.leafOut 0 p.1)).eraseDups)).all (fun a => a / 16 < 18) = true ∧
    (sh.choices 0 5 sh.root ++ ((sh.leaves 5 sh.root).map (sh.leafOut 0)).eraseDups).all (fun a => a / 16 < 18) = true ∧
    low [spReg 15 16] = true ∧ spEmax [e.seReg 1] = some (-1) ∧ spfVal (e.seReg (spReg 15 16)) = 0 :=
  ⟨fires_of _ _ _ (by decide +kernel), by decide +kernel⟩

/-- What a unit with an EOS operand satisfies. -/
theorem eos_of (s : State) (h : NodeHd) (p : Fire → Bool) (e : (match s.startFiring h with | some (.eos, f) => p f | _ => false) = true) :
    ∃ f, s.startFiring h = some (.eos, f) ∧ p f = true := by
  split at e
  · rename_i f hf; exact ⟨f, hf, e⟩
  · cases e

/-- An AE's unit with a SCALAR address, with a SCALAR of data too, and with EOS; an access that waits before a boundary, with no wave order, and one behind it. -/
theorem witness_AddressGeneratorResult :
    let s := nodeOne 40 Elem.empty [sc 0 0x1000]
    let t := nodeOne 40 Elem.empty [sc 0 0x1000, sc 1 5]
    let a : Access := ⟨.aload 0, 0, 7, 0, 0, [], 0, 1023, 1, 0, false, []⟩
    let b : Access := ⟨.boundary 1, 0, 7, 0, 0, [], 0, 1023, 1, 1, false, []⟩
    let at_ (w : List Access) : Region := region1 { Core.empty with elems := [(40, { Elem.empty with used := true, ae := { AeSt.start with waiting := w } })] }
    let r := at_ [a, b]
    (∃ f, s.startFiring (h1 0) = some (.normal, f) ∧ decide (f.a.kind = .scalar ∧ (f.e.zeroTok f.a).kind = .scalar) = true) ∧
    (∃ f, t.startFiring (h1 1) = some (.normal, f) ∧ decide (f.a.kind = .scalar ∧ (f.e.zeroTok f.b).kind = .scalar ∧ f.b.kind = .scalar) = true) ∧
    (∃ f, (nodeOne 40 Elem.empty [opnd 0 .eos .none]).startFiring (h1 0) = some (.eos, f) ∧ true = true) ∧ (∀ g, s.mayBegin g = true) ∧ (∀ g, t.mayBegin g = true) ∧
    (inSlot r).region 0 = some r ∧ (r.elem 0 40).ae.ready = [] ∧ (r.elem 0 40).ae.waiting.find? Access.real = some a ∧ a.isBound = false ∧
    ((inSlot (at_ [b, a])).region 0 = some (at_ [b, a]) ∧ ((at_ [b, a]).elem 0 40).ae.ready = [] ∧ ((at_ [b, a]).elem 0 40).ae.waiting.find? Access.real = some b ∧ b.kind = .boundary 1) ∧
    (r.elem 0 40).ae.waiting.find? (fun a => !a.isBound && (!(r.elem 0 40).waveOn || r.mayRelease (r.elem 0 40) a)) = some a :=
  ⟨fires_of _ _ _ (by decide +kernel), fires_of _ _ _ (by decide +kernel), eos_of _ _ (fun _ => true) (by decide +kernel), by decide +kernel⟩

/-- A released wave, and a context whose first wave is still to come. -/
theorem witness_AddressGeneratorResult_waves :
    let a : Access := ⟨.aload 0, 0, 7, 0, 0, [], 1, 0, 1023, 0, false, []⟩
    let e : Elem := { Elem.empty with ae := { AeSt.start with waves := [⟨7, 0, 0, 1, false⟩] } }
    let r : Region := { Region.empty with next := 1, owners := [⟨0, 7⟩] }
    e.ae.wave a.ctx a.colour = some ⟨7, 0, 0, 1, false⟩ ∧ Elem.empty.ae.wave a.ctx a.colour = none ∧ r.coloursOf a.ctx = [a.colour] := by decide +kernel

/-- A collective of no trick, in no run. -/
def coll0 : Coll :=
  { ten := 0, num := 63, kind := 0, group := 0, tricks := [], inst := 0, running := none, waiting := [], early := [], here := [], heldAt := none,
    holds := [], skewed := false, aborted := false, results := [] }

/-- A route of reduction 9 to unit 15 of device 3, of VT 1. -/
def route9 : Route := { ten := 0, red := 9, dev := 3, unit := 15, vti := true, vto := true, mcg := 0, coll := 0, isOver := false }

/-- Operands of remote operators at the last aligned place of a 2 KiB block, a collective that is loaded, and a receiver of reduction 9 in the region. -/
theorem witness_ExchangeBegins :
    let s := nodeOne 48 Elem.empty [sc 0 0x7F8, sc 1 5]
    let c := (nodeOne 48 Elem.empty [sc 0 0x7F8]).withFb (fun f => { f with colls := [coll0] })
    let q := (nodeOne 48 { Elem.empty with xe := { XeSt.start with recvs := [⟨9, 0⟩] } } [sc 0 0]).withFb
      (fun f => { f with routes := [route9], recvs := [⟨0, 9, some (0, 0, 48), []⟩] })
    (∃ f, s.startFiring (h1 1) = some (.normal, f) ∧
      decide (f.a.kind = .scalar ∧ f.b.kind = .scalar ∧ (f.e.zeroTok f.b).kind = .scalar ∧ xMisaligned (f.a.value + BitVec.ofInt 64 (0 : Int)) (xopSize 3 f.e) = false ∧
        xMisaligned (f.a.value + BitVec.ofInt 64 (0 : Int)) (ratomSize 3) = false) = true) ∧
    (∃ f, c.startFiring (h1 0) = some (.normal, f) ∧ decide (c.coll f.r.ten 63 = some coll0 ∧ f.a.value.toNat % 8 = 0 ∧ f.a.kind = .scalar) = true) ∧
    ∃ f, q.startFiring (h1 0) = some (.normal, f) ∧ decide (q.route f.r.ten 9 = some route9 ∧
      q.receiver f.r.ten 9 = some ⟨0, 9, some (0, 0, 48), []⟩ ∧ f.slot = 0 ∧ f.core = 0 ∧ f.elem = 48 ∧ f.e.xe.recvs.any (fun y => y.red == 9) = true) = true :=
  ⟨fires_of _ _ _ (by decide +kernel), fires_of _ _ _ (by decide +kernel), fires_of _ _ _ (by decide +kernel)⟩

/-- A stream with credit for one packet, a new one beside three others, an EOS; and a stream whose eight packets are out, and one that ends. -/
theorem witness_StreamSendResult :
    let y : SendStream := { SendStream.start ⟨9, 31, 1⟩ with unacked := 7 }
    let o (n : BitVec 16) : SendStream := SendStream.start ⟨n, 0, 1⟩
    let s (ys : List SendStream) (x : Held) : State :=
      (nodeOne 48 { Elem.empty with xe := { XeSt.start with sends := ys } } [x]).withFb (fun f => { f with routes := [route9] })
    let x := sc 0 0xFFFFFFFF00000000
    let mine (f : Fire) : Option SendStream := f.e.xe.sends.find? (fun z => z.red == 9 && z.lin == 31)
    (∃ f, (s [y] x).startFiring (h1 0) = some (.normal, f) ∧ decide (f.a.kind = .scalar ∧ (s [y] x).route f.r.ten 9 = some route9 ∧ mine f = some y ∧
      y.ending = none ∧ y.placing = none ∧ y.unacked < 8 ∧ y.failed = none ∧ y.vt = 1 ∧ (sendEntries true f.e f.a).isSome = true) = true) ∧
    (∃ f, (s [o 1, o 2, o 3] x).startFiring (h1 0) = some (.normal, f) ∧ decide (mine f = none ∧ f.e.xe.sends.length < 4) = true) ∧
    (∃ f, (s [y] (opnd 0 .eos .none)).startFiring (h1 0) = some (.eos, f) ∧ decide (mine f = some y) = true) ∧
    (∃ f, (s [{ y with unacked := 8 }] x).startFiring (h1 0) = some (.normal, f) ∧ decide ((mine f).any (fun z => 8 ≤ z.unacked && z.failed.isNone) = true) = true) ∧
    ∃ f, (s [{ y with ending := some (0, 7, 0) }] x).startFiring (h1 0) = some (.normal, f) ∧ decide ((mine f).any (fun z => z.ending.isSome) = true) = true :=
  ⟨fires_of _ _ _ (by decide +kernel), fires_of _ _ _ (by decide +kernel), eos_of _ _ _ (by decide +kernel), fires_of _ _ _ (by decide +kernel),
    fires_of _ _ _ (by decide +kernel)⟩

/-- A NIL; and a FAULT on a stream that has just begun, that ends, that failed as its peer said, and that failed as the unit did not take it. -/
theorem witness_StreamSendResult_classes :
    let y : SendStream := SendStream.start ⟨9, 31, 1⟩
    let s (y : SendStream) (k : TokKind) : State :=
      (nodeOne 48 { Elem.empty with xe := { XeSt.start with sends := [y] } } [opnd 0 k .none]).withFb (fun f => { f with routes := [route9] })
    let mine (f : Fire) : Option SendStream := f.e.xe.sends.find? (fun z => z.red == 9 && z.lin == 31)
    let meets (y : SendStream) (k : TokKind) (c : FireCls) : Bool :=
      match (s y k).startFiring (h1 0) with | some (c', f) => c' == c && mine f == some y && (s y k).route f.r.ten 9 == some route9 | none => false
    meets y .nil .nil = true ∧ meets y .fault (.fault 0) = true ∧ meets { y with ending := some (0, 7, 0) } .fault (.fault 0) = true ∧
    meets { y with failed := some 2 } .fault (.fault 0) = true ∧ meets { y with failed := some 1 } .fault (.fault 0) = true := by decide +kernel

/-- A machine whose tenant 0 reaches the first 2 GiB of stack n0 by a page of its root table, with bytes placed. -/
def tenMem (s : State) (cells : List (Nat × List Byte)) : State :=
  { s with
    mg := { s.mg with ptroot := [(0, 0x100001)], twin := [(0, 0x8000000000008000)] }
    ms := { s.ms with hbm := [(0, cells.foldl (fun m c => mwrite m c.1 c.2) (mwrite [] 0x100000 (leOf 8 0x3C3)))] } }

/-- A queue's descriptor: base 0x4000, two items in four places, from its last place on. -/
def desc4 (tail : Nat) : List Byte := leOf 8 0x4000 ++ leOf 4 0xFFFFFFFF ++ leOf 4 tail ++ [2, 0]

/-- An item that waits at the last place of the ring, an empty open queue, and an empty closed one. -/
theorem witness_QueueOperationResult :
    let s (tail : Nat) (cl : Byte) := tenMem (nodeOne 48 Elem.empty [sc 0 0x3000]) [(0x3000, (desc4 tail).set 17 cl), (0x4030, leOf 8 11 ++ leOf 8 12)]
    let s0 (tail : Nat) (cl : Byte) := (s tail cl).counted 0 needR 0x3000 64
    let has (tail : Nat) (cl : Byte) (p : QDesc → Bool) : Prop := (∃ f, (s tail cl).startFiring (h1 0) = some (.normal, f) ∧
      (f.a.kind == .scalar && f.a.value == 0x3000 && f.r.ten == 0 && f.a.value.toNat % 64 == 0) = true) ∧ ∃ q, (s0 tail cl).qdesc 0 0x3000 = .ok q ∧ p q = true
    has 0 0 (fun q => q.head != q.tail && (match ((s0 0 0).uget 0 needR apLocal (q.base + 16 * BitVec.ofNat 64 (q.head.toNat % 2 ^ q.log2n)) 16).2 with
      | .ok b => b == leOf 8 11 ++ leOf 8 12 | .error _ => false)) ∧
    has 0xFFFFFFFF 0 (fun q => q.head == q.tail && q.closed == 0) ∧ has 0xFFFFFFFF 1 (fun q => q.head == q.tail && q.closed != 0) :=
  ⟨⟨fires_of _ _ _ (by decide +kernel), ok_of _ _ (by decide +kernel)⟩, ⟨fires_of _ _ _ (by decide +kernel), ok_of _ _ (by decide +kernel)⟩,
    fires_of _ _ _ (by decide +kernel), ok_of _ _ (by decide +kernel)⟩

/-- An element with one record of a monadic SADD. -/
def sadd1 (pool : List Held) : Elem := { Elem.empty with used := true, nrec := 1, npool := 8, recs := [(0, 0x200C00000300000000000007)], pool := pool }

/-- A token for a free widow slot, at its arc's last link; a spilled token with room to come back. -/
theorem witness_TokenLandingResult :
    let f : Flight := { arc := .inject 0 0 0 16, sender := 0, tok := { Token.mk0 .scalar 7 0 0 (.word 5) with elem := 16 } }
    let r := { region1 { Core.empty with elems := [(16, sadd1 [])] } with next := 1, owners := [⟨0, 7⟩], flight := [f] }
    let x : Spilled := { tok := f.tok, granule := 0, len := 1 }
    let q := region1 { Core.empty with elems := [(16, { sadd1 [] with ecw := [(4, 2)] })], talon := [x] }
    let w := (r.core 0).withBack 16
    ((inSlot r).region 0 = some r ∧ r.running = true ∧ r.flight[0]? = some f ∧ r.firstOfArc 0 f = true ∧ (inSlot r).mayArrive r 0 f = true ∧
      f.tok.kind = .scalar ∧ f.tok.act ≠ 1 ∧ f.tok.skip = 0 ∧ f.tok.core.toNat < r.ncore ∧ r.takes 0 16 f.tok.node.toNat f.tok.port = true ∧
      ¬(elemClass 16 = 0 ∧ f.tok.kind = .tile ∧ 2048 < f.tok.bytes.length) ∧ w.place f.tok = some .widow ∧ w.landAt 16 f.tok = some .none) ∧
    (inSlot q).region 0 = some q ∧ q.running = true ∧ (q.core 0).talon[0]? = some x ∧ ((q.core 0).backPlace x).isSome = true :=
  ⟨⟨rfl, by decide +kernel⟩, rfl, by decide +kernel⟩

/-- A marker with two constants queued for it, to one register, and one for another; a lead colour that has finished before one that has not, both finished, and none; a deadlock at the
limit, by a colour's count and by a sticky token on an arc. -/
theorem witness_RegionEventResult :
    let m : Flight := { arc := .node 0 16 0 0, sender := 0, tok := Token.mk0 .marker 7 0 9 .none }
    let y : Flight := { m with tok := { Token.mk0 .scalar 7 0 0 (.word 1) with act := 1 } }
    let e : Elem := { Elem.empty with used := true, markers := [m], pendK := [⟨3, 5, 9⟩, ⟨3, 4, 8⟩, ⟨3, 6, 9⟩] }
    let c (a b : Int) : Core := { Core.empty with counts := [(0, a), (1, b)], elems := [(16, e)] }
    let r (a b : Int) : Region := { region1 (c a b) with next := 2, owners := [⟨0, 7⟩, ⟨1, 7⟩], snap := [(0, 0), (1, 0)], now := 2 ^ 20 }
    let z : Region := { r 0 0 with flight := [y] }
    let late (r : Region) : Bool := r.running && !r.fired && 2 ^ (inSlot r).detectK r ≤ (inSlot r).idleCount 0 r
    let finished (r : Region) (c : BitVec 8) : Bool := r.sum c == 0 && !r.changed c && r.snap.contains (c, 0)
    (∀ p ∈ [(0, 0), (0, 1), (1, 0), (1, 1)], (inSlot (r p.1 p.2)).region 0 = some (r p.1 p.2)) ∧ (inSlot z).region 0 = some z ∧ (r 0 0).acts = true ∧
    ((r 0 0).elem 0 16).markers = [m] ∧ ((r 0 0).elem 0 16).skips = [] ∧ ((r 0 0).elem 0 16).pendK.filter (fun p => p.m == m.tok.aux && p.k.toNat == 3) = [⟨3, 5, 9⟩, ⟨3, 6, 9⟩] ∧
    ((r 0 0).elem 0 16).used = true ∧ (r 0 0).done = [] ∧ (r 0 0).live = 2 ∧ (finished (r 0 0) 0 = true ∧ finished (r 0 0) 1 = true) ∧ (finished (r 0 1) 0 = true ∧ finished (r 0 1) 1 = false) ∧
    finished (r 1 0) 0 = false ∧ (late (r 1 0) = true ∧ ∃ c ∈ (r 1 0).liveColours, (r 1 0).sum c ≠ 0) ∧ (late z = true ∧ ∃ f ∈ z.flight, f.tok.act = 1) := by decide +kernel

/-- What a value with a state of a computation that can fail satisfies. -/
theorem got_of {σ ε α : Type} (x : σ × Except ε α) (p : σ → α → Bool) (h : (match x.2 with | .ok v => p x.1 v | .error _ => false) = true) :
    ∃ t v, x = (t, .ok v) ∧ p t v = true := by
  obtain ⟨t, y⟩ := x
  cases y with
  | ok v => exact ⟨t, v, rfl, h⟩
  | error e => cases h

/-- A write that ends without a fault. -/
theorem put_of {σ ε : Type} (x : σ × Option ε) (h : x.2.isNone = true) : ∃ t, x = (t, none) := by
  obtain ⟨t, y⟩ := x
  cases y with
  | none => exact ⟨t, rfl⟩
  | some e => cases h

/-- A request of a read, a write or a masked write of 32 bytes at the last place of a near stack. -/
def req1 (kind : BitVec 4) (mask : W32) (data : List Byte) : Req :=
  { id := 5, stream := .cc 0 0, target := .base 7, rsv := false, tag := 7, gen := 0, kind := kind, mask := mask, len := 0, far := false,
    addr := stackLimit - 32, data := data, atom := none, serves := [], at_ := 0 }

/-- The machine with a request at its memory. -/
def asking (q : Req) : State := State.reset.withMs (fun m => { m with reqs := [q] })

/-- Whether the machine performs a request that is at its memory. -/
def performs (q : Req) : Bool :=
  (asking q).servable 0 == some q && !q.malformed && (asking q).locStatus q.loc q.size == 0 && (match q.loc with | .peer _ _ => false | _ => true)

/-- A request of 64 bytes to an expander, from the middle of a line on. -/
def reqCxl (kind : BitVec 4) (data : List Byte) : Req := { req1 kind 0 data with target := .cxl 1, addr := 32, len := 1 }

/-- Every kind at the last place of a near stack, masks empty and full, an atomic, and a read and a write at an expander that cross a line of 64 bytes. -/
theorem witness_MemoryRequestPerformed :
    performs (req1 1 0 []) = true ∧ performs { req1 1 0 [] with atom := some (.add, 24, 8, 5) } = true ∧ performs (req1 2 0 (List.replicate 32 7)) = true ∧
    performs (req1 3 0 (List.replicate 32 7)) = true ∧ performs (req1 3 0xFFFFFFFF (List.replicate 32 7)) = true ∧ performs (reqCxl 1 []) = true ∧
    performs (reqCxl 2 (List.replicate 64 7)) = true ∧
    ((req1 1 0 []).atom = none ∧ (List.replicate 32 7#8).length = (req1 2 0 []).size ∧ (req1 3 0 []).off = 0 ∧
      (reqCxl 1 []).off + (reqCxl 1 []).line < (reqCxl 1 []).size) := by
  refine ⟨?_, ?_, ?_, ?_, ?_, ?_, ?_, ?_⟩ <;> decide +kernel

/-- A read of a copy that its path has staged, as good and as UE, where a free value may pick the staging (log 8); one of no path; an atomic of path REM. -/
theorem witness_MemoryRequestPerformed_staged :
    let q : Req := { req1 1 0 [] with stream := .copy 0 0 0 }
    let b (bad : Bool) (i : Nat) : StageByte := { unit := q.stream, thr := 0, space := q.loc.space.1, addr := q.loc.space.2 + i, val := 9, since := [], ids := [], rels := [], bad := bad }
    let s (bad : Bool) : State := (asking q).withMs (fun m => { m with stage := (List.range 32).map (b bad) })
    q.stream.path = 2 ∧ q.off = 0 ∧ (∀ bad, (s bad).servable 0 = some q ∧ q.malformed = false ∧ (s bad).locStatus q.loc q.size = 0) ∧ (Stream.unit 0).path = 8 ∧
    (Stream.xe 0 0 48).path = 6 := by decide +kernel

/-- A reply under the generation of its tag, in time to the last ns and too late, and one under an older; a request that has run out of time, one held, one
at a CXL port. -/
theorem witness_ReplyAndChannelErrorResult :
    let q := req1 1 0 []
    let c := { q with target := .cxl 1, addr := 0, at_ := 1000000 }
    let t : Tag := ⟨.cc 0 0, .base 7, 7, 0, some q, []⟩
    let s (now : Nat) := { State.reset.withMs (fun m => { m with reps := [⟨q, 0, [], 0⟩], tags := [t], reqs := [q, c] }) with time := now }
    let o := State.reset.withMs (fun m => { m with reps := [⟨q, 0, [], 0⟩], tags := [{ t with gen := 1 }] })
    ((s 0).ms.reps[0]? = some ⟨q, 0, [], 0⟩ ∧ ((s 0).ms.reps.take 0).any (fun p => p.req.overlaps q) = false ∧ (s 0).ms.tag q.stream q.target q.tag.toNat = t ∧
      t.gen = q.gen ∧ ∃ b, t.busy = some b ∧ b.id = q.id) ∧
    ((s 2000000).time - q.at_ ≤ 2000000 ∧ 2000000 < (s 2000001).time - q.at_) ∧ (o.ms.tag q.stream q.target q.tag.toNat).gen ≠ q.gen ∧
    ((s 1000000).ms.tags[0]? = some t ∧ t.busy = some q ∧ q.serves = [] ∧ 1000000 ≤ (s 1000000).time - q.at_) ∧
    (State.reset.ms.reqs[0]? = none ∧
      (let p : OutPkt := ⟨3, { dst := 1, src := 2, via := 0, vv := 0, tc := 3, ten := 0, rsv := 0, seq := 0, kind := 0, len := 0, np := 0, pad := 0, win := 0, opq := 0, data := [], hop := 2 }, 5⟩
       ({ State.reset with time := 1500005 } : State).expired p.pkt p.at_ = true ∧ ({ State.reset with time := 1500004 } : State).expired p.pkt p.at_ = false)) ∧
    ((s 1500000).ms.reqs[0]? = some q ∧ 1500000 ≤ (s 1500000).time - q.at_) ∧ (s 1500000).servable 1 = some c :=
  ⟨⟨by decide +kernel, by decide +kernel, rfl, rfl, _, rfl, rfl⟩, by decide +kernel⟩

/-- The last channel of the last near stack, in order and retraining; the first far stack, and the last. -/
theorem witness_ReplyAndChannelErrorResult_channels :
    let s := State.reset.withMs (fun m => { m with chans := [(32 * 7 + 31, ⟨0, true⟩), (32 * 7 + 30, ⟨4, false⟩)] })
    (s.ms.chan (32 * 7 + 30)).train = false ∧ (tget s.ms.hoffl 0 7).getLsbD 30 = false ∧ (s.ms.chan (32 * 7 + 30)).fails = 4 ∧
    (s.ms.chan 0).train = false ∧ (s.ms.chan 0).fails < 4 ∧ (s.ms.chan (32 * 7 + 31)).train = true ∧ 8 + 7 ∉ s.ms.farBad := by decide +kernel

/-- A copy record that is owned and passes its check, the last of its list. -/
def record1 (ctl : Nat) : List Byte :=
  leOf 8 0 ++ leOf 1 ctl ++ [3, 2, 0] ++ leOf 4 32 ++ leOf 8 0x1000 ++ leOf 8 0x17FFE0 ++ leOf 2 0 ++ leOf 2 0 ++ List.replicate 20 0 ++ leOf 8 0xC0000000

/-- A channel that walks with a record in buffer W, or in tenant memory. -/
def walking (head : Word) (ctl : Nat) : Region :=
  region1 { Core.empty with chans := [(15, { Chan.idle with st := .walk, head := head })], bufW := mwrite [] 0x5FFFC0 (record1 ctl) }

theorem witness_MemoryUnitStep :
    let g : GathReq := ⟨0, 0, 40, 0, 0, 0, 32, .hbm 0 0x1000, false, 0⟩
    let s := State.reset.withMs (fun m => { m with gather := [(3, ⟨[g], []⟩)] })
    let u := State.reset.withMs (fun m => { m with gather := [(3, ⟨[g], [⟨.hbm 0 0x1000, [{ g with seq := 1 }], 62, 44⟩, ⟨.hbm 1 0x1000, [g], 1, 44⟩]⟩)] })
    let t := { State.reset.withMs (fun m => { m with gather := [(3, ⟨[], [⟨.hbm 0 0x1000, [g], 1, 44⟩]⟩)] }) with time := 300 }
    let o : OwnedRec := { num := 0, xr := XferRec.ofBytes 0 (record1 1), started := true, run := 0, sec := 0, flying := 0, ready := [(0x17FFE0, List.replicate 32 7)], err := 0 }
    let p : OwnedRec := { o with xr := { o.xr with dsp := 3 } }
    (s.gather 3).inq = [g] ∧ (s.gather 3).rows = [] ∧ s.op 0 = none ∧ g.due ≤ s.time ∧
    ((u.gather 3).inq = [g] ∧ (∀ r ∈ (u.gather 3).rows, r.seen < 63) ∧ (∃ r ∈ (u.gather 3).rows, r.row = g.loc.row) ∧ ∀ r ∈ (u.gather 3).rows, r.row = g.loc.row → r.clash g = false) ∧
    (let k : Chan := { Chan.idle with st := .drain, recs := [{ o with num := 4, ready := [(0, [1])] }, o] }
     (k.recs.flatMap (fun o => o.ready.map (fun q => (o, q))))[1]? = some (o, (0x17FFE0, List.replicate 32 7)) ∧ k.recs.find? (fun p => p.num == o.num) = some o) ∧
    (let c : State := { State.reset with slots := [(3, { Slot.free with reset := some ⟨5, false⟩ })] }; (c.slot 3).reset.isSome = true) ∧ (t.gather 3).rows[0]? = some ⟨.hbm 0 0x1000, [g], 1, 44⟩ ∧ 256 ≤ t.time - 44 ∧
    (match mapped.walkStep 4 0 0x2000100000 (BitVec.ofNat 64 (0x12345678 * 65536)) with | .next _ => true | _ => false) = true ∧
    (∀ ctl ∈ [0, 1, 5], (walking 0xC0000000005FFFC0 ctl).window 0xC0000000005FFFC0 64 = some (0, 0x5FFFC0)) ∧
    (let b (ctl : Nat) := (inSlot (walking 0xC0000000005FFFC0 ctl)).bufRead 0 0 0 0x5FFFC0 64;
      (XferRec.ofBytes 0xC0000000005FFFC0 (b 0)).ctl.getLsbD 0 = false ∧
      ((XferRec.ofBytes 0xC0000000005FFFC0 (b 1)).ctl.getLsbD 0 = true ∧ (XferRec.ofBytes 0xC0000000005FFFC0 (b 1)).ok false (b 1) = true) ∧
      ((XferRec.ofBytes 0xC0000000005FFFC0 (b 5)).ctl.getLsbD 0 = true ∧ (XferRec.ofBytes 0xC0000000005FFFC0 (b 5)).ok false (b 5) = false)) ∧
    (let k := ((walking 0x1000 1).core 0).chan 15; (walking 0x1000 1).running = true ∧ k.st = .walk ∧ k.reading = false ∧ ((walking 0x1000 1).core 0).owned + ((walking 0x1000 1).core 0).readings < 512 ∧ isWindow k.head = false) ∧
    o.xr.dsp.toNat = 2 ∧ (0x17FFE0 : Word).toNat + 32 ≤ bufLen false 2 ∧ p.xr.dsp.toNat = 3 := by decide +kernel

/-- A command of an opcode, of function 1, with operand bytes placed. -/
def cmdOf (opc : Nat) (args : List (Nat × List Byte)) : Run :=
  let byte (i : Nat) : Byte := args.foldl (fun b p => if p.1 ≤ i ∧ i < p.1 + p.2.length then p.2.getD (i - p.1) 0 else b) 0
  { id := 0, fn := 1, q := 0, ent := (List.range 64).map (fun i => if i = 2 then BitVec.ofNat 8 opc else byte i), sqhead := 1, stage := 0, rack := none }

/-- The machine with a command that runs. -/
def running (s : State) (r : Run) : State := { s with hs := { s.hs with runs := [r], nextRun := 1 } }

/-- An image of one core that holds nothing, as a registered handle has it. -/
def img1 : Image :=
  { ten := 0, va := 0x8000, len := 1440, ncore := 1, flg := 0, nent := 1, ents := List.replicate 16 0, wcl := 0, lcap := 64, gran := 1, cores := [], digest := [] }

/-- NOP, IMGDROP, LAUNCH, WALK begun and under
way, COPY here and from a peer, RESREP, ATTEST, EXTMEAS of the last measurement, INVTLB before and after its entries go. -/
theorem witness_HostCommandResult :
    let s := { tenMem State.reset [] with hs := { State.reset.hs with images := [(9, img1)] } }
    let drop := cmdOf 2 [(8, leOf 4 9)]
    let launch := cmdOf 3 [(8, leOf 4 9), (16, leOf 8 0), (0x1C, [1, 2]), (32, leOf 8 0x10000)]
    let walk := cmdOf 4 [(8, leOf 8 0x3000)]
    let copy := cmdOf 5 [(8, leOf 8 0x3000), (16, leOf 8 0x5000), (0x18, leOf 4 8)]
    let meas := cmdOf 9 [(8, [7]), (16, leOf 8 0x3000)]
    ((running s (cmdOf 0 [])).runOf 0 = some (cmdOf 0 []) ∧ (cmdOf 0 []).stage = 0 ∧ (cmdOf 0 []).arg 2 1 = 0 ∧
      ((running s drop).image (drop.arg 8 4) = some img1 ∧ img1.ten = drop.ten ∧ ∀ q ∈ (running s drop).slots, q.2.uses (drop.arg 8 4) = false) ∧
      (launch.arg 2 1 = 3 ∧ launch.arg 32 8 ≠ 0 ∧ launch.arg 32 8 % 65536 = 0 ∧ launch.arg 0x1C 1 = img1.ncore ∧ (running s launch).mg.slq.length < 64 ∧
        (running s launch).freeSlot = some 0 ∧ img1.ncore ≤ (running s launch).freePlaces.length) ∧
      ((running s walk).walk 0).active = false ∧ (s.onWalk 0 (fun g => { g with active := true })).walk 0 ≠ GraphWalk.idle ∧ copy.arg 0x18 4 ≠ 0 ∧ drop.fn ≠ 0 ∧
      (s.mg.lcs ≠ 0 ∧ s.mg.lcs ≠ 4) ∧ meas.arg 8 1 = 7 ∧ (cmdOf 6 [(16, leOf 8 1)]).arg 2 1 = 6 ∧ s.usesOld 0 0 = false) ∧
    (let w := (((running s walk).onWalk 0 (fun _ => { GraphWalk.idle with active := true, addr := 0x3000, cmd := 0 })).stageRun 0 1).onWalk 0 (fun g => { g with arrive := [(0, 255)] })
     (w.walkPeer 0 0x3000).isNone = true ∧ (running s walk).wk.reads = [] ∧ ∃ (t : State) (b : List Byte), w.uget 0 needR apLocal 0x3000 64 = (t, .ok b) ∧ (b.length == 64) = true) ∧
    (∃ (t : State) (b : List Byte), s.uget 0 needR apAll 0x3000 8 = (t, .ok b) ∧
      (!t.meetsPeer 0 needW 0x5000 b.length && (t.nput 0 apAll 0x5000 b).2.isNone) = true) ∧
    ((∃ t, s.nput 0 apAll 0x5000 (s.report (some 0)) = (t, none)) ∧ s.meetsPeer 0 needW 0x5000 (s.report (some 0)).length = false) ∧
    (∃ (t : State) (b : List Byte), s.uget 0 needR apAll 0x3000 64 = (t, .ok b) ∧ (b.length == 64 && !t.meetsPeer 0 needW 0x5000 64) = true) ∧
    (copy.bad = none ∧ copy.input = none ∧ copy.wrote = false ∧ s.meetsPeer 0 needR 0x3000 64 = false ∧ s.meetsPeer 0 needR 0x3000 8 = false ∧
      { s with mg := { s.mg with dx := 1 }, ms := { s.ms with hbm := [(0, mwrite [] 0x100008 (leOf 8 0x103D3))] } }.meetsPeer 0 needR 0x80000000 8 = true) :=
  ⟨by decide +kernel, ⟨by decide +kernel, by decide +kernel, got_of _ (fun _ (b : List Byte) => b.length == 64) (by decide +kernel)⟩,
    got_of _ (fun (t : State) b => !t.meetsPeer 0 needW 0x5000 b.length && (t.nput 0 apAll 0x5000 b).2.isNone) (by decide +kernel),
    ⟨put_of _ (by decide +kernel), by decide +kernel⟩,
    got_of _ (fun (t : State) (b : List Byte) => b.length == 64 && !t.meetsPeer 0 needW 0x5000 64) (by decide +kernel), by decide +kernel⟩

/-- The smallest image: a core of one word, WFE, whose element 16 has one record, SINK. -/
def image1 : List Byte :=
  leOf 4 0x47414D55 ++ leOf 2 1 ++ leOf 2 0 ++ [1, 1, 0, 0] ++ leOf 12 0 ++ leOf 4 256 ++ leOf 4 1440 ++ List.replicate 96 0 ++
  leOf 64 0x3F17677D952051B1D0B1879092CB166C1027D4257A746D1333A1D0060D57B939A894F49F45265E26D4B724F23B2F1880E6E58D4FCDCF16008F080DCD0A6C6901 ++
  List.replicate 64 0 ++ (leOf 4 272 ++ leOf 6 0 ++ leOf 2 1 ++ leOf 4 1376) ++
  (List.replicate 256 0 ++ (leOf 4 1296 ++ leOf 2 1 ++ leOf 2 8 ++ [0, 1, 0, 0] ++ leOf 4 1312) ++ List.replicate 752 0) ++
  (leOf 12 0x020C00000300000000000000 ++ leOf 4 0) ++ (leOf 4 0x20000000 ++ List.replicate 12 0 ++ leOf 4 2 ++ List.replicate 44 0) ++ (leOf 4 0xEC000800 ++ List.replicate 60 0)

set_option maxRecDepth 20000 in
/-- The image passes every check of IMGREG, its digest included. -/
theorem witness_HostCommandResult_image : headerOk image1 1440 = true ∧ tablesOk image1 = true ∧
    (match (Image.ofBytes 0 0x8000 image1).check image1 with | .ok _ => true | .error _ => false) = true := by decide +kernel

/-- The machine with that image at 0x8000 of tenant 0. -/
def imaged : State :=
  let s := tenMem State.reset []
  { s with ms := { s.ms with hbm := [(0, (mapIdxFrom (fun i b => (0x8000 + i, b)) 0 image1).filter (fun c => c.2 != 0) ++ mwrite [] 0x100000 (leOf 8 0x3C3))] } }

set_option maxRecDepth 20000 in
/-- IMGREG of it: its header, then all of it, read where no leaf is a peer leaf. -/
theorem witness_HostCommandResult_imageRead :
    let r := cmdOf 1 [(8, leOf 8 0x8000), (16, leOf 8 1440)]
    ((running imaged r).runOf 0 = some r ∧ r.stage = 0 ∧ r.arg 2 1 = 1 ∧ 256 ≤ r.arg 16 8 ∧ r.fn ≠ 0 ∧ r.bad = none ∧ r.input = none ∧
      imaged.meetsPeer r.ten needG 0x8000 256 = false ∧ imaged.meetsPeer r.ten needG 0x8000 1440 = false ∧ fieldOf image1 0x1C 4 = 1440 ∧ fieldOf image1 0x10 8 = 0) ∧
    ∃ (t : State) (b : List Byte), imaged.uget 0 needG apAll 0x8000 256 = (t, .ok b) ∧
      (b == image1.take 256 && (match (t.uget 0 needG apAll 0x8000 1440).2 with | .ok y => y == image1 | .error _ => false)) = true :=
  ⟨by decide +kernel, got_of _ (fun (t : State) b => b == image1.take 256 && (match (t.uget 0 needG apAll 0x8000 1440).2 with | .ok y => y == image1 | .error _ => false))
    (by decide +kernel)⟩

/-- Every device. -/
def all256 : List Byte := (List.range 256).map (BitVec.ofNat 8)

theorem nodup256 : all256.Nodup := by
  refine List.pairwise_map.2 (List.Pairwise.imp_of_mem ?_ (List.nodup_range (n := 256)))
  intro a b ha hb h e
  have := congrArg BitVec.toNat e
  simp only [BitVec.toNat_ofNat, List.mem_range] at *
  omega

/-- The last group, of this device and one more, and of all 256; two tricks in a graph, and the tricks of a built-in broadcast; a collective to drop. -/
theorem witness_HostCommandResult_collectives :
    let trick : List Byte := leOf 16 (2 ^ 128 - 1) ++ leOf 16 (1 + 2 ^ 112 * (16 * 0))
    let s0 := tenMem State.reset [(0x3000, [0x10, 0x00]), (0x4000, trick ++ trick)]
    let s := { s0 with mg := { s0.mg with dx := 15, dy := 15 }, fb := { s0.fb with groups := [(0, 63, [0x10, 0x00])] } }
    let u := { s with ms := { s.ms with hbm := [(0, (List.range 255).map (fun i => (0x6001 + i, BitVec.ofNat 8 (1 + i))) ++ mwrite [] 0x100000 (leOf 8 0x3C3))] } }
    let grp (n : Nat) (a : Nat) := cmdOf 11 [(8, leOf 1 63 ++ leOf 1 n), (16, leOf 8 a)]
    let load := cmdOf 10 [(8, [63, 0, 63]), (16, leOf 8 0x4000), (0x18, leOf 2 2)]
    let bc := cmdOf 10 [(8, [63, 5, 63, 0, 0, 0, 1]), (16, leOf 8 4096)]
    let set (s : State) (n a : Nat) (l : List Byte) : Prop := (grp n a).arg 9 1 = n ∧ (grp n a).arg 8 1 < 64 ∧ l.Nodup ∧
      ∃ (t : State) (b : List Byte), s.uget 0 needR apLocal (BitVec.ofNat 64 a) l.length = (t, .ok b) ∧ (b == l && b.all t.inDomain && b.contains t.self && !t.groupBusy 0 63) = true
    set s 2 0x3000 [0x10, 0x00] ∧ set u 0 0x6000 all256 ∧
    (load.arg 8 1 < 64 ∧ load.arg 9 1 = 0 ∧ load.arg 11 1 ≤ 4 ∧ load.arg 12 1 ≤ 3 ∧ load.arg 13 1 ≤ 2 ∧ load.arg 0x18 2 = 2 ∧
      (∃ t b, s.uget 0 needR apLocal 0x4000 64 = (t, .ok b) ∧ ((List.range 2).all (fun i => trickOk 2 (fieldOf b (32 * i) 32)) && t.group 0 63 == some [0x10, 0x00] &&
        !(t.coll 0 63).any Coll.busy && t.fb.colls.length == 0) = true)) ∧
    (bc.arg 8 1 < 64 ∧ bc.arg 9 1 = 5 ∧ bc.arg 14 1 < 2 ∧
      let g := s.builtin bc.loading [0x10, 0x00]
      builtinCount g.1 g.2 ≤ 4096 ∧ (builtinTricks g.1 g.2 [0x10, 0x00] 0 0).length = builtinCount g.1 g.2) :=
  ⟨⟨by decide +kernel, by decide +kernel, by decide +kernel, got_of _ _ (by decide +kernel)⟩,
    ⟨by decide +kernel, by decide +kernel, nodup256, got_of _ _ (by decide +kernel)⟩,
    by refine ⟨?_, ?_, ?_, ?_, ?_, ?_, got_of _ _ ?_⟩ <;> decide +kernel, by decide +kernel⟩

/-- Room for one more completion, for none, and behind one that waits. -/
theorem witness_RingEntryWritten_completion :
    let q (h : Nat) : Queue := { (Fn.reset0.queue 0) with csz := 4, cqtail := 14, cqhead := h }
    let room (x : Queue) : Prop := x.posts = [] ∧ (x.cqtail + 2 ^ x.csz.toNat - x.cqhead) % 2 ^ x.csz.toNat + 1 < 2 ^ x.csz.toNat
    (cmdOf 0 []).rack = none ∧ (cmdOf 0 []).ent.length = 64 ∧ room (q 0) ∧ ¬ room (q 15) ∧ ¬ room { q 0 with posts := [⟨[], 0, 0, 0⟩] } := by decide +kernel

/-- Rings with room and full, enabled and not. -/
theorem witness_RingEntryWritten :
    let x : Fn := { Fn.reset0 with fren := true, frsize := 4, frtail := 14 }
    x.fren = true ∧ (x.frtail.toNat + 1) % 2 ^ x.frsize.toNat ≠ x.frhead.toNat % 2 ^ x.frsize.toNat ∧
    (15 + 1) % 2 ^ x.frsize.toNat = x.frhead.toNat % 2 ^ x.frsize.toNat ∧ Fn.reset0.fren = false := by decide +kernel

/-- A queue of 16 entries with one command, its head at the ring's end. -/
def queue1 : Queue := { (Fn.reset0.queue 0) with en := true, csz := 4, ssz := 4, head := 15, tail := 0 }

/-- The machine with the queue 63 of function 1. -/
def hosted (x : Queue) : State :=
  let s := tenMem State.reset []
  { s with hs := { s.hs with fns := [(1, { Fn.reset0 with enabled := true, rackck := 7, queues := [(63, x)] })] } }

/-- The entry of a launch packet for the queue 63 of function 1. -/
def launch96 (ver : Byte) : List Byte := [ver, 0, 63, 0] ++ leOf 4 0 ++ leOf 8 7 ++ List.replicate 80 0

/-- A doorbell to the last free entry and beyond; sizes 4 and 12 and just outside; a command read, one read before, fenced or not; a rack launch taken, one on a
full queue, one that is bad, and over a transport that carries none; a window onto memory, onto nothing, and onto a peer. -/
theorem witness_HostQueueResult :
    let s := hosted queue1
    let r := cmdOf 0 []
    let f := hosted { queue1 with fetched := some { r with ent := [0, 0, 0, 1] } }
    let g := { f with hs := { f.hs with runs := [{ r with q := 63 }] } }
    let t (x : Queue) := { hosted { x with src := true } with fb := { Fabric.reset with eth := [(9, 1)] } }
    let peer := { s with mg := { s.mg with dx := 1 }, ms := { s.ms with hbm := [(0, mwrite [] 0x100008 (leOf 8 0x103D3))] } }
    (s.fnOn 1 = true ∧ 63 < 64 ∧ queue1.en = true ∧ queue1.src = false ∧ queue1.posts = [] ∧ queue1.fetched = none ∧ (14 : W32).toNat < 2 ^ queue1.ssz.toNat ∧
      (14 + 16 - queue1.tail) % 16 ≤ (queue1.head + 16 - queue1.tail - 1) % 16 ∧ ¬((15 + 16 - queue1.tail) % 16 ≤ (queue1.head + 16 - queue1.tail - 1) % 16) ∧
      16 ≤ (16 : W32).toNat) ∧
    ((0x80C40000 : W32).getLsbD 31 = true ∧ ((0x80C40000 : W32).extractLsb' 20 4).toNat = 12 ∧ ((0x80C40000 : W32).extractLsb' 16 4).toNat = 4 ∧
      ((0x80D30000 : W32).extractLsb' 16 4).toNat < 4 ∧ (0 : W32).getLsbD 31 = false) ∧
    ((s.fn 1).queue 63 = queue1 ∧ s.mayStart 1 63 = true ∧ (t queue1).mayStart 1 63 = true ∧ f.mayStart 1 63 = true ∧ (f.fenced { r with ent := [0, 0, 0, 1] } = false) ∧
      g.fenced { r with q := 63, ent := [0, 0, 0, 1] } = true) ∧
    ((t queue1).carriesLaunch (.ether 9) = true ∧ s.carriesLaunch (.ether 9) = false ∧ (t queue1).launchBad (launch96 1) = none ∧ (t queue1).launchBad (launch96 2) = some 1 ∧
      fieldOf (launch96 1) 1 1 + 1 = 1 ∧ fieldOf (launch96 1) 2 1 = 63 ∧ (queue1.tail + 1) % 2 ^ queue1.ssz.toNat ≠ queue1.head ∧
      ({ queue1 with tail := 14 }.tail + 1) % 2 ^ queue1.ssz.toNat = queue1.head) ∧
    (2 ^ 32 - 8 + 8 ≤ 2 ^ 32 ∧ (∃ u, s.vput 0 apAll ((s.fn 1).window 0x7FFFFFF8) (List.replicate 8 1) = (u, none)) ∧
      (s.meetsPeer 0 needR ((s.fn 1).window 0x7FFFFFF8) 8 = false ∧ s.meetsPeer 0 needW ((s.fn 1).window 0x7FFFFFF8) 8 = false ∧
        s.meetsPeer 0 needR ((s.fn 1).window (2 ^ 32 - 8)) 8 = false ∧ s.meetsPeer 0 needW ((s.fn 1).window (2 ^ 32 - 8)) 8 = false) ∧
      (match (s.uget 0 needR apAll ((s.fn 1).window (2 ^ 32 - 8)) 8).2 with | .ok _ => false | .error _ => true) = true ∧
      (s.vput 0 apAll ((s.fn 1).window (2 ^ 32 - 8)) (List.replicate 8 1)).2.isSome = true ∧
      (∃ (u : State) (b : List Byte), s.uget 0 needR apAll ((s.fn 1).window 0x7FFFFFF8) 8 = (u, .ok b) ∧ (b.length == 8) = true)) ∧
    peer.meetsPeer 0 needR ((s.fn 1).window 0x80000000) 8 = true ∧ peer.meetsPeer 0 needW ((s.fn 1).window 0x80000000) 8 = true ∧ queue1.ien = false :=
  ⟨by decide +kernel, by decide +kernel, by decide +kernel, by decide +kernel,
    ⟨by decide +kernel, put_of _ (by decide +kernel), by decide +kernel, by decide +kernel, by decide +kernel, got_of _ (fun _ (b : List Byte) => b.length == 8) (by decide +kernel)⟩,
    by decide +kernel⟩

/-- Slot 3 of the image 9 in a state, with a region or without; CMAP names place 0. -/
def slotIn (st : BitVec 8) (r : Option Region) : Slot :=
  { Slot.free with st := st, ncore := 1, l := 2, img := 9, cmap := (List.range 64).map (fun i => (i, if i = 0 then 0 else 0xFF)), savek := 0x10000, region := r }

/-- The machine with slot 3 and commands queued for it. -/
def slotted (x : Slot) (cmds : List Nat) : State :=
  let s := tenMem State.reset []
  { s with hs := { s.hs with images := [(9, img1)] }, mg := { s.mg with slq := cmds.map (fun c => (3, c, 0)) }, slots := [(3, x)] }

/-- Whether a load of slot 3 has ended well, from an image of a number of cores. -/
def loads (n : Nat) (x : Slot) : Bool :=
  let s := { slotted x [] with hs := { State.reset.hs with images := [(9, { img1 with ncore := n })] } }
  x.reset.isNone && s.readsDone 3 && (match s.loaded 3 with | .ok _ => true | .error _ => false)

/-- The commands in the states in which they act, one refused, and one of a tenant whose reset runs; a load that ends, a restore that ends, a load that fails; a
drained region, and one that has not drained in time; a region saved. -/
theorem witness_SlotCommandResult :
    let r := rgnE [] []
    let d : Region := { r with next := 1, l := 2, wcl := 5, cores := [(0, { Core.empty with counts := [(0, 1)] })] }
    let take (x : Slot) (cmd : Nat) : Bool := (slotted x [cmd]).nextCmd == some (3, cmd, 0) && (slotted x []).refused 3 cmd == none
    let read : Load := ⟨[], none⟩
    let none_ := { r with ncore := 0, cores := [] }
    ((slotted (slotIn 2 (some r)) [1]).nextCmd = some (3, 1, 0) ∧ (slotted (slotIn 2 (some r)) []).refused 3 1 = some csBADSTATE ∧
      ((slotted (slotIn 0 none) []).fn 1).reset = false ∧
      (({ slotted (slotIn 0 none) [] with hs := { State.reset.hs with fns := [(1, { Fn.reset0 with reset := true })] } } : State).fn 1).reset = true) ∧
    (take (slotIn 0 none) 1 = true ∧ take (slotIn 7 none) 2 = true ∧ take (slotIn 2 (some r)) 2 = true ∧ (slotIn 2 (some r)).flg.getLsbD 0 = false ∧
      take { slotIn 2 (some r) with flg := 1 } 2 = true ∧ take (slotIn 2 (some r)) 3 = true ∧ take { slotIn 5 none with saved := some ⟨r, 0⟩ } 4 = true ∧
      take (slotIn 2 (some r)) 5 = true ∧ take (slotIn 0 none) 5 = true ∧ take (slotIn 7 (some { r with img := 9 })) 6 = true) ∧
    loads 1 { slotIn 1 none with load := some read } = true ∧ loads 0 { slotIn 6 none with load := some read, saved := some ⟨none_, 0⟩ } = true ∧
    ((slotted { slotIn 1 none with img := 8, load := some read } []).slotError 3).isSome = true ∧ r.drained = true ∧
    (d.wcl ≠ 0 ∧ 0 + d.l * d.wcl + 2000 ≤ ({ State.reset with time := 2010 } : State).time ∧ ∃ c ∈ d.liveColours, d.sum c ≠ 0) ∧
    ((slotted (slotIn 4 (some none_)) []).busySlot 3 = false ∧ ∃ t, ((slotted (slotIn 4 (some none_)) []).sendHolds 3).saveCores 0 0x10000 (List.range 0) = (t, none)) :=
  by refine ⟨?_, ?_, ?_, ?_, ?_, ?_, ?_, ⟨?_, put_of _ rfl⟩⟩ <;> decide +kernel

/-- A walk of tenant 0 whose last node is eligible. -/
def walkAt (b : List Byte) : State :=
  let s := tenMem State.reset []
  { s with wk := { s.wk with walks := [(0, { GraphWalk.idle with active := true, elig := [⟨0xFFFE, b, 0, none⟩] })] } }

/-- An eligible node of each kind; tasks in a FREE slot of phase 0, of the last phase with an equal one running, behind a lower one, and of another tenant; a node
that arrives. -/
theorem witness_WalkerNodeResult :
    let at_ (s : State) (b : List Byte) : Bool := s.eligNode 0 0xFFFE (fieldOf b 0 1) == some ⟨0xFFFE, b, 0, none⟩
    let free (s : State) (n : Nat) : Bool := (s.slot n).ten == 0 && (s.slot n).st == 0 && (s.slot n).task.isNone && (s.slot n).reset.isNone
    let with_ (b c : List Byte) : State := (walkAt b).onWalk 0 (fun g => { g with tasks := [⟨1, c, 1⟩] })
    let other : State := { walkAt [0] with slots := [(0, { Slot.free with ten := 1 })] }
    (∀ k ∈ [0, 1, 2, 3, 4], at_ (walkAt [k]) [k] = true) ∧ ((walkAt [4]).walk 0).tasks = [] ∧ ((with_ [4] [0]).walk 0).tasks ≠ [] ∧ at_ (with_ [4] [0]) [4] = true ∧
    (free (walkAt [0]) 0 = true ∧ (walkAt [0]).mg.slq.length < 64 ∧ fieldOf [(0 : Byte)] 3 1 = 0) ∧
    (let s := with_ [0, 1, 1, 255] [0, 1, 1, 255]
     at_ s [0, 1, 1, 255] = true ∧ free s 0 = true ∧ (∀ t ∈ (s.walk 0).tasks, 255 ≤ fieldOf t.ent 3 1) ∧ s.wk.reads = [] ∧
      ∀ f ∈ (s.walk 0).elig, fieldOf f.ent 0 1 = 0 ∧ 255 ≤ fieldOf f.ent 3 1) ∧
    (at_ (with_ [0, 1, 1, 1] [0, 1, 1, 0]) [0, 1, 1, 1] = true ∧ ∃ t ∈ ((with_ [0, 1, 1, 1] [0, 1, 1, 0]).walk 0).tasks, fieldOf t.ent 3 1 < 1) ∧
    (at_ other [0] = true ∧ (other.slot 0).ten.toNat ≠ 0) ∧
    (((walkAt [0]).walk 0).active = true ∧ ((walkAt [0]).walk 0).failed = none ∧ (walkAt [0]).walkPeer 0 ((walkAt [0]).nodeVa 0 0xFFFE) = none) ∧
    ((∃ f ∈ ((walkAt [0]).walk 0).elig, f.node = 0xFFFE) ∧ (∀ f ∈ ((walkAt [0]).walk 0).elig, f.node ≠ 0xFFFD) ∧ (walkAt [0]).wk.reads = [] ∧
      (walkAt [0]).walkPeer 0 ((walkAt [0]).nodeVa 0 0xFFFD) = none) ∧
    ∃ (t : State) (b : List Byte), (walkAt [0]).uget 0 needR apLocal ((walkAt [0]).nodeVa 0 0xFFFD) 64 = (t, .ok b) ∧ (b.length == 64 && t.wk == (walkAt [0]).wk) = true :=
  by refine ⟨?_, ?_, ?_, ?_, ?_, ?_, ?_, ?_, ?_, ?_, got_of _ (fun (t : State) (b : List Byte) => b.length == 64 && t.wk == (walkAt [0]).wk) ?_⟩ <;> decide +kernel

/-- The machine with an operation of slot 3 that has begun. -/
def inFlight : State := State.reset.withMs (fun m => { m with ops := [mkOp (.ccLoad 3 0 0 0 false) (.cc 3 0) 0 .read [] [] apAll] })

/-- No reset in progress, one of each rank, windows of the two expanders, erasing them under way and at its limit; a tenant reset that begins and one that may end; a
slot with an operation that has begun, at the last ns of the 1 ms and after.  (That an expander can erase itself is Config's: log 5.) -/
theorem witness_ResetResult (h : Config.cxlErase 0 = true ∧ Config.cxlErase 1 = true) :
    let at_ (m : Mgmt) : State := { State.reset with mg := m }
    let s := at_ { Mgmt.reset with twin := [(0, 0xC000000000000001), (1, 0xC000800000000001)] }
    let t := { at_ { Mgmt.reset with stage := .warmErase [0, 1] 5 } with time := 10000000005 }
    let fns (f : Fn) : State := { State.reset with hs := { State.reset.hs with fns := [(16, f)] } }
    let clearing (now : Nat) : State := { inFlight with slots := [(3, { Slot.free with reset := some ⟨5, false⟩ })], time := now }
    (∀ p ∈ [0, 1], Config.cxlErase p = true) ∧
    (State.reset.mg.wipe = false ∧ State.reset.resetRank = none ∧ (at_ { Mgmt.reset with powered := false }).mg.powered = false ∧
      (at_ { Mgmt.reset with held := true, cause := 1 }).resetRank = some 1 ∧ (at_ { Mgmt.reset with stage := .fused }).resetRank = some 2 ∧ t.resetRank = some 3) ∧
    (State.reset.cxlPorts = [] ∧ State.reset.mg.seals = []) ∧ (s.resetRank = none ∧ s.cxlPorts = [0, 1]) ∧
    (t.mg.stage = .warmErase [0, 1] 5 ∧ 1 ∈ [0, 1] ∧ (∃ p ∈ [0, 1], p ≠ 1) ∧ 10000000000 ≤ t.time - 5) ∧
    ((at_ { Mgmt.reset with stage := .warmErase [1] 5 }).mg.stage = .warmErase [1] 5 ∧ (∀ p ∈ [1], p = 1) ∧ (at_ { Mgmt.reset with stage := .warmErase [1] 5 }).mg.seals = []) ∧
    ((at_ { Mgmt.reset with seals := [⟨0x1000, 0x1000, 0, [], []⟩] }).sealedAt 0 0x1FFF = true ∧ State.reset.sealedAt 0 0x1FFF = false) ∧
    (15 < 16 ∧ (State.reset.fn 16).reset = false ∧ State.reset.slots = [] ∧ ((fns { Fn.reset0 with reset := true }).fn 16).reset = true ∧
      (fns { Fn.reset0 with reset := true }).tenantSlots 15 = [] ∧ ((fns { Fn.reset0 with reset := true }).fn 16).closing = false ∧
      (fns { Fn.reset0 with reset := true }).ms.reqs = []) ∧
    ((State.reset.slot 255).reset = none ∧ ((clearing 5).slot 3).reset = some ⟨5, false⟩ ∧ (clearing 1000004).busySlot 3 = true ∧ (clearing 1000004).time < 5 + 1000000 ∧
      5 + 2000000 ≤ (clearing 2000005).time) ∧
    State.reset.inWindow 15 0 0 1 = false ∧ (tenMem State.reset []).inWindow 0 0 0 1 = true ∧
    (State.reset.fn 16).enabled = false ∧ ((fns { Fn.reset0 with enabled := true }).fn 16).enabled = true :=
  ⟨by simp [h.1, h.2], by decide +kernel⟩

/-- The transitions of the table, a signed one (whether a signature verifies is Config's: log 10); a window that may be sealed; temperatures and powers at the limits. -/
theorem witness_LifeCycleAndThermalResult (sg : List Byte) (h : Config.sigOk 0 (leOf 1 4) sg = true) :
    Config.sigOk 0 (leOf 1 4) sg = true ∧ State.reset.resetRank = none ∧
    ({ State.reset with mg := { Mgmt.reset with stage := .warmErase [0] 5 } } : State).resetRank = some 3 ∧ (State.reset.mg.lcs.toNat, 4) ∈ [(0, 1), (1, 2), (1, 3), (2, 3), (2, 4), (3, 4)] ∧ State.reset.mg.powered = true ∧
    State.reset.agenda = [] ∧ State.reset.maySeal (7 * 2 ^ 36) 0x200000 = true ∧ (1680 : Int) ≤ 1680 ∧ 4 ∉ State.reset.mg.throttle ∧
    ({ State.reset with mg := { Mgmt.reset with throttle := [4] } } : State).mg.throttle = [4] ∧ (1600 : Int) ≤ 1600 ∧ 2999 < State.reset.mg.plimit.toNat :=
  ⟨h, by decide +kernel⟩

/-- A window that meets no other tenant's; a function that is on; K of VWCFG due now. -/
theorem witness_RegisterAccessResult :
    let s := { State.reset with
      mg := { Mgmt.reset with vwNext := some (16, 5), twin := [(16, 0x8000000000008000)] }, time := 5, hs := { State.reset.hs with fns := [(16, { Fn.reset0 with enabled := true })] } }
    s.mg.vwNext = some (16, 5) ∧ 5 ≤ s.time ∧ (0x8000008000008000 : Word).extractLsb' 61 2 ≠ 3#2 ∧
    (∀ p ∈ s.mg.twin, p.1 / 16 ≠ 0 → windowsClash ((0x8000008000008000 : Word) &&& 0xE000FFFFFFFFFFFF).toNat p.2.toNat = false) ∧ s.fnOn 16 = true := by decide +kernel

theorem witness_DetectionTimeRegister :
    let s := inSlot (rgnE [] [])
    s.region 0 = some (rgnE [] []) ∧ ((nextOf (.dlkcfgWrite 30) s).region 0).isSome = true ∧ 10 ≤ (30 : W32).toNat % 2 ^ 5 ∧ (rgnE [] []).idleAt ≠ 1 := by decide +kernel

theorem witness_PortMap :
    (State.reset.mg.x.toNat = 0 ∧ State.reset.portTo 0xF0 = some 14 ∧ State.reset.livePort 0xF0 = some (State.reset.physPort 14)) ∧ ((61 : W32).extractLsb' 0 5).toNat = 29 ∧
    (61 : W32).getLsbD 5 = true ∧ (61 : W32).getLsbD 13 = false ∧ (State.reset.port 30).ualink = false ∧
    (let s := { State.reset with mg := { Mgmt.reset with trimap := 0x2E } }; s.portTo 0xF0 = some 14 ∧ s.livePort 0xF0 = some 30) := by decide +kernel

/-- A packet for this device, of a kind, class and content. -/
def pktTo (kind : BitVec 4) (tc : BitVec 3) (opq : BitVec 40) (b : List Byte) : Packet :=
  let n := (b.length + 31) / 32
  { dst := 0, src := 0x10, via := 0, vv := 0, tc := tc, ten := 0, rsv := 0, seq := 0, kind := kind, len := BitVec.ofNat 6 (n - 1), np := 0,
    pad := BitVec.ofNat 5 (32 * n - b.length), win := 0, opq := opq, data := b ++ List.replicate (32 * n - b.length) 0, hop := 0x10 }

/-- TRIMAP refused and taken, with a packet at a port that it moves and one at another. -/
theorem witness_RegisterAccessResult_trimap :
    let v : W32 := 0x3D
    let pkt := { pktTo 0 3 0 [] with dst := 0xF0 }
    let u := State.reset.withFb (fun f => { f with out := [⟨29, pkt, 0⟩, ⟨28, pkt, 0⟩], custody := [⟨pkt, 29, 0, 0⟩] })
    let dest (q : Nat) : Nat := if q < 32 then (nextOf (.trimapWrite v) u).physPort (u.roleOf q) else q
    v.getLsbD 5 = true ∧ v.toNat % 32 = 29 ∧ v.getLsbD 13 = false ∧ (u.port 30).ualink = false ∧ (0x3E : W32).getLsbD 5 = true ∧ 29 < (0x3E : W32).toNat % 32 ∧ u.fb.held = [] ∧
      u.expired pkt 0 = false ∧ dest 29 = 30 ∧ dest 28 = 28 ∧ ∀ p ∈ List.range 32, p ≠ 28 → dest p ≠ 28 := by decide +kernel

/-- A running instance of the collective 63, of a group of this device and 0x10. -/
def inst0 : Instance := { num := 0, table := List.replicate 16 0x3000, st := [], done := 0, last := 0, region := 0 }

/-- The machine with that collective, running or not. -/
def collected (k : Coll) : State :=
  let s := tenMem State.reset []
  { s with fb := { s.fb with groups := [(0, 0, [0x10, 0x00])], colls := [k] } }

/-- Reduction 9 of tenant 0 at unit 3, of one input. -/
def meld9 : Meld :=
  { ten := 0, red := 9, nin := 1, vti := false, vto := false, dth := 256, up := none, mcg := 0, ins := [], next := 0, pseq := 0, movf := false, mnan := false, coll := 63, last := 0 }

/-- A packet of reduction 9's input, of a sequence number: the end packet, or one entry of index 1. -/
def meldPkt (enc pseq : Nat) (lastp : Bool) : Packet :=
  pktTo 5 3 3 (MHead.bytes { seg := 0, cnt := if enc == 0 then 1 else 0, enc := enc, vt := false, lastp := lastp, status := 0, lin := 0, red := 9, pseq := pseq, off := 0 } ++
    if enc == 0 then leOf 4 1 ++ leOf 4 0x3F800000 else [])

/-- Packets of each kind that the machine takes in a custody class and, in the class of writes, in order on a connection, for accesses of 8 bytes below 2 GiB and outside. -/
theorem witness_FabricArrivalResult :
    let s := collected { coll0 with running := some inst0 }
    let q (a : Nat) := pktTo 1 3 0 (leOf 8 a ++ leOf 8 8)
    let w (tc : BitVec 3) (a : Nat) := pktTo 0 tc 0 (leOf 8 a ++ leOf 8 8 ++ leOf 8 5)
    let a (op c : Nat) := pktTo 3 3 0 (leOf 8 0x7FFFFFF8 ++ leOf 8 8 ++ leOf 8 5 ++ leOf 8 c ++ leOf 8 op)
    let ok (s : State) (p : Packet) (kind : BitVec 4) : Bool :=
      p.kind == kind && p.tc != 7 && p.rsv == 0 && p.np == 0 && p.dst == s.self && !s.strayPort p && !s.tcConn p.tc && p.seq == 0 && !(s.fn (p.ten.toNat + 1)).reset
    let conn : Conn := { Conn.fresh 0x10 0 0 with expect := 7, owed := 15 }
    let r := s.withFb (fun f => { f with conns := [conn] })
    let p6 := { w 6 0x7FFFFFF8 with seq := 7 }
    (ok s (w 3 0x7FFFFFF8) 0 && ok s (w 2 0x7FFFFFF8) 0 && ok { s with mg := { s.mg with tccfg := 0x0A1442C7 } } (w 5 0x7FFFFFF8) 0 && ok s (q 0x7FFFFFF8) 1 && ok s (pktTo 2 4 0 []) 2 &&
      ok s (a 0 0) 3 && ok s (pktTo 4 4 0 []) 4 && ok s (meldPkt 0 0 true) 5 && ok s (pktTo 5 3 256 []) 5 && ok s (pktTo 6 3 63 []) 6 && ok s (pktTo 7 3 0 [0]) 7) = true ∧
    (r.tcConn 6 = true ∧ r.conn 0x10 0 = some conn ∧ conn.here = true ∧ p6.seq = conn.expect ∧ 16 ≤ conn.owed + 1 ∧ isAck p6 = false ∧ (r.fn 1).reset = false) ∧
    (∃ t, s.nput 0 apLocal (remoteVa (w 3 0x7FFFFFF8)) ((pktContent (w 3 0x7FFFFFF8)).drop 16) = (t, none)) ∧
    ((s.nput 0 apLocal (remoteVa (w 3 0x80000000)) ((pktContent (w 3 0x80000000)).drop 16)).2.isSome = true ∧
      (match s.translate 0 0x80000000 needRWA 7 with | .ok _ => false | .error _ => true) = true) ∧
    (∃ (t : State) (b : List Byte), s.uget 0 needR apLocal (remoteVa (q 0x7FFFFFF8)) (remoteLen (q 0x7FFFFFF8)) = (t, .ok b) ∧ (b.length == 8) = true) ∧
    (match (s.uget 0 needR apLocal (remoteVa (q 0x80000000)) (remoteLen (q 0x80000000))).2 with | .ok _ => false | .error _ => true) = true ∧
    (∃ l, s.translate 0 (remoteVa (a 0 0)) needRWA 7 = .ok l ∧ (s.locStatus l (remoteLen (a 0 0)) == 0) = true) ∧
    (let x (p : Packet) := (atomOf (leNum (((pktContent p).drop 32).take 1)) (BitVec.ofNat 64 (leNum (((pktContent p).drop 24).take 8)))).eval 8 0 (leNum (((pktContent p).drop 16).take 8))
     (x (a 0 0)).1 ≠ none ∧ ∃ c ∈ List.range 16, (x (a c 1)).1 = none) :=
  ⟨by decide +kernel, by decide +kernel, put_of _ (by decide +kernel), by decide +kernel, got_of _ (fun _ (b : List Byte) => b.length == 8) (by decide +kernel), by decide +kernel,
    ok_of _ _ (by decide +kernel), by decide +kernel⟩

/-- Meld packets that are held, that end the input, and that are refused, out of order or malformed; chunks that are taken, refused, and left for a frame; acks, notices
and control messages of a rank of the running instance and of no rank. -/
theorem witness_FabricArrivalResult_messages :
    let s := collected { coll0 with running := some inst0 }
    let m := s.withFb (fun f => { f with melds := [(3, [meld9])] })
    let took (s : State) (p : Packet) : MeldRes := (s.meldTake 3 0 (some p) (pktContent p)).2
    let ends (s : State) (tc : BitVec 3) (n : Nat) : Nat :=
      match s.collTake (pktTo 6 tc (BitVec.ofNat 40 n) (leOf 8 0 ++ leOf 8 8 ++ leOf 8 5)) (n % 64) with | .ok _ => 0 | .refused _ _ => 1 | .later _ => 2 | _ => 3
    let w (k : BitVec 4) := pktTo k 2 0 (leOf 8 0x1000 ++ leOf 8 8 ++ leOf 8 5)
    let c : Conn := { Conn.fresh 0x10 0 0 with unack := [{ pktTo 6 6 0 [] with seq := 7 }] }
    let u := s.withFb (fun f => { f with conns := [c], undeliv := [w 0, { w 5 with dst := 1 }, { w 6 with dst := 2 }] })
    let held := { coll0 with running := some inst0, holds := [⟨0x10, 0, 0⟩] }
    (took m (meldPkt 0 0 true) = .held ∧ took m (meldPkt 2 0 false) = .gone ∧ took s (meldPkt 0 0 true) = .bad 1 ∧ took m (meldPkt 0 1 true) ≠ .bad 1 ∧
      (match took m (meldPkt 0 1 true) with | .bad _ => true | _ => false) = true) ∧
    (ends { s with mg := { s.mg with kq := [(0, 1)] } } 3 63 = 0 ∧ ends s 3 62 = 1 ∧ ends { s with mg := { s.mg with kq := [(0, 0)] } } 3 63 = 2) ∧
    (u.fb.undeliv.find? (fun x => pktId x == pktId (w 0)) = some (w 0) ∧ (w 0).kind = 0 ∧ (w 5).kind = 5 ∧ (w 6).kind ≠ 0 ∧ (w 6).kind ≠ 5 ∧
      s.fb.undeliv.find? (fun x => pktId x == pktId (w 0)) = none) ∧
    (s.conn 0x10 0 = none ∧ u.conn 0x10 0 = some c ∧ c.here = true ∧ c.unack ≠ []) ∧
    (s.coll 0 63 = some { coll0 with running := some inst0 } ∧ (0x10 : BitVec 8) ∈ s.ranks coll0 ∧ (0x20 : BitVec 8) ∉ s.ranks coll0 ∧ (0 : BitVec 4) = coll0.inst ∧
      (1 : BitVec 4) = coll0.inst + 1 ∧ coll0.holds.any (fun h => h.dev == 0x10 && h.inst == 0) = false ∧
      (collected held).coll 0 63 = some held ∧ held.holds.any (fun h => h.dev == 0x10 && h.inst == 0) = true ∧ ∀ h ∈ held.holds, h.inst = 0 → h.dev = 0x10) := by
  decide +kernel

/-- Everything at the time at which it acts; a packet that goes on and that has nowhere to go; a meld whose lowest segment has passed, with room and without, and one whose inputs
have ended. -/
theorem witness_FabricTimerResult :
    let p := pktTo 0 3 0 []
    let c : Conn := Conn.fresh 0x10 0 0
    let m : Meld := { meld9 with ins := [(0, { meld9.input 0 with ents := [(0x1000, 1)], ended := some mdOK })] }
    let e (st : Nat) : Meld := { meld9 with ins := [(0, { meld9.input 0 with ended := some st })] }
    let down (s : State) : State := s.withFb (fun f => { f with ports := tset f.ports 14 { s.port 14 with up := false } })
    let s := { State.reset with
      time := 500000000
      mg := { Mgmt.reset with dx := 15 }
      fb := { Fabric.reset with
        custody := [⟨p, 3, 2, 0⟩, ⟨p, 3, 3, 0⟩],
        held := [⟨{ p with dst := 0x10 }, 32, 0, 0⟩, ⟨{ p with tc := 6 }, 3, 0, 0⟩, ⟨p, 3, 0, 2⟩, ⟨p, 3, 0, 3⟩, ⟨{ p with kind := 7 }, 3, 0, 0⟩],
        conns := [{ c with unack := [p], fails := 6, owed := 1 }, { c with ten := 1, unack := [p], fails := 7 }, { c with ten := 2, here := false }] } }
    let q := { p with dst := 0xF0 }
    (q.kind = 0 ∧ q.tc ≠ 7 ∧ q.rsv = 0 ∧ q.np = 0 ∧ q.dst ≠ s.self ∧ s.strayPort q = false ∧ (s.livePort (s.nextHop q).2).isSome = true ∧ s.portTo 0xF0 = some 14 ∧
      (down s).livePort ((down s).nextHop { q with vv := 1, via := 0xF0 }).2 = none ∧ tcOrdered q.tc ≠ tcOrdered 2) ∧
    (s.fb.custody[0]? = some ⟨p, 3, 2, 0⟩ ∧ s.fb.custody[1]? = some ⟨p, 3, 3, 0⟩ ∧ 0 + 20000 ≤ s.time ∧ s.fb.out = []) ∧
    (s.fb.conns[0]? = some { c with unack := [p], fails := 6, owed := 1 } ∧ s.conn 0x10 0 = some { c with unack := [p], fails := 6, owed := 1 } ∧ c.here = true ∧
      s.fb.conns[1]? = some { c with ten := 1, unack := [p], fails := 7 } ∧ c.sentAt + 10000 ≤ s.time ∧ c.owedAt + 2000 ≤ s.time ∧ s.fb.conns[2]? = some { c with ten := 2, here := false } ∧
      s.conn 0x10 2 = some { c with ten := 2, here := false } ∧
      (((s.withFb (fun f => { f with conns := makeRoom f.conns })).putConn { c with ten := 2, here := true, used := s.time }).flushAwaits.conn 0x10 2).isSome = true) ∧
    (s.fb.held.length = 5 ∧ 0 + 20000 ≤ s.time ∧ (s.path 0x10 3 false).isSome = true ∧ s.tcConn p.tc = false ∧ s.tcConn 6 = true ∧ isAck p = false ∧ isAck { p with kind := 7 } = true) ∧
    (State.reset.fb.custody.all (fun c => c.port != 31) = true ∧ State.reset.fb.out = [] ∧ State.reset.fb.held.all (fun h => h.port != 31 && h.port != 32) = true ∧
      s.fb.syncAt + 500000000 ≤ s.time) ∧
    (m.lowest = some 1 ∧ m.passed 1 = true ∧ meldRoom [m] = true) ∧ ((e mdOK).lowest = none ∧ ((e mdOK).input 0).ended = some 0 ∧ ((e 2).input 0).ended = some 2 ∧ (2 : Nat) ≠ 0) := by
  decide +kernel

/-- The machine with one trick, its chunk of 8 bytes come, in the collective 63. -/
def tricked (op fmt : BitVec 4) (len : W32) (st : TrickSt) : State :=
  let t : Trick := { op := op, buf := 15, peer := 0x10, rop := 0, fmt := fmt, depn := 0, off := 8, len := len, succ := List.replicate 8 0xFFFF }
  let chunk := { pktTo 6 4 63 (leOf 8 0 ++ leOf 8 8 ++ leOf 8 5) with src := 0x10 }
  collected { coll0 with tricks := [t], running := some { inst0 with st := [(0, st)] }, here := [chunk, pktTo 7 4 7 [63, 0, 9, 0]] }

/-- SEND, RECV and RREDUCE of 8 bytes; a MELD whose descriptor is well formed; SIGNAL; a trick that has started; instances at their limits. -/
theorem witness_CollectiveTrickResult :
    let at_ (op : BitVec 4) (st : TrickSt) (a : TrickAt) : Bool := a.st == st && a.t.op == op
    let chunk := { pktTo 6 4 63 (leOf 8 0 ++ leOf 8 8 ++ leOf 8 5) with src := 0x10 }
    let got (a : TrickAt) : Bool := a.chunks 0 == [chunk] && !a.unequal chunk && (tget a.i.got [] 0).length + 1 == (a.t.len.toNat + 1023) / 1024
    let held (k : Coll) : Coll := { k with pausedAt := some 7 }
    (∃ a, (tricked 0 0 8 (.waiting 0)).trickAt 0 63 0 = some a ∧ (at_ 0 (.waiting 0) a && a.addr == 0x3008 && a.t.len == 8) = true) ∧
    (match (tricked 0 0 8 (.waiting 0)).vget 0 needR apLocal 0x3008 8 with | .ok _ => true | .error _ => false) = true ∧
    (∃ a, (tricked 1 0 8 (.waiting 0)).trickAt 0 63 0 = some a ∧ (at_ 1 (.waiting 0) a && got a) = true) ∧
    (∃ a, (tricked 2 0 8 (.waiting 0)).trickAt 0 63 0 = some a ∧ (at_ 2 (.waiting 0) a && got a) = true) ∧
    (((tricked 1 0 8 (.waiting 0)).cput 0 0x3008 (leOf 8 5)).2 = none ∧ ((tricked 2 0 8 (.waiting 0)).uget 0 needR apLocal 0x3008 8).2.toOption.isSome = true) ∧
    (∃ a, (tricked 1 0 2048 (.waiting 0)).trickAt 0 63 0 = some a ∧ (a.chunks 0 == [chunk] && a.unequal chunk) = true) ∧
    (∃ a, (tricked 4 15 16 (.waiting 0)).trickAt 0 63 0 = some a ∧ (at_ 4 (.waiting 0) a && a.t.peer != (tricked 4 15 16 (.waiting 0)).self) = true) ∧
    (meldDesc (9 * 2 ^ 112) 0 63 0x10 15 0).isSome = true ∧ (0x3000 : Word).toNat % 16 = 0 ∧
    (∃ a, (tricked 5 0 0 (.waiting 0)).trickAt 0 63 0 = some a ∧ at_ 5 (.waiting 0) a = true) ∧
    (∃ a, (tricked 4 15 16 (.started 9)).trickAt 0 63 0 = some a ∧ (at_ 4 (.started 9) a && a.k.armed 9) = true) ∧
    (let s := tricked 1 0 16 (.waiting 0); (s.coll 0 62 = none ∧ ∃ k, s.coll 0 63 = some k ∧ k.isPaused = false ∧ k.heldAt = none ∧ k.running.isSome = true)) ∧
    ({ coll0 with running := some inst0, holds := [⟨0x10, 0, 0⟩] } : Coll).isPaused = true ∧ ({ coll0 with heldAt := some 0 } : Coll).heldAt = some 0 ∧
    (∃ a : TrickAt, ((tricked 1 0 8 (.waiting 0)).onColl 0 63 (fun k => { k with here := [] })).trickAt 0 63 0 = some a ∧ ((a.chunks 0).isEmpty && (tget a.i.got [] 0).length + 0 != (8 + 1023) / 1024) = true) ∧
    ((held coll0).pausedAt = some 7 ∧ (held coll0).isPaused = false ∧ (held coll0).heldAt = none ∧ coll0.pausedAt = none) ∧
    (∃ a, (tricked 0 0 2048 (.waiting 0)).trickAt 0 63 0 = some a ∧ (((tricked 0 0 2048 (.waiting 0)).sendChunks a 0 2048 (List.replicate 2048 0) [(0, 1024), (1024, 1024)]).2 == 2) = true) ∧
    (let s := { tricked 0 0 8 (.waiting 0) with time := 200000000 };
      inst0.last + 1000 * s.mg.ctmo.toNat ≤ s.time ∧ 0 + 1000 * s.mg.chold.toNat ≤ s.time ∧ 0 + 1000 * s.mg.chold.toNat + 1000000 ≤ s.time) :=
  ⟨some_of _ _ (by decide +kernel), by decide +kernel, some_of _ _ (by decide +kernel), some_of _ _ (by decide +kernel), by decide +kernel, some_of _ _ (by decide +kernel), some_of _ _ (by decide +kernel),
    by decide +kernel, by decide, some_of _ _ (by decide +kernel), some_of _ _ (by decide +kernel), ⟨by decide +kernel, _, rfl, by decide +kernel⟩, by decide +kernel, rfl,
    some_of _ (fun (a : TrickAt) => (a.chunks 0).isEmpty && (tget a.i.got [] 0).length + 0 != (8 + 1023) / 1024) (by decide +kernel), by decide +kernel, some_of _ _ (by decide +kernel), by decide +kernel⟩

/-- The last 16 bytes of buffer C for a queue with room, a full one, and a closed one. -/
theorem witness_QueueOperationResult_pushes :
    let r := rgn (thr [(1, 0x3000), (2, 0xC00000000217FFF0)])
    let k := ccAt r
    let s (tail : Nat) (cl : Byte) := (tenMem (inSlot r) [(0x3000, (desc4 tail).set 17 cl)]).counted 0 needR 0x3000 64
    let has (tail : Nat) (cl : Byte) (p : QDesc → Bool) : Prop := ∃ q, (s tail cl).qdesc 0 0x3000 = .ok q ∧ p q = true
    (tenMem (inSlot r) []).ccOf = some k ∧ ((k.t.rd 1).toNat = 0x3000 ∧ k.r.ten = 0 ∧ (k.t.rd 1).toNat % 64 = 0 ∧ (k.t.rd 2).toNat % 16 = 0 ∧
      k.r.window (k.t.rd 2) 16 = some (2, 0x17FFF0)) ∧
    has 0 0 (fun q => q.closed == 0 && (q.tail - q.head).toNat != 2 ^ q.log2n && ((s 0 0).vput 0 apLocal (q.item q.tail) (List.replicate 16 0)).2.isNone) ∧
    has 3 0 (fun q => q.closed == 0 && (q.tail - q.head).toNat == 2 ^ q.log2n) ∧ has 0 1 (fun q => q.closed != 0) :=
  ⟨rfl, by decide +kernel, ok_of _ _ (by decide +kernel), ok_of _ _ (by decide +kernel), ok_of _ _ (by decide +kernel)⟩

/-- A fetched word that decodes, and one that does not; a pc behind the code, no thread to run, a trap that is taken first; a unit that fires with credit, a marker that
waits; an event. -/
theorem witness_StepRunsDecodedInstruction :
    let s (w : Nat) := State.reset.withFetchWord 32 w
    let k (w : Nat) : Core := ((fetchRegion w).core 0).startClk 0
    let c : Core := { Core.empty with thr := [(0, { thr [] with ie := true, tvec := 4 })], ccfg := 0, evpend := 8 }
    let n := { State.reset.withFetchWord 96 0x200C00000300000000000007 with agenda := [] }
    (∀ w ∈ [0x048C0005, 0x0000000F],
      (s w).mg.powered = true ∧ (s w).mg.held = false ∧ (s w).mg.stage = .none ∧ (s w).agenda = [.core 0 0] ∧ (s w).region 0 = some (fetchRegion w) ∧ (fetchRegion w).running = true ∧
        0 < (fetchRegion w).ncore ∧ max (s w).time ((fetchRegion w).started + (k w).clk) = 0 ∧ (k w).asyncNow = none ∧ (k w).pick = some 0 ∧
        (k w).fetch ((k w).thread 0).pc = some (BitVec.ofNat 32 w) ∧ (({ s w with agenda := [] }.setTime 0).takeTurns.region 0).isSome = true) ∧
    ((k 0).fetch 4 = none ∧ (Core.empty.startClk 0).pick = none ∧ (c.startClk 0).asyncNow.isSome = true ∧
      (match exec (.asynchronousTrap 0 0) (inSlot (region1 (c.startClk 0))) with | .next t => (t.region 0).isSome | _ => false) = true) ∧
    (State.reset.withFetchWord 96 0x200C00000300000000000007).agenda = [.fire 0 0 16] ∧
    (match n.region 0 with
      | some q => q.running && 0 < q.ncore && (q.elem 0 16).used && (q.elem 0 16).markers.isEmpty && n.mayFire q 0 16 &&
          (match (q.elem 0 16).candidates 0 0 16 with
            | u :: _ => u.2 == .sadd ⟨0, 0, ⟨3, 0, 0, 0⟩, ⟨3, 0, 0, 0⟩⟩ 7 &&
                (match exec u.2 (n.focusUnit 0 0 16 u.1) with | .next t => t.arbOf 0 0 16 != n.arbOf 0 0 16 && n.sentWithin t 0 0 16 u.1.1 (sendsLater u.2) | _ => false)
            | [] => false)
      | none => false) = true ∧
    (match step (State.reset.withFetchWord 96 0x200C00000300000000000007) with
      | .next t => match (t.setTime 1).region 0 with | some q => q.acts && (q.elem 0 16).used && (q.elem 0 16).markers.isEmpty && t.mayFire q 0 16 && ((q.elem 0 16).candidates 0 0 16).isEmpty | none => false
      | _ => false) = true ∧
    (let o := { n with mg := { n.mg with throttle := [0, 1, 2, 3, 4] } }.setTime (n.time + 1)
     match o.region 0 with | some q => q.acts && (q.elem 0 16).used && (q.elem 0 16).markers.isEmpty && !o.mayFire q 0 16 | none => false) = true ∧
    (Instr.version).bits = 0 := by decide +kernel

/-- A control-core word with every field at its largest value. -/
theorem witness_DecodeEncodeControlCore : (Instr.addi ⟨1, 3⟩ 31 31 0x1FFF).wf = true ∧ (Instr.addi ⟨1, 3⟩ 31 31 0x1FFF).bits = 32 ∧
    encode (.addi ⟨1, 3⟩ 31 31 0x1FFF) = 0x07FFFFFF ∧ decodeWord 0x07FFFFFF = .ok (.addi ⟨1, 3⟩ 31 31 0x1FFF) :=
  ⟨by decide +kernel, by decide +kernel, by decide +kernel, rfl⟩

/-- A node record with every field at its largest value. -/
theorem witness_DecodeEncodeNode : (Instr.sadd ⟨0, 1, ⟨2, 4095, 63, 63⟩, ⟨2, 4095, 63, 63⟩⟩ 0xFFFFFFFF).wf = true ∧
    (Instr.sadd ⟨0, 1, ⟨2, 4095, 63, 63⟩, ⟨2, 4095, 63, 63⟩⟩ 0xFFFFFFFF).bits = 96 := by decide +kernel

/-- A state whose registers are legal, at the limits, and a step that it takes. -/
theorem witness_RegistersStayLegal :
    let s := { State.reset with mg := { Mgmt.reset with vwK := 16, vwNext := some (8, 0), dlkK := 10, dx := 15, x := 15, plimit := 500, lcs := 4, trimap := 0x3F3F } }
    (8 ≤ s.mg.vwK.toNat ∧ s.mg.vwK.toNat ≤ 16 ∧ 10 ≤ s.mg.dlkK.toNat ∧ s.mg.x ≤ s.mg.dx ∧ 500 ≤ s.mg.plimit.toNat ∧ s.mg.lcs.toNat ≤ 4 ∧
      s.mg.trimap &&& ~~~0x3F3F#32 = 0 ∧ s.mg.tccfg &&& 0xF = 7) ∧ (match step s with | .next _ => true | _ => false) = true := by decide +kernel

set_option maxRecDepth 20000 in
/-- FIPS 202: SHA3-512 of "abc". -/
theorem test_sha3 : digestOf [97, 98, 99] = leOf 64 0xF053EC4E27F89265A5D508F44C0B34574093E34776C57E1AC9F32A19E916E1102E71D240025D4F880DF744748221F6086E096B4B92CD93568A16571A0B8551B7 := by decide +kernel

end Sys2Proof.Tests
end

section
/-! PROOF. Reading a queue and a function after a queue, a ring entry or a fault record is written [04 R83, R86, R87, R100, R101]. -/

namespace Sys2Proof.Machine.HostQueues

open Sys2Proof Sys2Proof.Machine

/-! A queue written -/

section
variable (s : State) (fn q : Nat) (x : Queue)

@[simp] theorem putQueue_msis : (s.putQueue fn q x).msis = s.msis := rfl

@[simp] theorem queue_putQueue_same : ((s.putQueue fn q x).fn fn).queue q = x := by
  simp [State.putQueue, State.fn_putFn, Fn.queue]

theorem queue_putQueue_ne (p : Nat) (h : p ≠ q) : ((s.putQueue fn q x).fn fn).queue p = (s.fn fn).queue p := by
  simp [State.putQueue, State.fn_putFn, Fn.queue, tget_tset_ne _ _ _ _ _ h]

theorem fn_putQueue_ne (m : Nat) (h : m ≠ fn) : (s.putQueue fn q x).fn m = s.fn m := by
  simp [State.putQueue, State.fn_putFn, h]

@[simp] theorem fn_hostWrite (a : Nat) (b : List Byte) : (s.hostWrite a b).fn fn = s.fn fn := rfl

@[simp] theorem fn_msi (vf vec : Nat) : (s.msi vf vec).fn fn = s.fn fn := rfl

/-- The vector of a completion changes the list of vectors raised and nothing else [04 R87]. -/
theorem cplVector_eq : s.cplVector fn q =
    { s with msis := s.msis ++ if ((s.fn fn).queue q).ien then [(fn, if fn = 0 then 3 else q)] else [] } := by
  unfold State.cplVector
  cases ((s.fn fn).queue q).ien <;> simp [State.msi]

end

/-! A completion entry -/

theorem cplBytes_length (ent : List Byte) (status : Nat) (phase : Bool) (sqhead : Nat) (result : Word) (h : 2 ≤ ent.length) :
    (cplBytes ent status phase sqhead result).length = 16 := by
  simp [cplBytes, h]

/-- The bytes of a completion, the phase as a number [04 R86]. -/
theorem cplBytes_eq (ent : List Byte) (status : Nat) (phase : Bool) (sqhead : Nat) (result : Word) :
    cplBytes ent status phase sqhead result =
      ent.take 2 ++ leOf 1 status ++ leOf 1 (if phase then 1 else 0) ++ leOf 2 sqhead ++ leOf 2 0 ++ leOf 8 result.toNat := by
  cases phase <;> rfl

/-- Whether a completion can be written at once: none waits before it and the ring has a free entry [04 R83] (log 18). -/
def mayPost (x : Queue) : Prop := x.posts = [] ∧ x.unread + 1 < x.csize

theorem addCpl_of_mayPost (s : State) (fn q : Nat) (c : Cpl) (h : mayPost ((s.fn fn).queue q)) : s.addCpl fn q c = s.postCpl fn q c := by
  obtain ⟨hposts, hfree⟩ := h
  simp [State.addCpl, hposts, hfree]

theorem addCpl_of_not_mayPost (s : State) (fn q : Nat) (c : Cpl) (h : ¬ mayPost ((s.fn fn).queue q)) :
    s.addCpl fn q c = s.putQueue fn q { (s.fn fn).queue q with posts := ((s.fn fn).queue q).posts ++ [c] } := by
  unfold State.addCpl
  exact if_neg (fun g => h (by simpa [mayPost] using g))

/-- The address of the entry at the tail of a completion ring [04 R83]. -/
def cplAddr (x : Queue) : Nat := x.cqbase.toNat / 16 * 16 + 16 * x.cqtail

/-- A queue whose completion ring has taken one entry more [04 R86]. -/
def posted (x : Queue) : Queue :=
  let n := (x.cqtail + 1) % x.csize
  { x with cqtail := n, phase := if n = 0 then !x.phase else x.phase }

/-- The state after a completion entry is written: the entry in host memory, the queue's tail and phase, and the vector. -/
theorem postCpl_eq (s : State) (fn q : Nat) (c : Cpl) :
    let x := (s.fn fn).queue q
    s.postCpl fn q c =
      { (s.hostWrite (cplAddr x) (cplBytes c.ent c.status x.phase c.sqhead c.result)).putQueue fn q (posted x) with
        msis := s.msis ++ if x.ien then [(fn, if fn = 0 then 3 else q)] else [] } := by
  simp only [State.postCpl, cplVector_eq, queue_putQueue_same, putQueue_msis, State.hostWrite_msis, posted, cplAddr, beq_iff_eq]

/-- The state without a running command [04 R83]. -/
def withoutRun (s : State) (id : Nat) : State := { s with hs := { s.hs with runs := s.hs.runs.filter (fun y => y.id != id) } }

/-- A command of a queue in host memory leaves the running commands, then its completion is posted [04 R83]. -/
theorem complete_of_hostQueue (s : State) (r : Run) (status : Nat) (result : Word) (h : r.rack = none) :
    s.complete r status result = (withoutRun s r.id).addCpl r.fn r.q ⟨r.ent, status, r.sqhead, result⟩ := by
  simp [State.complete, withoutRun, h]

section
variable (s : State) (fn q : Nat) (c : Cpl)

/-- What a posted completion leaves unchanged, whether it is written at once or waits. -/
theorem addCpl_frame : (s.addCpl fn q c).hs.runs = s.hs.runs ∧ (s.addCpl fn q c).mg = s.mg ∧ (s.addCpl fn q c).slots = s.slots ∧
    (s.addCpl fn q c).fb = s.fb ∧ (s.addCpl fn q c).wk = s.wk ∧
    (∀ p, p ≠ q → ((s.addCpl fn q c).fn fn).queue p = (s.fn fn).queue p) ∧ ∀ m, m ≠ fn → (s.addCpl fn q c).fn m = s.fn m := by
  by_cases h : mayPost ((s.fn fn).queue q)
  · rw [addCpl_of_mayPost s fn q c h, postCpl_eq]
    exact ⟨rfl, rfl, rfl, rfl, rfl, fun p hp => queue_putQueue_ne _ fn q _ p hp, fun m hm => fn_putQueue_ne _ fn q _ m hm⟩
  · rw [addCpl_of_not_mayPost s fn q c h]
    exact ⟨rfl, rfl, rfl, rfl, rfl, fun p hp => queue_putQueue_ne s fn q _ p hp, fun m hm => fn_putQueue_ne s fn q _ m hm⟩

/-- A completion that waits is at the end of the queue's, and neither memory nor the vectors change. -/
theorem addCpl_waits (h : ¬ mayPost ((s.fn fn).queue q)) :
    (s.addCpl fn q c).ms = s.ms ∧ (s.addCpl fn q c).msis = s.msis ∧
      ((s.addCpl fn q c).fn fn).queue q = { (s.fn fn).queue q with posts := ((s.fn fn).queue q).posts ++ [c] } := by
  rw [addCpl_of_not_mayPost s fn q c h]
  exact ⟨rfl, rfl, queue_putQueue_same s fn q _⟩

/-- A completion that is written at once: its bytes at the ring's tail, no other byte, the tail and phase, and the vector. -/
theorem addCpl_written (h : mayPost ((s.fn fn).queue q)) (hent : 2 ≤ c.ent.length) :
    let x := (s.fn fn).queue q
    let t := s.addCpl fn q c
    mread t.ms.host (cplAddr x) 16 = cplBytes c.ent c.status x.phase c.sqhead c.result ∧
      (∀ b, b < cplAddr x ∨ cplAddr x + 16 ≤ b → mget t.ms.host b = mget s.ms.host b) ∧
      (t.fn fn).queue q = posted x ∧ t.msis = s.msis ++ if x.ien then [(fn, if fn = 0 then 3 else q)] else [] := by
  intro x t
  have ht : t = _ := (addCpl_of_mayPost s fn q c h).trans (postCpl_eq s fn q c)
  have hlen := cplBytes_length c.ent c.status x.phase c.sqhead c.result hent
  rw [ht]
  refine ⟨?_, fun b hb => ?_, queue_putQueue_same _ fn q _, rfl⟩
  · have hread := mread_mwrite (cplBytes c.ent c.status x.phase c.sqhead c.result) s.ms.host (cplAddr x)
    rwa [hlen] at hread
  · exact mget_mwrite_outside _ _ _ _ (by rwa [hlen])

end

/-! A fault record -/

/-- The address of the entry at the tail of a fault ring [04 R101]. -/
def recordAddr (x : Fn) : Nat := x.frbase.toNat / 64 * 64 + 64 * x.frtail.toNat

/-- Whether a fault ring has no room [04 R101]. -/
def recordsFull (x : Fn) : Prop := (x.frtail.toNat + 1) % 2 ^ x.frsize.toNat = x.frhead.toNat % 2 ^ x.frsize.toNat

theorem faultBytes_length (fl ten : Nat) (seq : W32) (time slot elem ctx colour : Nat) (f : FaultInfo) :
    (faultBytes fl ten seq time slot elem ctx colour f).length = 64 := by
  simp [faultBytes]

/-- The bytes of a record, the flag of the lost records before it as a number [04 R100]. -/
theorem faultBytes_eq (lost : Bool) (ten : Nat) (seq : W32) (time slot elem ctx colour : Nat) (f : FaultInfo) :
    faultBytes (2 + (if lost then 1 else 0)) ten seq time slot elem ctx colour f =
      leOf 2 f.cls ++ leOf 1 ten ++ leOf 1 (if lost then 3 else 2) ++ leOf 4 seq.toNat ++ leOf 8 time ++ leOf 8 f.va.toNat ++ leOf 2 slot ++
        leOf 2 elem ++ leOf 2 ctx ++ leOf 1 colour ++ leOf 1 f.acc ++ leOf 8 f.info1.toNat ++ leOf 8 f.info2.toNat ++ List.replicate 16 0#8 := by
  cases lost <;> rfl

/-- A saturating count stays at its largest value [04 R101]. -/
theorem satInc32_toNat (v : W32) : (satInc32 v).toNat = if v.toNat = 2 ^ 32 - 1 then 2 ^ 32 - 1 else v.toNat + 1 := by
  have hmax : v = 0xFFFFFFFF#32 ↔ v.toNat = 2 ^ 32 - 1 := by simp [← BitVec.toNat_inj]
  unfold satInc32
  by_cases h : v.toNat = 2 ^ 32 - 1
  · simp [hmax.mpr h]
  · rw [if_neg (by simpa [hmax] using h), if_neg h]
    bv_omega

/-- The tail of a fault ring after it moves on fits its register. -/
theorem frtail_toNat (n : Nat) (b : BitVec 4) : (BitVec.ofNat 32 (n % 2 ^ b.toNat)).toNat = n % 2 ^ b.toNat := by
  have hpos : 0 < 2 ^ b.toNat := Nat.two_pow_pos _
  have hsize : 2 ^ b.toNat ≤ 2 ^ 15 := Nat.pow_le_pow_right (by decide) (by bv_omega)
  have hmod := Nat.mod_lt n hpos
  rw [BitVec.toNat_ofNat, Nat.mod_eq_of_lt (by omega)]

/-- A function whose fault ring has taken one record more [04 R101]. -/
def recorded (x : Fn) : Fn :=
  { x with seq := x.seq + 1, frtail := BitVec.ofNat 32 ((x.frtail.toNat + 1) % 2 ^ x.frsize.toNat), lost := false }

section
variable (s : State) (ten slot elem ctx colour : Nat) (f : FaultInfo)

theorem record_of_disabled (h : (s.fn (ten + 1)).fren = false) :
    s.record ten slot elem ctx colour f = s.putFn (ten + 1) { s.fn (ten + 1) with seq := (s.fn (ten + 1)).seq + 1 } := by
  simp [State.record, h]

theorem record_of_full (h : (s.fn (ten + 1)).fren = true) (hfull : recordsFull (s.fn (ten + 1))) :
    s.record ten slot elem ctx colour f = s.putFn (ten + 1) { s.fn (ten + 1) with
      seq := (s.fn (ten + 1)).seq + 1, frlost := satInc32 (s.fn (ten + 1)).frlost, frfull := true, lost := true } := by
  unfold recordsFull at hfull
  simp [State.record, h, hfull]

theorem record_of_room (h : (s.fn (ten + 1)).fren = true) (hroom : ¬ recordsFull (s.fn (ten + 1))) :
    let x := s.fn (ten + 1)
    s.record ten slot elem ctx colour f =
      ((s.putFn (ten + 1) (recorded x)).hostWrite (recordAddr x)
        (faultBytes (2 + (if x.lost then 1 else 0)) ten x.seq s.time slot elem ctx colour f)).msi (ten + 1) 64 := by
  unfold recordsFull at hroom
  simp [State.record, h, hroom, recordAddr, recorded]

/-- Every record takes a sequence number of its tenant and leaves the other functions as they are [04 R101]. -/
theorem record_seq : ((s.record ten slot elem ctx colour f).fn (ten + 1)).seq = (s.fn (ten + 1)).seq + 1 ∧
    ∀ n, n ≠ ten + 1 → (s.record ten slot elem ctx colour f).fn n = s.fn n := by
  cases hen : (s.fn (ten + 1)).fren with
  | false =>
    rw [record_of_disabled s ten slot elem ctx colour f hen]
    exact ⟨by simp [State.fn_putFn], fun n hn => by simp [State.fn_putFn, hn]⟩
  | true =>
    by_cases hfull : recordsFull (s.fn (ten + 1))
    · rw [record_of_full s ten slot elem ctx colour f hen hfull]
      exact ⟨by simp [State.fn_putFn], fun n hn => by simp [State.fn_putFn, hn]⟩
    · rw [record_of_room s ten slot elem ctx colour f hen hfull]
      exact ⟨by simp [State.fn_putFn, recorded], fun n hn => by simp [State.fn_putFn, hn]⟩

/-- A record on a ring with room: its bytes at the tail, no other byte, the tail, the flags and vector 64. -/
theorem record_written (h : (s.fn (ten + 1)).fren = true) (hroom : ¬ recordsFull (s.fn (ten + 1))) :
    let x := s.fn (ten + 1)
    let t := s.record ten slot elem ctx colour f
    let y := t.fn (ten + 1)
    mread t.ms.host (recordAddr x) 64 = faultBytes (2 + (if x.lost then 1 else 0)) ten x.seq s.time slot elem ctx colour f ∧
      (∀ b, b < recordAddr x ∨ recordAddr x + 64 ≤ b → mget t.ms.host b = mget s.ms.host b) ∧
      y.frtail.toNat = (x.frtail.toNat + 1) % 2 ^ x.frsize.toNat ∧ y.lost = false ∧ y.frlost = x.frlost ∧ t.msis = s.msis ++ [(ten + 1, 64)] := by
  intro x t y
  have ht : t = _ := record_of_room s ten slot elem ctx colour f h hroom
  have hy : y = recorded x := by simp [y, ht, State.fn_putFn, x]
  have hhost : t.ms.host = mwrite s.ms.host (recordAddr x) (faultBytes (2 + (if x.lost then 1 else 0)) ten x.seq s.time slot elem ctx colour f) := by
    simp [ht, x]
  have hlen := faultBytes_length (2 + (if x.lost then 1 else 0)) ten x.seq s.time slot elem ctx colour f
  rw [hhost, hy]
  refine ⟨?_, fun b hb => ?_, ?_, rfl, rfl, by simp [ht]⟩
  · have hread := mread_mwrite (faultBytes (2 + (if x.lost then 1 else 0)) ten x.seq s.time slot elem ctx colour f) s.ms.host (recordAddr x)
    rwa [hlen] at hread
  · exact mget_mwrite_outside _ _ _ _ (by rwa [hlen])
  · simp only [recorded, frtail_toNat]

end

end Sys2Proof.Machine.HostQueues
end

section
/-! PROOF. Completion entries and fault records stand in their rings. -/

namespace Sys2Proof.Machine.HostQueues

open Sys2Proof Sys2Proof.Machine

/-- Settles O43: a completion is written at once or waits (`mayPost`), a record finds its ring disabled, full or with room. -/
theorem ringEntryWritten : Obligations.RingEntryWritten := by
  unfold Obligations.RingEntryWritten
  refine ⟨fun s r st v hrack hent => ?_, fun s ten slot elem ctx colour f => ?_⟩
  · intro x t a n room
    have ht : t = _ := complete_of_hostQueue s r st v hrack
    rw [ht]
    obtain ⟨hruns, hmg, hslots, hfb, hwk, hqueues, hfns⟩ := addCpl_frame (withoutRun s r.id) r.fn r.q ⟨r.ent, st, r.sqhead, v⟩
    refine ⟨hruns, hmg, hslots, hfb, hwk, hqueues, hfns, fun hno => addCpl_waits _ _ _ _ hno, fun hroom => ?_⟩
    obtain ⟨hbytes, hrest⟩ := addCpl_written (withoutRun s r.id) r.fn r.q ⟨r.ent, st, r.sqhead, v⟩ hroom (by simp [hent])
    exact ⟨hbytes.trans (cplBytes_eq ..), hrest⟩
  · intro x t y size full a
    obtain ⟨hseq, hfns⟩ := record_seq s ten slot elem ctx colour f
    refine ⟨hseq, hfns, s.record_mg .., s.record_slots .., s.record_fb .., fun hen hroom => ?_, fun hen hfull => ?_, fun hen => ?_⟩
    · obtain ⟨hbytes, hrest⟩ := record_written s ten slot elem ctx colour f hen hroom
      exact ⟨hbytes.trans (faultBytes_eq ..), hrest⟩
    · have ht : t = _ := record_of_full s ten slot elem ctx colour f hen hfull
      simp [y, ht, State.fn_putFn, satInc32_toNat, x]
    · have ht : t = _ := record_of_disabled s ten slot elem ctx colour f hen
      simp [y, ht, State.fn_putFn, x]

end Sys2Proof.Machine.HostQueues
end

section
/-! PROOF. What the registers of a queue, its commands, launch packets and the host window do, one equation per instruction
[04 R79, R82 to R85, R88]. -/

namespace Sys2Proof.Machine.HostQueues

open Sys2Proof Sys2Proof.Machine

/-! Doorbells and QCFG -/

section
variable (x : Queue) (v : W32)

/-- The entries that a doorbell can still add to a ring [04 R83]. -/
def doorRoom (x : Queue) : Nat := (x.head + x.size - x.tail - 1) % x.size

theorem door_of_room (n : Nat) (hen : x.en = true) (hsrc : x.src = false) (hn : n < x.size) (hroom : (n + x.size - x.tail) % x.size ≤ doorRoom x) :
    x.door n = { x with tail := n } := by
  unfold doorRoom at hroom
  simp [Queue.door, hen, hsrc, Nat.not_le.mpr hn, Nat.not_lt.mpr hroom]

theorem door_of_beyond (n : Nat) (hen : x.en = true) (hsrc : x.src = false) (h : x.size ≤ n ∨ doorRoom x < (n + x.size - x.tail) % x.size) :
    x.door n = { x with qerr := true } := by
  unfold doorRoom at h
  by_cases hn : x.size ≤ n
  · simp [Queue.door, hen, hsrc, hn]
  · simp [Queue.door, hen, hsrc, hn, h.resolve_left hn]

/-- A queue with the bits of a write of QCFG other than EN: the sizes only while it is disabled [04 R82]. -/
def withBits (x : Queue) (v : W32) : Queue :=
  let bits : Queue := { x with qerr := x.qerr && !v.getLsbD 30, src := v.getLsbD 29, ien := v.getLsbD 28 }
  if x.en then bits else { bits with csz := v.extractLsb' 20 4, ssz := v.extractLsb' 16 4 }

/-- A queue that a write of QCFG with EN = 0 has disabled [04 R83]. -/
def disabled (x : Queue) (v : W32) : Queue := { withBits x v with en := false }

/-- The ring sizes that a queue can be enabled with [04 R82]. -/
def sizesOk (csz ssz : BitVec 4) : Prop := 4 ≤ csz.toNat ∧ csz.toNat ≤ 12 ∧ 4 ≤ ssz.toNat ∧ ssz.toNat ≤ 12

theorem sizesBad_iff (csz ssz : BitVec 4) : (csz < 4 || 12 < csz || ssz < 4 || 12 < ssz) = true ↔ ¬ sizesOk csz ssz := by
  have h4 : (4 : BitVec 4).toNat = 4 := rfl
  have h12 : (12 : BitVec 4).toNat = 12 := rfl
  simp only [sizesOk, Bool.or_eq_true, decide_eq_true_eq, BitVec.lt_def, h4, h12]
  omega

theorem not_sizesOk (csz ssz : BitVec 4) (h : csz.toNat < 4 ∨ 12 < csz.toNat ∨ ssz.toNat < 4 ∨ 12 < ssz.toNat) : ¬ sizesOk csz ssz := by
  unfold sizesOk
  omega

/-- A field of 4 bits of a register, read as a number or as bits. -/
theorem ofNat_bitsAt (lo : Nat) : BitVec.ofNat 4 (bitsAt v.toNat lo 4) = v.extractLsb' lo 4 := by
  apply BitVec.eq_of_toNat_eq
  simp [bitsAt, BitVec.extractLsb'_toNat, Nat.shiftRight_eq_div_pow]

/-- A write of QCFG: its bits, then EN [04 R82, R83]. -/
theorem config_eq : x.config v =
    if v.getLsbD 31 then
      if x.en then withBits x v
      else if (withBits x v).csz < 4 || 12 < (withBits x v).csz || (withBits x v).ssz < 4 || 12 < (withBits x v).ssz then withBits x v
      else (withBits x v).restart
    else { withBits x v with en := false } := by
  simp only [Queue.config, ofNat_bitsAt, withBits]

theorem withBits_of_disabled (hen : x.en = false) :
    (withBits x v).csz = v.extractLsb' 20 4 ∧ (withBits x v).ssz = v.extractLsb' 16 4 := by
  simp [withBits, hen]

theorem config_of_enable (hv : v.getLsbD 31 = true) (hen : x.en = false) (hsize : sizesOk (v.extractLsb' 20 4) (v.extractLsb' 16 4)) :
    x.config v = (withBits x v).restart := by
  obtain ⟨hcsz, hssz⟩ := withBits_of_disabled x v hen
  rw [config_eq, if_pos hv, if_neg (by simp [hen]), hcsz, hssz, if_neg (fun h => (sizesBad_iff _ _).mp h hsize)]

theorem config_of_keep (hv : v.getLsbD 31 = true) (h : x.en = true ∨ ¬ sizesOk (v.extractLsb' 20 4) (v.extractLsb' 16 4)) :
    x.config v = withBits x v := by
  rw [config_eq, if_pos hv]
  cases hen : x.en with
  | true => rfl
  | false =>
    obtain ⟨hcsz, hssz⟩ := withBits_of_disabled x v hen
    have hsize := h.resolve_left (by simp [hen])
    rw [if_neg (by simp), hcsz, hssz, if_pos ((sizesBad_iff _ _).mpr hsize)]

theorem config_of_disable (hv : v.getLsbD 31 = false) : x.config v = disabled x v := by
  rw [config_eq, hv]
  rfl

@[simp] theorem withBits_en : (withBits x v).en = x.en := by unfold withBits; cases x.en <;> rfl
@[simp] theorem withBits_fetched : (withBits x v).fetched = x.fetched := by unfold withBits; cases x.en <;> rfl
@[simp] theorem withBits_posts : (withBits x v).posts = x.posts := by unfold withBits; cases x.en <;> rfl
@[simp] theorem disabled_fetched : (disabled x v).fetched = x.fetched := withBits_fetched x v
@[simp] theorem disabled_posts : (disabled x v).posts = x.posts := withBits_posts x v

end

section
variable (s : State) (fn q : Nat) (v : W32)

/-- A queue without completions that wait, and without an entry to abort, is as it was written. -/
theorem queueWritten_of_quiet (y : Queue) (hposts : y.posts = []) (h : y.en = true ∨ y.fetched = none) :
    (s.putQueue fn q y).queueWritten fn q = s.putQueue fn q y := by
  unfold State.queueWritten
  rw [queue_putQueue_same]
  cases hf : y.fetched with
  | none => simp [hf, hposts, State.flushCpl]
  | some r => simp [hf, h.resolve_right (by simp [hf]), hposts, State.flushCpl]

/-- An entry that was read completes with ABORTED once its queue is disabled [04 R83]. -/
theorem queueWritten_of_abort (y : Queue) (r : Run) (hposts : y.posts = []) (hen : y.en = false) (hf : y.fetched = some r) :
    (s.putQueue fn q y).queueWritten fn q = ((s.putQueue fn q y).putQueue fn q { y with fetched := none }).complete r csABORTED 0 := by
  unfold State.queueWritten
  rw [queue_putQueue_same]
  simp [hf, hen, hposts, State.flushCpl]

variable (hon : s.fnOn fn = true) (hq : q < 64)
include hon hq

theorem exec_qdoor : exec (.qdoor fn q v) s = .next (s.putQueue fn q (((s.fn fn).queue q).door v.toNat)) := by
  show execQdoor fn q v s = _
  simp [execQdoor, hon, hq]

theorem exec_queueEnable (hv : v.getLsbD 31 = true) :
    exec (.queueEnable fn q v) s = .next ((s.putQueue fn q (((s.fn fn).queue q).config v)).queueWritten fn q) := by
  show execQueueEnable fn q v s = _
  simp [execQueueEnable, State.qcfgWrite, hv, hon, hq]

theorem exec_queueDisable (hv : v.getLsbD 31 = false) :
    exec (.queueDisable fn q v) s = .next ((s.putQueue fn q (((s.fn fn).queue q).config v)).queueWritten fn q) := by
  show execQueueDisable fn q v s = _
  rw [execQueueDisable, hv, State.qcfgWrite, hon, decide_eq_true hq]
  rfl

theorem exec_qerrClear : exec (.qerrClear fn q) s = .next (s.putQueue fn q { (s.fn fn).queue q with qerr := false }) := by
  show execQerrClear fn q s = _
  simp [execQerrClear, hon, hq]

end

/-! The start of a command -/

/-- The state after the read of a queue's next entry is counted: only a rack queue, in tenant memory, counts it [04 R88]. -/
def entryCounted (s : State) (fn q : Nat) : State :=
  let x := (s.fn fn).queue q
  if x.src then s.counted (fnTen fn) needR (BitVec.ofNat 64 (x.base.toNat / 64 * 64 + 64 * x.head)) 64 else s

/-- A queue whose next entry has been read [04 R83]. -/
def headTaken (x : Queue) : Queue := { x with head := (x.head + 1) % x.size, rack := x.rack.drop 1 }

/-- The command of the next entry of a queue [04 R83, R88]. -/
def nextRun (s : State) (fn q : Nat) (b : List Byte) : Run :=
  let x := (s.fn fn).queue q
  { id := s.hs.nextRun, fn := fn, q := q, ent := b, sqhead := (x.head + 1) % x.size, stage := 0,
    rack := if x.src then some (x.rack.headD (false, .ether 0)) else none }

/-- The state with a queue's next entry read and its command's number used. -/
def entryTaken (s : State) (fn q : Nat) (y : Queue) : State :=
  { s.putQueue fn q y with hs := { (s.putQueue fn q y).hs with nextRun := s.hs.nextRun + 1 } }

/-- The state with a command among the running ones. -/
def withRun (s : State) (r : Run) : State := { s with hs := { s.hs with runs := s.hs.runs ++ [r] } }

section
variable (s s1 : State) (fn q : Nat) (b : List Byte) (r : Run)

theorem headEntry_of_host (h : ((s.fn fn).queue q).src = false) :
    s.headEntry fn q = .ok (mread s.ms.host (((s.fn fn).queue q).base.toNat / 64 * 64 + 64 * ((s.fn fn).queue q).head) 64) := by
  simp [State.headEntry, h]

theorem headEntry_of_rack (h : ((s.fn fn).queue q).src = true) :
    s.headEntry fn q = s.vget (fnTen fn) needR apLocal (BitVec.ofNat 64 (((s.fn fn).queue q).base.toNat / 64 * 64 + 64 * ((s.fn fn).queue q).head)) 64 := by
  simp [State.headEntry, h]

theorem fn_of_hs (h : s1.hs = s.hs) : s1.fn fn = s.fn fn := by
  rw [State.fn, h, State.fn]

/-- An entry that can be read gives the queue's next command; the counting of the read leaves the host's state alone. -/
theorem readEntry_of_ok (h1 : entryCounted s fn q = s1) (hhs : s1.hs = s.hs) (hb : s1.headEntry fn q = .ok b) :
    s.readEntry fn q = (entryTaken s1 fn q (headTaken ((s.fn fn).queue q)), nextRun s fn q b, none) := by
  unfold entryCounted at h1
  simp only [State.readEntry, h1, hb, hhs, entryTaken, headTaken, nextRun]

@[simp] theorem queue_entryTaken (y : Queue) : ((entryTaken s fn q y).fn fn).queue q = y := queue_putQueue_same s fn q y

/-- A command waits while its entry is fenced and an earlier command of its queue runs [04 R83, R84]. -/
theorem fenced_iff : s.fenced r = true ↔ (r.ent.getD 3 0).getLsbD 0 = true ∧ ∃ x ∈ s.hs.runs, x.fn = r.fn ∧ x.q = r.q := by
  simp [State.fenced]

/-- A command whose entry was read runs, or completes at once with BADCMD or NOPERM [04 R84, R85]. -/
theorem startCommand_eq : s.startCommand r none =
    if entryOk r.ent = false then (withRun s r).complete r 1 0
    else if opcAllowed r.fn (fieldOf r.ent 2 1) then withRun s r else (withRun s r).complete r 2 0 := by
  cases hok : entryOk r.ent <;> cases hperm : opcAllowed r.fn (fieldOf r.ent 2 1) <;>
    simp [State.startCommand, withRun, hok, hperm, csBADCMD, csNOPERM]

theorem exec_commandStart_of_fetched (hm : s.mayStart fn q = true) (hf : ((s.fn fn).queue q).fetched = some r) :
    exec (.commandStart fn q) s =
      .next (if s.fenced r then s else (s.putQueue fn q { (s.fn fn).queue q with fetched := none }).startCommand r none) := by
  show execCommandStart fn q s = _
  simp [execCommandStart, hm, hf]

theorem exec_commandStart_of_read (t : State) (hm : s.mayStart fn q = true) (hf : ((s.fn fn).queue q).fetched = none)
    (hr : s.readEntry fn q = (t, r, none)) :
    exec (.commandStart fn q) s =
      .next (if t.fenced r then t.putQueue fn q { (t.fn fn).queue q with fetched := some r } else t.startCommand r none) := by
  show execCommandStart fn q s = _
  simp [execCommandStart, hm, hf, hr]

end

/-! Launch packets -/

section
variable (s : State) (src : RackSrc) (p : List Byte)

theorem exec_launchPacket_of_noTransport (h : s.carriesLaunch src = false) : exec (.launchPacket ⟨src, p⟩) s = .next s := by
  show execLaunchPacket ⟨src, p⟩ s = _
  simp [execLaunchPacket, h]

theorem exec_launchPacket_of_good (h : s.carriesLaunch src = true) (hbad : s.launchBad p = none) :
    exec (.launchPacket ⟨src, p⟩) s = .next (s.launchTaken src p) := by
  show execLaunchPacket ⟨src, p⟩ s = _
  simp [execLaunchPacket, h, hbad]

theorem exec_launchPacket_of_bad (n : Nat) (h : s.carriesLaunch src = true) (hbad : s.launchBad p = some n) (hten : fieldOf p 1 1 < 16) :
    exec (.launchPacket ⟨src, p⟩) s =
      .next (s.record (fieldOf p 1 1) 0xFFFF 0xFFFF 0 0 { cls := 0x10, va := 0, acc := 5, info1 := BitVec.ofNat 64 n, info2 := 0 }) := by
  show execLaunchPacket ⟨src, p⟩ s = _
  simp [execLaunchPacket, h, hbad, State.launchDropped, hten, FaultInfo.of]

/-- A launch packet on a full queue goes back with QFULL, and the queue's vector is raised [04 R88]. -/
theorem launchTaken_of_full (fn q : Nat) (hfn : fieldOf p 1 1 + 1 = fn) (hq : fieldOf p 2 1 = q)
    (hfull : (((s.fn fn).queue q).tail + 1) % ((s.fn fn).queue q).size = ((s.fn fn).queue q).head) :
    s.launchTaken src p = { s with
      hs := { s.hs with rackOut := s.hs.rackOut ++
        [(src, cplBytes (p.drop 32) csQFULL ((s.fn fn).queue q).phase ((s.fn fn).queue q).head 0)] }
      msis := s.msis ++ if ((s.fn fn).queue q).ien then [(fn, q)] else [] } := by
  subst hfn hq
  simp only [State.launchTaken, hfull, beq_self_eq_true, if_true, cplVector_eq, State.rackSend, Nat.add_one_ne_zero, if_false]
  rfl

/-- A launch packet whose entry is written is the last of its queue [04 R88]. -/
theorem launchTaken_of_room (t : State) (fn q : Nat) (hfn : fieldOf p 1 1 + 1 = fn) (hq : fieldOf p 2 1 = q)
    (hroom : (((s.fn fn).queue q).tail + 1) % ((s.fn fn).queue q).size ≠ ((s.fn fn).queue q).head)
    (hput : s.vput (fn - 1) apLocal (BitVec.ofNat 64 (((s.fn fn).queue q).base.toNat / 64 * 64 + 64 * ((s.fn fn).queue q).tail)) (p.drop 32) = (t, none)) :
    s.launchTaken src p = t.putQueue fn q { (s.fn fn).queue q with
      tail := (((s.fn fn).queue q).tail + 1) % ((s.fn fn).queue q).size
      lseq := some (BitVec.ofNat 32 (fieldOf p 4 4))
      rack := ((s.fn fn).queue q).rack ++ [((p.getD 3 0).getLsbD 0, src)] } := by
  subst hfn hq
  rw [Nat.add_sub_cancel] at hput
  simp [State.launchTaken, hroom, hput]

end

/-! The host window -/

/-- The state after the staging of path CC has taken the bytes of a write through the window [04 R79] (log 8). -/
def windowWrote (s : State) (fn : Nat) (va : Word) (d : List Byte) : State :=
  s.bar2Wrote fn (s.places (fn - 1) needW (d.length / 65536 + 2) 0 va d.length) d

section
variable (s s1 : State) (fn off n : Nat) (b d : List Byte) (e : FaultInfo) (hon : s.fnOn fn = true) (hfn : fn ≠ 0)
include hon hfn

/-- An access of a function that exists, within the window, is made [04 R79]. -/
theorem windowGuard_false (hn : off + n ≤ 2 ^ 32) : (fn == 0 || !s.fnOn fn || 2 ^ 32 < off + n) = false := by
  simpa [hon, hfn] using hn

section
variable (hn : off + n ≤ 2 ^ 32)
include hn

theorem exec_bar2Read_of_peer (hpeer : s.meetsPeer (fn - 1) needR ((s.fn fn).window off) n = true) :
    exec (.bar2Read fn off n) s = .next (s.bar2Peer fn ((s.fn fn).window off) n .read []) := by
  show execBar2Read fn off n s = _
  simp only [execBar2Read, windowGuard_false s fn off n hon hfn hn, fnTen, hpeer, Bool.false_eq_true, if_false, if_true]

theorem exec_bar2Read_of_ok (hpeer : s.meetsPeer (fn - 1) needR ((s.fn fn).window off) n = false)
    (hget : s.uget (fn - 1) needR apAll ((s.fn fn).window off) n = (s1, .ok b)) :
    exec (.bar2Read fn off n) s = .next (
      let r := s1.bar2Staged fn (s1.places (fn - 1) needR (n / 65536 + 2) 0 ((s.fn fn).window off) n) b
      { r.1 with hostData := r.2 }) := by
  show execBar2Read fn off n s = _
  simp only [execBar2Read, windowGuard_false s fn off n hon hfn hn, fnTen, hpeer, hget, Bool.false_eq_true, if_false]

theorem exec_bar2Read_of_error (hpeer : s.meetsPeer (fn - 1) needR ((s.fn fn).window off) n = false)
    (hget : s.uget (fn - 1) needR apAll ((s.fn fn).window off) n = (s1, .error e)) :
    exec (.bar2Read fn off n) s = .next { s1.bar2Fault fn e with hostData := List.replicate n 0xFF#8 } := by
  show execBar2Read fn off n s = _
  simp only [execBar2Read, windowGuard_false s fn off n hon hfn hn, fnTen, hpeer, hget, Bool.false_eq_true, if_false]

end

section
variable (hd : off + d.length ≤ 2 ^ 32)
include hd

theorem exec_bar2Write_of_peer (hpeer : s.meetsPeer (fn - 1) needW ((s.fn fn).window off) d.length = true) :
    exec (.bar2Write fn off d) s = .next (s.bar2Peer fn ((s.fn fn).window off) d.length .write d) := by
  show execBar2Write fn off d s = _
  simp only [execBar2Write, windowGuard_false s fn off d.length hon hfn hd, fnTen, hpeer, Bool.false_eq_true, if_false, if_true]

theorem exec_bar2Write_of_ok (hpeer : s.meetsPeer (fn - 1) needW ((s.fn fn).window off) d.length = false)
    (hput : s.vput (fn - 1) apAll ((s.fn fn).window off) d = (s1, none)) :
    exec (.bar2Write fn off d) s = .next (windowWrote s1 fn ((s.fn fn).window off) d) := by
  show execBar2Write fn off d s = _
  simp only [execBar2Write, windowGuard_false s fn off d.length hon hfn hd, fnTen, hpeer, hput, Bool.false_eq_true, if_false, windowWrote]

theorem exec_bar2Write_of_error (hpeer : s.meetsPeer (fn - 1) needW ((s.fn fn).window off) d.length = false)
    (hput : s.vput (fn - 1) apAll ((s.fn fn).window off) d = (s1, some e)) :
    exec (.bar2Write fn off d) s = .next ((windowWrote s1 fn ((s.fn fn).window off) d).bar2Fault fn e) := by
  show execBar2Write fn off d s = _
  simp only [execBar2Write, windowGuard_false s fn off d.length hon hfn hd, fnTen, hpeer, hput, Bool.false_eq_true, if_false, windowWrote]

end

end

end Sys2Proof.Machine.HostQueues
end

section
/-! PROOF. Host queues, launch packets and the host window do what the statement says of each. -/

namespace Sys2Proof.Machine.HostQueues

open Sys2Proof Sys2Proof.Machine

/-- Settles O44: each clause is the equation of its instruction on the branch that its hypotheses choose. -/
theorem hostQueueResult : Obligations.HostQueueResult := by
  unfold Obligations.HostQueueResult
  intro s s1 fn q hon hq f x put size
  refine ⟨?doorbell, ?qcfg, exec_qerrClear s fn q hon hq, ?start, ?fetched, exec_launchPacket_of_noTransport s, ?launch,
    exec_launchPacket_of_bad s, ?window⟩
  case doorbell =>
    intro v hen hsrc
    rw [exec_qdoor s fn q v hon hq]
    exact ⟨fun hlt hroom => by rw [door_of_room x _ hen hsrc hlt hroom], fun hbeyond => by rw [door_of_beyond x _ hen hsrc hbeyond]⟩
  case qcfg =>
    intro v csz ssz bits set
    refine ⟨fun hv hen hc hc' hs hs' => ?_, fun hv hposts hkeep => ?_, fun hv hposts => ⟨fun hf => ?_, fun r hf => ?_⟩⟩
    · rw [exec_queueEnable s fn q v hon hq hv, config_of_enable x v hv hen ⟨hc, hc', hs, hs'⟩, queueWritten_of_quiet _ _ _ _ rfl (.inl rfl)]
      rfl
    · have hconfig := config_of_keep x v hv (hkeep.imp_right (fun h => not_sizesOk _ _ h.2))
      have hquiet : (withBits x v).en = true ∨ (withBits x v).fetched = none := by simpa using hkeep.imp_right And.left
      rw [exec_queueEnable s fn q v hon hq hv, hconfig, queueWritten_of_quiet _ _ _ _ (by simpa using hposts) hquiet]
      rfl
    · rw [exec_queueDisable s fn q v hon hq hv, config_of_disable x v hv,
        queueWritten_of_quiet _ _ _ _ (by simpa using hposts) (.inr (by simpa using hf))]
      rfl
    · rw [exec_queueDisable s fn q v hon hq hv, config_of_disable x v hv,
        queueWritten_of_abort _ _ _ _ r (by simpa using hposts) rfl (by simpa using hf)]
      rfl
  case start =>
    intro b hm hf a run hhost hrack y t u waits hhs
    have hfn := fn_of_hs s s1 fn hhs
    have hread : s.readEntry fn q = (t, run, none) := by
      cases hsrc : x.src with
      | false =>
        obtain ⟨rfl, rfl⟩ := hhost hsrc
        exact readEntry_of_ok s1 s1 fn q _ (if_neg (by simp [x, f, hsrc])) rfl (headEntry_of_host s1 fn q hsrc)
      | true =>
        obtain ⟨hcounted, hget⟩ := hrack hsrc
        have hentry := headEntry_of_rack s1 fn q (by rw [hfn]; exact hsrc)
        rw [hfn] at hentry
        exact readEntry_of_ok s s1 fn q b ((if_pos hsrc).trans hcounted.symm) hhs (hentry.trans hget)
    have hqueue : (t.fn fn).queue q = y := queue_entryTaken s1 fn q y
    have hwaits : t.fenced run = true ↔ waits := fenced_iff t run
    rw [exec_commandStart_of_read s fn q run t hm hf hread, hqueue]
    refine ⟨fun hw => by rw [if_pos (hwaits.mpr hw)], fun hw => ?_⟩
    rw [if_neg (mt hwaits.mp hw), startCommand_eq]
    rfl
  case fetched =>
    intro r hm hf
    rw [exec_commandStart_of_fetched s fn q r hm hf]
    exact ⟨fun h => by rw [if_pos h], fun h => by rw [h]; rfl⟩
  case launch =>
    intro src p hsrc hgood hfn hq
    rw [exec_launchPacket_of_good s src p hsrc hgood]
    exact ⟨fun t hroom hput => by rw [launchTaken_of_room s src p t fn q hfn hq hroom hput]; rfl,
      fun hfull => by rw [launchTaken_of_full s src p fn q hfn hq hfull]⟩
  case window =>
    exact fun hfn off => ⟨fun n hn hpeer => exec_bar2Read_of_peer s fn off n hon hfn hn hpeer,
      fun n hn hpeer => ⟨fun b hget => exec_bar2Read_of_ok s s1 fn off n b hon hfn hn hpeer hget,
        fun e hget => exec_bar2Read_of_error s s1 fn off n e hon hfn hn hpeer hget⟩,
      fun d hd hpeer => exec_bar2Write_of_peer s fn off d hon hfn hd hpeer,
      fun d hd hpeer => ⟨fun hput => exec_bar2Write_of_ok s s1 fn off d hon hfn hd hpeer hput,
        fun e hput => exec_bar2Write_of_error s s1 fn off d e hon hfn hd hpeer hput⟩⟩

end Sys2Proof.Machine.HostQueues
end

section
/-! PROOF. A unit of h that reads or writes tenant memory changes the memory system alone [04 R91 to R97]. -/

namespace Sys2Proof.Machine.TenantMemory

open Sys2Proof Sys2Proof.Machine

/-- Two states that differ in the memory system at most. -/
def OnlyMs (s t : State) : Prop := ∃ m, t = { s with ms := m }

namespace OnlyMs

theorem refl (s : State) : OnlyMs s s := ⟨s.ms, rfl⟩

variable {s t u : State}

theorem trans (h : OnlyMs s t) (g : OnlyMs t u) : OnlyMs s u := by
  obtain ⟨m, rfl⟩ := h
  obtain ⟨n, rfl⟩ := g
  exact ⟨n, rfl⟩

theorem region (h : OnlyMs s t) (i : Nat) : t.region i = s.region i := by obtain ⟨m, rfl⟩ := h; rfl

end OnlyMs

section
variable (s : State) (ten : Nat) (va : Word)

theorem onlyMs_eccEvent (l : Loc) (st : Nat) : OnlyMs s (s.eccEvent l st) := by
  cases l with
  | hbm _ _ => exact ⟨_, rfl⟩
  | cxl _ _ | host _ _ | peer _ _ => exact .refl s

theorem onlyMs_locWrite (l : Loc) (b : List Byte) : OnlyMs s (s.locWrite l b) := by
  cases l with
  | hbm _ _ | cxl _ _ | host _ _ => exact ⟨_, rfl⟩
  | peer _ _ => exact .refl s

theorem onlyMs_stepEcc (level table : Nat) : OnlyMs s (s.stepEcc level table va) := ⟨_, rfl⟩

theorem onlyMs_walkEcc (fuel level table : Nat) : OnlyMs s (s.walkEcc ten va fuel level table) := by
  induction fuel generalizing s level table with
  | zero => exact .refl s
  | succ n ih =>
    unfold State.walkEcc
    split
    · exact (onlyMs_stepEcc s va level table).trans (ih _ _ _)
    · exact onlyMs_stepEcc s va level table
    · split
      · exact onlyMs_stepEcc s va level table
      · exact .refl s

theorem onlyMs_translateEcc : OnlyMs s (s.translateEcc ten va) := by
  unfold State.translateEcc
  split
  · exact .refl s
  · split
    · exact .refl s
    · exact onlyMs_walkEcc ..

theorem onlyMs_readEcc (need : Need) (apers fuel n : Nat) : OnlyMs s (s.readEcc ten need apers fuel va n) := by
  induction fuel generalizing s va n with
  | zero => exact .refl s
  | succ fuel ih =>
    unfold State.readEcc
    split
    · exact .refl s
    · dsimp only
      generalize (if n < pageRoom va then n else pageRoom va) = k
      split
      · exact onlyMs_translateEcc s ten va
      · rename_i l _
        have hpage := (onlyMs_translateEcc s ten va).trans (onlyMs_eccEvent _ l (s.locStatus l k))
        split
        · exact hpage
        · exact hpage.trans (ih _ _ _)

theorem onlyMs_counted (need : Need) (n : Nat) : OnlyMs s (s.counted ten need va n) := onlyMs_readEcc ..

theorem onlyMs_placeWrite (l : Loc) (b : List Byte) : OnlyMs s (s.placeWrite l b).1 := by
  unfold State.placeWrite
  refine List.foldlRecOn (motive := fun (r : State × Nat) => OnlyMs s r.1) _ _ (.refl s) (fun r hr p _ => ?_)
  have hecc := hr.trans (onlyMs_eccEvent r.1 (l.plus p.1) (r.1.putStatus (l.plus p.1) p.2))
  dsimp only
  split
  · exact hecc
  · exact hecc.trans (onlyMs_locWrite ..)

theorem onlyMs_vwrite (apers fuel : Nat) (b : List Byte) : OnlyMs s (s.vwrite ten apers fuel va b).1 := by
  induction fuel generalizing s va b with
  | zero => exact .refl s
  | succ fuel ih =>
    unfold State.vwrite
    split
    · exact .refl s
    · dsimp only
      generalize (if b.length < pageRoom va then b.length else pageRoom va) = k
      split
      · exact onlyMs_translateEcc s ten va
      · rename_i l _
        have hpage := (onlyMs_translateEcc s ten va).trans (onlyMs_placeWrite _ l (b.take k))
        split
        · exact hpage
        · exact hpage.trans (ih _ _ _)

theorem onlyMs_vput (apers : Nat) (b : List Byte) : OnlyMs s (s.vput ten apers va b).1 := onlyMs_vwrite ..

theorem onlyMs_dropPath (slot core path scope : Nat) : OnlyMs s (s.dropPath slot core path scope) := ⟨_, rfl⟩

end

end Sys2Proof.Machine.TenantMemory
end

section
/-! PROOF. What a queue operation answers, and what its exchange element or control-core thread does with the answer
[05 R125, R126; 12 R309; 13 R328]. -/

namespace Sys2Proof.Machine.WorkQueues

open Sys2Proof Sys2Proof.Machine Sys2Proof.Claims Sys2Proof.Machine.TenantMemory

theorem item_eq (q : QDesc) (i : W32) : q.item i = q.base + 16 * BitVec.ofNat 64 (i.toNat % 2 ^ q.log2n) := by
  simp [QDesc.item, BitVec.ofNat_mul]

/-! The operations of the queue unit -/

section
variable (s : State) (ten : Nat) (va : Word) (q : QDesc)

/-- The state in which a queue operation reads the descriptor: the read is counted. -/
abbrev looked (s : State) (ten : Nat) (va : Word) : State := s.counted ten needR va 64

variable (hq : (looked s ten va).qdesc ten va = .ok q)
include hq

theorem qpop_of_item (s1 : State) (b : List Byte) (hne : q.head ≠ q.tail)
    (hb : (looked s ten va).uget ten needR apLocal (q.item q.head) 16 = (s1, .ok b)) :
    s.qpop ten va = (s1.putDesc ten va { q with head := q.head + 1 }, .item b) := by
  have hempty : q.empty = false := by simpa [QDesc.empty] using Ne.symm hne
  simp [State.qpop, hq, hempty, hb]

theorem qpop_of_empty (he : q.head = q.tail) : s.qpop ten va = (looked s ten va, if q.closed != 0#8 then .ended else .wait) := by
  have hempty : q.empty = true := by simp [QDesc.empty, he]
  simp [State.qpop, hq, hempty]

theorem qpush_of_closed (item : List Byte) (hc : q.closed ≠ 0#8) : s.qpush ten va item = (looked s ten va, .done 1) := by
  simp [State.qpush, hq, hc]

theorem qpush_of_full (item : List Byte) (hc : q.closed = 0#8) (hf : (q.tail - q.head).toNat = 2 ^ q.log2n) :
    s.qpush ten va item = (looked s ten va, .wait) := by
  have hfull : q.full = true := by simp [QDesc.full, hf]
  simp [State.qpush, hq, hc, hfull]

theorem qpush_of_room (item : List Byte) (s1 : State) (hc : q.closed = 0#8) (hf : (q.tail - q.head).toNat ≠ 2 ^ q.log2n)
    (hput : (looked s ten va).vput ten apLocal (q.item q.tail) item = (s1, none)) :
    s.qpush ten va item = (s1.putDesc ten va { q with tail := q.tail + 1 }, .done 0) := by
  have hfull : q.full = false := by simpa [QDesc.full] using hf
  simp [State.qpush, hq, hc, hfull, hput]

theorem qclose_of_desc : s.qclose ten va = ((looked s ten va).putDesc ten va { q with closed := 1 }, .done q.closed.toNat) := by
  simp [State.qclose, hq]

end

theorem onlyMs_looked (s : State) (ten : Nat) (va : Word) : OnlyMs s (looked s ten va) := onlyMs_counted ..

theorem onlyMs_putDesc (s : State) (ten : Nat) (va : Word) (q : QDesc) : OnlyMs s (s.putDesc ten va q) := onlyMs_vput ..

/-! QPOP and QTRY of an exchange element -/

theorem fire_of_fires (s : State) (h : NodeHd) (f : Fire) (hf : Fires s h f) (g : Fire → State) : s.fire h g = g f := by
  obtain ⟨hstart, ha, hb, hp⟩ := hf
  simp [State.fire, hstart, Fire.hasCfg, ha, hb, hp]

section
variable (s : State) (h : NodeHd) (f : Fire) (t : State) (r : QRes)

/-- The firing of an operation whose outstanding access ends with tokens, and what the queue unit can serve after it. -/
def answersWith (f : Fire) (t : State) (toks : List (Nat × Token)) : State :=
  (((f.open.finish t).dropPath f.slot f.core 7 3).endAccess f.slot f.core f.elem f.node f.colour toks).queueRun

/-- The firing of a queue operation that is served at once. -/
def served (f : Fire) (t : State) (r : QRes) : State :=
  ((f.open.finish t).endPop f.slot f.core f.elem f.node f.ctx f.colour r).queueRun

theorem served_item (b : List Byte) : served f t (.item b) = answersWith f t (qpopToks f.ctx f.colour b) := rfl

theorem served_ended : served f t .ended = answersWith f t [(2, tokenOn f .eos 0 .none)] := rfl

theorem served_wait : served f t .wait = answersWith f t [(2, tokenOn f .nil 0 .none)] := rfl

variable {s h f t r} (hf : Fires s h f) (hk : f.a.kind = .scalar) (ha : f.a.value.toNat % 64 = 0) (hpop : s.qpop f.r.ten f.a.value = (t, r))
include hf hk ha hpop

theorem exec_qtry : exec (.qtry h) s = .next (served f t r) := by
  change execQtry h s = _
  simp [execQtry, fire_of_fires s h f hf, hk, ha, hpop, served]

theorem exec_qpop_of_served (hr : r ≠ .wait) : exec (.qpop h) s = .next (served f t r) := by
  change execQpop h s = _
  cases r with
  | wait => exact absurd rfl hr
  | fault _ | badDesc | done _ | item _ | ended => simp [execQpop, fire_of_fires s h f hf, hk, ha, hpop, served]

end

/-- QPOP and QTRY of an operation that does not wait end alike. -/
theorem exec_pops_of_served {s t : State} {h : NodeHd} {f : Fire} {r : QRes} {toks : List (Nat × Token)} (hf : Fires s h f) (hk : f.a.kind = .scalar)
    (ha : f.a.value.toNat % 64 = 0) (hpop : s.qpop f.r.ten f.a.value = (t, r)) (hr : r ≠ .wait) (hserved : served f t r = answersWith f t toks) :
    exec (.qpop h) s = .next (answersWith f t toks) ∧ exec (.qtry h) s = .next (answersWith f t toks) :=
  hserved ▸ ⟨exec_qpop_of_served hf hk ha hpop hr, exec_qtry hf hk ha hpop⟩

theorem exec_qpop_of_wait (s : State) (h : NodeHd) (f : Fire) (t : State) (hf : Fires s h f) (hk : f.a.kind = .scalar)
    (ha : f.a.value.toNat % 64 = 0) (hpop : s.qpop f.r.ten f.a.value = (t, .wait)) :
    ∃ u : State, exec (.qpop h) s = .next u ∧
      u.wk.qwaits = s.wk.qwaits ++ [⟨false, f.slot, f.core, f.elem, s.nextOp, f.a.value, []⟩] := by
  let begun : State := f.beginX s (f.xop s .qpop f.a.value [] f.a)
  have hwk : begun.wk = s.wk := by simp [begun, Fire.beginX, Fire.finish, State.onXe]
  refine ⟨{ begun with wk := { begun.wk with qwaits := begun.wk.qwaits ++ [⟨false, f.slot, f.core, f.elem, s.nextOp, f.a.value, []⟩] } }, ?_, ?_⟩
  · change execQpop h s = _
    simp [execQpop, fire_of_fires s h f hf, hk, ha, hpop, begun]
  · rw [hwk]

/-! QPUSHC and QCLOSE of a control core -/

/-- The model's thread past an answer is that of the statements. -/
theorem answer_eq_answered (k : Cc) (d : BitVec 5) (v : Word) : k.t.answer k.c.clk d v = answered k d v := by
  by_cases hd : d = 0#5 <;> simp [Thread.answer, answered, past, Thread.wr, Thread.advance, Thread.loopEnd, hd]

/-- A thread of which nothing but the memory system has changed since its issue takes its answer [12 R309]. -/
theorem endPush_done (s t : State) (k : Cc) (hk : s.ccOf = some k) (ht : OnlyMs s t) (d : BitVec 5) (va : Word) (v : Nat) :
    t.endPush k.slot k.core k.thr d va (.done v) =
      (t.dropPath k.slot k.core 7 3).putThread k.slot k.core k.thr (answered k d (BitVec.ofNat 64 v)) := by
  obtain ⟨-, -, -, hr, hc, hth, -⟩ := s.ccOf_some k hk
  have hregion : (t.dropPath k.slot k.core 7 3).region k.slot = some k.r := by
    rw [(ht.trans (onlyMs_dropPath ..)).region, hr]
  simp only [State.endPush, hregion]
  rw [← hc, ← hth, answer_eq_answered]

section
variable (s : State) (k : Cc) (hk : s.ccOf = some k) (h : CcHd) (d a b : BitVec 5) (ha : (k.t.rd a).toNat % 64 = 0)
include hk ha

theorem exec_qclose (t : State) (v : Nat) (hc : s.qclose k.r.ten (k.t.rd a) = (t, .done v)) (ht : OnlyMs s t) :
    exec (.qclose h d a) s = .next
      ((t.dropPath k.slot k.core 7 3).putThread k.slot k.core k.thr (answered k d (BitVec.ofNat 64 v))).queueRun := by
  change execQclose h d a s = _
  rw [execQclose, s.cc_eq k _ hk, ← endPush_done s t k hk ht d (k.t.rd a) v]
  simp [ha, hc]

variable (m off : Nat) (hb : (k.t.rd b).toNat % 16 = 0) (hw : k.r.window (k.t.rd b) 16 = some (m, off))
include hb hw

theorem exec_qpushc_of_done (t : State) (v : Nat)
    (hp : s.qpush k.r.ten (k.t.rd a) (s.bufRead k.slot k.core m off 16) = (t, .done v)) (ht : OnlyMs s t) :
    exec (.qpushc h d a b) s = .next
      ((t.dropPath k.slot k.core 7 3).putThread k.slot k.core k.thr (answered k d (BitVec.ofNat 64 v))).queueRun := by
  change execQpushc h d a b s = _
  rw [execQpushc, s.cc_eq k _ hk, ← endPush_done s t k hk ht d (k.t.rd a) v]
  simp [ha, hb, hw, hp, Cc.slot16]

theorem exec_qpushc_of_wait (t : State) (hp : s.qpush k.r.ten (k.t.rd a) (s.bufRead k.slot k.core m off 16) = (t, .wait)) :
    ∃ u, exec (.qpushc h d a b) s = .next u ∧ u.thread k.slot k.core k.thr = { k.t with st := .block .queue } ∧
      u.wk.qwaits = s.wk.qwaits ++ [⟨true, k.slot, k.core, k.thr, 0, k.t.rd a, s.bufRead k.slot k.core m off 16⟩] := by
  obtain ⟨-, -, -, hr, -, -, -⟩ := s.ccOf_some k hk
  refine ⟨{ s.putThread k.slot k.core k.thr { k.t with st := .block .queue } with
    wk := { s.wk with qwaits := s.wk.qwaits ++ [⟨true, k.slot, k.core, k.thr, 0, k.t.rd a, s.bufRead k.slot k.core m off 16⟩] } }, ?_, ?_, rfl⟩
  · change execQpushc h d a b s = _
    rw [execQpushc, s.cc_eq k _ hk]
    simp [ha, hb, hw, hp, Cc.slot16]
  · exact (s.thread_putThread k.slot k.core k.thr k.slot k.core k.thr _ k.r hr).trans (if_pos ⟨rfl, rfl, rfl⟩)

end

/-- Settles O36: each operation by what its descriptor says of the ring. -/
theorem queueOperationResult : Obligations.QueueOperationResult := by
  unfold Obligations.QueueOperationResult
  refine ⟨fun s h f q hf hk ha => ?_, fun s k hk h d a b => ?_⟩
  · intro va ten s0 hq g gives word
    refine ⟨fun s1 b hne hget => ?_, fun he hc => ?_, fun he hc => ?_⟩
    · rw [← item_eq] at hget
      exact exec_pops_of_served hf hk ha (qpop_of_item s ten va q hq s1 b hne hget) QRes.noConfusion (served_item ..)
    · have hpop := qpop_of_empty s ten va q hq he
      rw [if_pos (by simpa using hc)] at hpop
      exact exec_pops_of_served hf hk ha hpop QRes.noConfusion (served_ended ..)
    · have hpop := qpop_of_empty s ten va q hq he
      rw [if_neg (by simpa using hc)] at hpop
      have hqtry := exec_qtry hf hk ha hpop
      rw [served_wait] at hqtry
      exact ⟨hqtry, exec_qpop_of_wait s h f _ hf hk ha hpop⟩
  · intro va s0 answers ha q hq
    have hs0 : OnlyMs s s0 := onlyMs_looked s k.r.ten va
    refine ⟨fun m off hb hw => ?_, ?_⟩
    · refine ⟨fun hc => ?_, fun hc hroom s1 hput => ?_, fun hc hfull => ?_⟩
      · exact exec_qpushc_of_done s k hk h d a b ha m off hb hw s0 1 (qpush_of_closed s _ va q hq _ hc) hs0
      · rw [← item_eq] at hput
        have hs1 : OnlyMs s0 s1 := by simpa [hput] using onlyMs_vput s0 k.r.ten (q.item q.tail) apLocal (s.bufRead k.slot k.core m off 16)
        exact exec_qpushc_of_done s k hk h d a b ha m off hb hw _ 0 (qpush_of_room s _ va q hq _ s1 hc hroom hput)
          ((hs0.trans hs1).trans (onlyMs_putDesc ..))
      · exact exec_qpushc_of_wait s k hk h d a b ha m off hb hw s0 (qpush_of_full s _ va q hq _ hc hfull)
    · exact exec_qclose s k hk h d a ha _ _ (qclose_of_desc s _ va q hq) (hs0.trans (onlyMs_putDesc ..))

end Sys2Proof.Machine.WorkQueues
end

section
/-! PROOF. A TASK that waits for a lower phase answers what follows of itself, which need not be the state it found [05 R121, R129]. -/

namespace Sys2Proof.Machine.TaskGraphs

open Sys2Proof Sys2Proof.Machine Sys2Proof.Claims

/-- No TASK is dispatched while a task of a lower phase runs [05 R129]. -/
theorem phaseOpen_of_lower (s : State) (ten p : Nat) (t : TaskRun) (ht : t ∈ (s.walk ten).tasks) (hlow : fieldOf t.ent 3 1 < p) :
    s.phaseOpen ten p = false := by
  have hall : (s.walk ten).tasks.all (fun t => p ≤ fieldOf t.ent 3 1) = false := by
    rw [List.all_eq_false]
    exact ⟨t, ht, by simpa using hlow⟩
  simp only [State.phaseOpen, hall, Bool.false_and, Bool.or_false, beq_eq_false_iff_ne]
  omega

/-- A TASK whose phase is not open dispatches nothing, and what the memory system has outstanding is carried forward. -/
theorem exec_taskNode_of_closed (s : State) (ten node : Nat) (e : Elig) (h : s.eligNode ten node 0 = some e)
    (hten : (s.slot (fieldOf e.ent 4 2)).ten.toNat = ten) (hclosed : s.phaseOpen ten (fieldOf e.ent 3 1) = false) :
    exec (.taskNode ten node) s = .next s.run := by
  change execTaskNode ten node s = _
  simp [execTaskNode, h, hten, hclosed]

/-- A TASK node of one exit, one arrival and a phase. -/
def taskNode (phase : Byte) : List Byte := [0, 1, 1, phase]

/-- A walk of tenant 0 whose task of phase 0 runs and whose TASK of phase 1 is eligible, while an operation of which every part has
ended still stands among those in progress. -/
def heldTask : State :=
  { State.reset with
    wk := { State.reset.wk with walks := [(0, { GraphWalk.idle with
      active := true, elig := [⟨1, taskNode 1, 0, none⟩], tasks := [⟨0, taskNode 0, 1⟩] })] }
    ms := { MemSys.reset with ops := [mkOp (.spill 0 0 0) (.talon 0 0) 0 .write [] [⟨0, 0, 0, .done⟩] apAll] } }

/-- The operation that has ended goes when the machine is carried forward. -/
theorem ops_heldTask_run : heldTask.run.ms.ops = [] := by decide +kernel

/-- Refutes O46: the clause of a TASK that waits for a lower phase says that the state stays as it is, but the event carries the memory
system forward: in `heldTask` an operation that has ended goes. -/
theorem not_walkerNodeResult : ¬ Obligations.WalkerNodeResult := by
  intro h
  obtain ⟨-, -, -, -, -, htask, -⟩ := h heldTask 0 1 ⟨1, taskNode 1, 0, none⟩
  have helig : heldTask.eligNode 0 1 0 = some ⟨1, taskNode 1, 0, none⟩ := by decide +kernel
  have hten : (heldTask.slot (fieldOf (taskNode 1) 4 2)).ten.toNat = 0 := by decide +kernel
  have hrunning : (⟨0, taskNode 0, 1⟩ : TaskRun) ∈ (heldTask.walk 0).tasks := by decide +kernel
  have hlower : fieldOf (taskNode 0) 3 1 < fieldOf (taskNode 1) 3 1 := by decide +kernel
  obtain ⟨-, hwaits, -⟩ := htask helig
  have hstays : exec (.taskNode 0 1) heldTask = .next heldTask := hwaits hten ⟨_, hrunning, hlower⟩
  rw [exec_taskNode_of_closed heldTask 0 1 _ helig hten (phaseOpen_of_lower heldTask 0 _ _ hrunning hlower)] at hstays
  have hops : heldTask.run.ms.ops = heldTask.ms.ops := congrArg (·.ms.ops) (Host.Outcome.next.inj hstays)
  rw [ops_heldTask_run] at hops
  exact absurd hops (List.cons_ne_nil _ _).symm

end Sys2Proof.Machine.TaskGraphs
end

section
/-! PROOF. What the operations of a slot command leave in its slot: sending on the fabric, beginning an operation
and dropping what a slot has outstanding leave every slot as it is [05 R104 to R108, R114, R118, R120]. -/

namespace Sys2Proof.Machine.SlotCommands

open Sys2Proof Sys2Proof.Machine

/-! Operations that leave every slot as it is -/

/-- What every step of a fold keeps, the fold keeps. -/
theorem foldl_keeps {α β : Type} (p : State → β) (f : State → α → State) (hf : ∀ s a, p (f s a) = p s) (l : List α) (s : State) :
    p (l.foldl f s) = p s :=
  List.foldlRecOn (motive := fun t => p t = p s) l f rfl (fun t ht a _ => (hf t a).trans ht)

theorem slot_of_slots {s t : State} (h : t.slots = s.slots) (n : Nat) : t.slot n = s.slot n := by simp [State.slot, h]

section
variable (s : State)

@[simp] theorem slots_launchPkt (p : Packet) (path : Option Path) : (s.launchPkt p path).slots = s.slots := by
  cases path with
  | none => rfl
  | some pa => simp only [State.launchPkt]; split <;> split <;> rfl

@[simp] theorem slots_sendPkt (p : Packet) : (s.sendPkt p).slots = s.slots := by
  unfold State.sendPkt
  split
  · exact slots_launchPkt ..
  · have hflow : (if s.flowBusy p then s else s.dropFlow p).slots = s.slots := by split <;> rfl
    dsimp only
    split
    · rw [slots_launchPkt, hflow]
    · split
      · rw [slots_launchPkt, hflow]
      · rw [slots_launchPkt, State.withFb_slots, hflow]

@[simp] theorem slots_sendConn (p : Packet) : (s.sendConn p).slots = s.slots := by
  unfold State.sendConn
  dsimp only
  split
  · rfl
  · exact slots_sendPkt ..

@[simp] theorem slots_sendCtl (dst : BitVec 8) (ten : Nat) (opq : BitVec 40) (data : List Byte) : (s.sendCtl dst ten opq data).slots = s.slots := by
  unfold State.sendCtl State.send
  split <;> simp

@[simp] theorem slots_collMsg (k : Coll) (kind : Nat) (inst : BitVec 4) (red : BitVec 16) : (s.collMsg k kind inst red).slots = s.slots :=
  foldl_keeps State.slots _ (fun t _ => slots_sendCtl t ..) _ s

@[simp] theorem slots_rePause (ten num : Nat) : (s.rePause ten num).slots = s.slots := by
  unfold State.rePause
  split
  · rfl
  · split <;> rfl

@[simp] theorem slots_holdRanks (n : Nat) : (s.holdRanks n).slots = s.slots := by
  unfold State.holdRanks
  apply foldl_keeps State.slots
  intro t k
  split
  · split
    · simp [State.onColl]
    · rfl
  · rfl

theorem slots_startOps (ops : List Op) : (ops.foldl (fun s o => s.startOp o) s).slots = s.slots :=
  foldl_keeps State.slots (fun s o => s.startOp o) (fun _ _ => rfl) ops s

theorem slots_cutSlot (n : Nat) (keep : Op → Bool) : (s.cutSlot n keep).slots = s.slots := rfl

theorem slots_dropUnits (n : Nat) : (s.dropUnits n).slots = s.slots := rfl

end

/-! A slot and its region written -/

section
variable (s : State) (n : Nat)

theorem slot_onRegion (r : Region) (f : Region → Region) (hr : s.region n = some r) :
    (s.onRegion n f).slot n = { s.slot n with region := some (f r) } := by
  simp [State.onRegion, hr, State.putRegion]

theorem slot_putBounds (drain : Option (Nat × Nat)) : ∃ tload, (s.putBounds n drain).slot n =
    { s.slot n with
      held := some (s.slot n).record, tload := tload
      tdrn := tdrnOf (drain.getD ((s.slot n).l.toNat, ((s.cmdImage (s.slot n) 1).map (fun i => i.wcl)).getD 0)).1
        (drain.getD ((s.slot n).l.toNat, ((s.cmdImage (s.slot n) 1).map (fun i => i.wcl)).getD 0)).2 (Config.freeValue (s.freeCount + 1)) } :=
  ⟨_, State.slot_putSlot_same ..⟩

/-- A load that begins writes what it has read into its slot and nothing else of it [05 R115]. -/
theorem slot_beginReads : ∃ l, (s.beginReads n).slot n = { s.slot n with load := l } := by
  unfold State.beginReads
  dsimp only
  split
  · exact ⟨_, State.slot_putSlot_same ..⟩
  · exact ⟨_, (slot_of_slots (slots_startOps ..) n).trans (State.slot_putSlot_same ..)⟩

theorem slot_clearRegion : (s.clearRegion n).slot n = { s.slot n with region := none, saved := none, load := none } := by
  have hslots : ((s.cutSlot n (fun _ => false)).dropUnits n).slots = s.slots := (slots_dropUnits ..).trans (slots_cutSlot ..)
  have hcut := slot_of_slots hslots n
  rw [State.clearRegion, State.slot_putSlot_same, hcut]

theorem slot_beginLoad : ∃ l, (s.beginLoad n).slot n = { s.slot n with st := 1, region := none, saved := none, load := l } := by
  generalize hcleared : s.clearRegion n = t
  have hslot : t.slot n = { s.slot n with region := none, saved := none, load := none } := hcleared ▸ slot_clearRegion s n
  obtain ⟨l, hl⟩ := slot_beginReads (t.putSlot n { t.slot n with st := 1 }) n
  refine ⟨l, ?_⟩
  rw [State.beginLoad, hcleared, hl, State.slot_putSlot_same, hslot]

end

/-! A region at its start -/

/-- A region as it enters RUN: no colour is live, and it has started now [05 R108]. -/
def AtStart (now : Nat) (r : Region) : Prop := r.running = true ∧ r.lead = 0 ∧ r.next = 0 ∧ r.started = now

/-- A slot whose region is at its start, else as it was. -/
def SlotAtStart (n now : Nat) (x : Slot) (s : State) : Prop := ∃ r, s.slot n = { x with region := some r } ∧ AtStart now r

section
variable (s : State) (n now : Nat) (x : Slot)

theorem slotAtStart_putRegion (r : Region) (h : SlotAtStart n now x s) (hr : AtStart now r) : SlotAtStart n now x (s.putRegion n r) := by
  obtain ⟨r0, hslot, -⟩ := h
  exact ⟨r, by simp [State.putRegion, hslot], hr⟩

theorem slotAtStart_applyWord (c e : Nat) (w : LayoutWord) (h : SlotAtStart n now x s) : SlotAtStart n now x (s.applyWord n c e w) := by
  obtain ⟨r, hslot, hr⟩ := id h
  have hregion : s.region n = some r := by simp [State.region, hslot]
  obtain ⟨-, hlead, hnext, -⟩ := id hr
  have hlive (k : BitVec 8) : r.isLive k = false := by simp [Region.isLive, Region.live, hlead, hnext]
  simp only [State.applyWord, hregion]
  split
  · exact slotAtStart_putRegion s n now x _ h hr
  · split
    · exact h
    · rename_i ctx k _
      have hraised := slotAtStart_putRegion (s.putRegion n r) n now x (r.raise c 3 (opTval ctx k)) (slotAtStart_putRegion s n now x r h hr) hr
      simp only [hlive, State.opFault, State.region_putRegion_same]
      obtain ⟨r', hslot', hr'⟩ := hraised
      exact ⟨r', (slot_of_slots (State.record_slots ..) n).trans hslot', hr'⟩

theorem slotAtStart_applyWords (c e : Nat) (ws : List LayoutWord) (h : SlotAtStart n now x s) : SlotAtStart n now x (s.applyWords n c e ws) := by
  induction ws generalizing s with
  | nil => exact h
  | cons w ws ih => exact ih _ (slotAtStart_applyWord s n now x c e w h)

end

/-- A region started stands at its start in its slot, which enters RUN [05 R108]. -/
theorem slotAtStart_startRegion (s : State) (n : Nat) (r : Region) : SlotAtStart n s.time { s.slot n with st := 2 } (s.startRegion n r) := by
  unfold State.startRegion
  dsimp only
  refine List.foldlRecOn (motive := SlotAtStart n s.time { s.slot n with st := 2 }) _ _ ?_ (fun t ht p _ => ?_)
  · exact ⟨_, State.slot_putSlot_same .., rfl, rfl, rfl, rfl⟩
  · exact List.foldlRecOn _ _ ht (fun u hu q _ => slotAtStart_applyWords u n _ _ p.1 q.1 _ hu)

/-! A region that freezes -/

/-- What a freeze leaves of a region: its control cores have stopped; its colours and its tokens stay [05 R118]. -/
def Stopped (r r' : Region) : Prop := r'.running = false ∧ r'.lead = r.lead ∧ r'.next = r.next ∧ r'.flight = r.flight

section
variable (s : State) (n : Nat)

theorem slot_freeze (r : Region) (hr : s.region n = some r) : ∃ r', (s.freeze n).slot n = { s.slot n with region := some r' } ∧ Stopped r r' :=
  ⟨_, slot_onRegion s n r _ hr, rfl, rfl, rfl, rfl⟩

theorem sendHolds_of_busy (hbusy : s.busySlot n = true) : s.sendHolds n = s := by simp [State.sendHolds, hbusy]

theorem sendHolds_of_sent (hsent : (s.slot n).holdSent = true) : s.sendHolds n = s := by simp [State.sendHolds, hsent]

theorem slot_sendHolds_of_idle (r : Region) (hr : s.region n = some r) (hst : (s.slot n).st = 4) (hsent : (s.slot n).holdSent = false)
    (hidle : s.busySlot n = false) :
    ∃ r', (s.sendHolds n).slot n = { s.slot n with region := some r', holdSent := true } ∧ Stopped r r' := by
  obtain ⟨r', hslot, hstopped⟩ := slot_freeze s n r hr
  have hsends : s.sendHolds n = ((s.freeze n).putSlot n { (s.freeze n).slot n with holdSent := true }).holdRanks n := by
    simp [State.sendHolds, hst, hsent, hidle]
  refine ⟨r', ?_, hstopped⟩
  rw [hsends, slot_of_slots (slots_holdRanks ..), State.slot_putSlot_same, hslot]

/-- What is outstanding of a slot does not depend on whether its arbiters act. -/
theorem busySlot_of_halting (t : State) (r : Region) (hms : t.ms = s.ms) (hreset : (t.slot n).reset = (s.slot n).reset) (hs : s.region n = some r)
    (ht : t.region n = some { r with halting := true }) : t.busySlot n = s.busySlot n := by
  simp only [State.busySlot, hms, hreset, hs, ht]
  rfl

end

end Sys2Proof.Machine.SlotCommands
end

section
/-! PROOF. Acceptance of slot commands and what each does to its slot, then how loads, drains and saves end
[05 R104 to R108, R114, R118, R120, R131, R410]. -/

namespace Sys2Proof.Machine.SlotCommands

open Sys2Proof Sys2Proof.Machine Sys2Proof.Claims

/-! Acceptance -/

/-- The commands of a slot with their numbers [05 R105]. -/
def named (n : Nat) : List (Instr × Nat) := [(.bind n, 1), (.reconf n, 2), (.freeze n, 3), (.restore n, 4), (.release n, 5), (.restart n, 6)]

theorem exec_of_named (s : State) (n cmd : Nat) (i : Instr) (hi : (i, cmd) ∈ named n) : ∃ g, exec i s = .next (s.accept n cmd g).run := by
  simp only [named, List.mem_cons, Prod.mk.injEq, List.not_mem_nil, or_false] at hi
  obtain ⟨rfl, rfl⟩ | ⟨rfl, rfl⟩ | ⟨rfl, rfl⟩ | ⟨rfl, rfl⟩ | ⟨rfl, rfl⟩ | ⟨rfl, rfl⟩ := hi <;> exact ⟨_, rfl⟩

/-- The state without the command that acceptance has taken. -/
def taken (s : State) (n cmd o : Nat) : State := { s with mg := { s.mg with slq := dropFirst (· == (n, cmd, o)) s.mg.slq } }

/-- The state in which an accepted command acts: ACCT and LASTST are written [05 R104]. -/
def accepted (s : State) (n cmd o : Nat) : State := (taken s n cmd o).putSlot n { s.slot n with acct := BitVec.ofNat 64 s.time, lastst := 0 }

/-- A command that acceptance takes and no check refuses. -/
structure Accepts (s : State) (n cmd o : Nat) : Prop where
  next : s.nextCmd = some (n, cmd, o)
  live : (s.fn ((s.slot n).ten.toNat + 1)).reset = false
  fits : (taken s n cmd o).refused n cmd = none

section
variable {s : State} {n cmd o : Nat} (g : State → State)

theorem accept_of_reset (h : s.nextCmd = some (n, cmd, o)) (hr : (s.fn ((s.slot n).ten.toNat + 1)).reset = true) :
    s.accept n cmd g = taken s n cmd o := by
  simp [State.accept, h, hr, taken]

theorem accept_of_refused (h : s.nextCmd = some (n, cmd, o)) (hr : (s.fn ((s.slot n).ten.toNat + 1)).reset = false) (code : Nat)
    (hc : (taken s n cmd o).refused n cmd = some code) :
    s.accept n cmd g =
      let t : State := { (taken s n cmd o).putSlot n { s.slot n with lastst := BitVec.ofNat 16 code } with freeCount := s.freeCount + 1 }
      if o = 0 then t else t.slotFailed n code none := by
  rw [taken] at hc
  simp only [State.accept, h, hr, hc, bne_self_eq_false, Bool.or_self, Bool.false_eq_true, if_false, beq_iff_eq]
  rfl

theorem accept_of_accepts (h : Accepts s n cmd o) : s.accept n cmd g = g (accepted s n cmd o) := by
  obtain ⟨hnext, hlive, hfits⟩ := h
  rw [taken] at hfits
  simp only [State.accept, hnext, hlive, hfits, bne_self_eq_false, Bool.or_self, Bool.false_eq_true, if_false]
  rfl

end

/-- A slot's record as acceptance leaves it. -/
def acceptedSlot (s : State) (n : Nat) : Slot := { s.slot n with acct := BitVec.ofNat 64 s.time, lastst := 0 }

theorem slot_accepted (s : State) (n cmd o : Nat) : (accepted s n cmd o).slot n = acceptedSlot s n := State.slot_putSlot_same ..

theorem region_accepted (s : State) (n cmd o : Nat) : (accepted s n cmd o).region n = (s.slot n).region := by
  rw [State.region, slot_accepted]
  rfl

/-- The time of acceptance and no failure stand in a slot's record. -/
abbrev Said (s : State) (y : Slot) : Prop := y.acct = BitVec.ofNat 64 s.time ∧ y.lastst = 0

theorem said_acceptedSlot (s : State) (n : Nat) : Said s (acceptedSlot s n) := ⟨rfl, rfl⟩

theorem landsIn_of {s u : State} {i : Instr} {p : State → Prop} (hexec : exec i s = .next u.run) (hp : p u) : landsIn s i p := ⟨u, hexec, hp⟩

/-! BIND, RECONF and RESTORE -/

/-- A slot whose load has begun without a drain [05 R106, R115]. -/
theorem slot_loadBegun (a : State) (n : Nat) : ∃ l b, ((a.putBounds n none).beginLoad n).slot n =
    { a.slot n with
      held := some (a.slot n).record, tload := b
      tdrn := tdrnOf (a.slot n).l.toNat (((a.cmdImage (a.slot n) 1).map (fun i => i.wcl)).getD 0) (Config.freeValue (a.freeCount + 1))
      st := 1, region := none, saved := none, load := l } := by
  obtain ⟨b, hb⟩ := slot_putBounds a n none
  obtain ⟨l, hl⟩ := slot_beginLoad (a.putBounds n none) n
  exact ⟨l, b, by rw [hl, hb]; rfl⟩

/-- A slot whose region drains for a load [05 R114]. -/
def drainBegun (a : State) (n : Nat) (r : Region) : State :=
  (a.putBounds n (some (r.l, r.wcl))).putSlot n
    { (a.putBounds n (some (r.l, r.wcl))).slot n with st := 3, region := some { r with draining := true } }

theorem slot_drainBegun (a : State) (n : Nat) (r : Region) : ∃ b d, (drainBegun a n r).slot n =
    { a.slot n with held := some (a.slot n).record, tload := b, tdrn := d, st := 3, region := some { r with draining := true } } := by
  obtain ⟨b, hb⟩ := slot_putBounds a n (some (r.l, r.wcl))
  exact ⟨b, _, by rw [drainBegun, State.slot_putSlot_same, hb]⟩

/-- A slot whose saved region is loaded again [05 R120]. -/
def restoreBegun (a : State) (n : Nat) : State :=
  ((a.putBounds n none).putSlot n { (a.putBounds n none).slot n with st := 6 }).beginReads n

theorem slot_restoreBegun (a : State) (n : Nat) : ∃ l b d, (restoreBegun a n).slot n =
    { a.slot n with held := some (a.slot n).record, tload := b, tdrn := d, st := 6, load := l } := by
  obtain ⟨b, hb⟩ := slot_putBounds a n none
  obtain ⟨l, hl⟩ := slot_beginReads ((a.putBounds n none).putSlot n { (a.putBounds n none).slot n with st := 6 }) n
  exact ⟨l, b, _, by rw [restoreBegun, hl, State.slot_putSlot_same, hb]⟩

section
variable {s : State} {n o : Nat}

theorem exec_bind (h : Accepts s n 1 o) : exec (.bind n) s = .next (((accepted s n 1 o).putBounds n none).beginLoad n).run := by
  change execBind n s = _
  rw [execBind, accept_of_accepts _ h]

theorem landsIn_bind (h : Accepts s n 1 o) : landsIn s (.bind n) (fun t => (t.slot n).st = 1 ∧ (t.slot n).region = none ∧ Said s (t.slot n) ∧
    (t.slot n).held = some (s.slot n).record ∧
    ∀ i, s.cmdImage (s.slot n) 1 = some i → (t.slot n).tdrn = tdrnOf (s.slot n).l.toNat i.wcl (Config.freeValue (s.freeCount + 1))) := by
  obtain ⟨l, b, hslot⟩ := slot_loadBegun (accepted s n 1 o) n
  rw [slot_accepted] at hslot
  refine landsIn_of (exec_bind h) ?_
  rw [hslot]
  refine ⟨rfl, rfl, said_acceptedSlot s n, rfl, fun i hi => ?_⟩
  have himage : (accepted s n 1 o).cmdImage (acceptedSlot s n) 1 = some i := hi
  dsimp only
  rw [himage]
  rfl

theorem exec_reconf_of_idle (h : Accepts s n 2 o) (hst : (s.slot n).st = 7) :
    exec (.reconf n) s = .next (((accepted s n 2 o).putBounds n none).beginLoad n).run := by
  change execReconf n s = _
  have hst' : (acceptedSlot s n).st = 7 := hst
  rw [execReconf, accept_of_accepts _ h, slot_accepted]
  split
  · rfl
  · rw [if_pos (by simp [hst'])]

theorem landsIn_reconf_of_idle (h : Accepts s n 2 o) (hst : (s.slot n).st = 7) :
    landsIn s (.reconf n) (fun t => (t.slot n).st = 1 ∧ (t.slot n).region = none ∧ Said s (t.slot n)) := by
  obtain ⟨l, b, hslot⟩ := slot_loadBegun (accepted s n 2 o) n
  rw [slot_accepted] at hslot
  refine landsIn_of (exec_reconf_of_idle h hst) ?_
  rw [hslot]
  exact ⟨rfl, rfl, said_acceptedSlot s n⟩

section
variable (h : Accepts s n 2 o) (r : Region) (hst : (s.slot n).st = 2) (hr : (s.slot n).region = some r)
include h hst hr

theorem exec_reconf_of_running : exec (.reconf n) s = .next (if (drainBegun (accepted s n 2 o) n r).slot n |>.flg.getLsbD 0
    then (drainBegun (accepted s n 2 o) n r).purgeAll n else drainBegun (accepted s n 2 o) n r).run := by
  change execReconf n s = _
  have hst' : (acceptedSlot s n).st = 2 := hst
  have hr' : (acceptedSlot s n).region = some r := hr
  rw [execReconf, accept_of_accepts _ h, slot_accepted, hr']
  dsimp only
  rw [if_neg (by simp [hst'])]
  rfl

theorem landsIn_reconf_of_keep (hflg : (s.slot n).flg.getLsbD 0 = false) : landsIn s (.reconf n) (fun t =>
    (t.slot n).st = 3 ∧ (t.slot n).region = some { r with draining := true } ∧ Said s (t.slot n)) := by
  obtain ⟨b, d, hslot⟩ := slot_drainBegun (accepted s n 2 o) n r
  rw [slot_accepted] at hslot
  have hkeep : ((drainBegun (accepted s n 2 o) n r).slot n).flg.getLsbD 0 = false := by rw [hslot]; exact hflg
  refine landsIn_of ((exec_reconf_of_running h r hst hr).trans (by rw [hkeep, if_neg Bool.false_ne_true])) ?_
  rw [hslot]
  exact ⟨rfl, rfl, said_acceptedSlot s n⟩

theorem landsIn_reconf_of_discard (hflg : (s.slot n).flg.getLsbD 0 = true) : landsIn s (.reconf n) (fun t => ∃ u : State,
    t = u.purgeAll n ∧ (u.slot n).st = 3 ∧ (u.slot n).region = some { r with draining := true } ∧ Said s (u.slot n)) := by
  obtain ⟨b, d, hslot⟩ := slot_drainBegun (accepted s n 2 o) n r
  rw [slot_accepted] at hslot
  have hdiscard : ((drainBegun (accepted s n 2 o) n r).slot n).flg.getLsbD 0 = true := by rw [hslot]; exact hflg
  refine landsIn_of ((exec_reconf_of_running h r hst hr).trans (by rw [if_pos hdiscard])) ⟨_, rfl, ?_⟩
  rw [hslot]
  exact ⟨rfl, rfl, said_acceptedSlot s n⟩

end

theorem exec_restore (h : Accepts s n 4 o) : exec (.restore n) s = .next (restoreBegun (accepted s n 4 o) n).run := by
  change execRestore n s = _
  rw [execRestore, accept_of_accepts _ h]
  rfl

theorem landsIn_restore (h : Accepts s n 4 o) :
    landsIn s (.restore n) (fun t => (t.slot n).st = 6 ∧ Said s (t.slot n) ∧ (t.slot n).saved = (s.slot n).saved) := by
  obtain ⟨l, b, d, hslot⟩ := slot_restoreBegun (accepted s n 4 o) n
  rw [slot_accepted] at hslot
  refine landsIn_of (exec_restore h) ?_
  rw [hslot]
  exact ⟨rfl, said_acceptedSlot s n, rfl⟩

/-! FREEZE -/

/-- A slot that freezes before its control cores have stopped: its arbiters and channels do not act [05 R118 steps 1 to 3]. -/
def halted (a : State) (n : Nat) : State :=
  let u := a.onRegion n (fun r => { r with halting := true })
  u.putSlot n { u.slot n with st := 4, holdSent := false, held := (u.slot n).held.map (fun b => { b with savek := (u.slot n).savek }) }

theorem slot_halted (a : State) (n : Nat) (r : Region) (hr : a.region n = some r) : (halted a n).slot n =
    { a.slot n with
      st := 4, holdSent := false, region := some { r with halting := true }
      held := (a.slot n).held.map (fun b => { b with savek := (a.slot n).savek }) } := by
  rw [halted, State.slot_putSlot_same, slot_onRegion a n r _ hr]

theorem exec_freeze (h : Accepts s n 3 o) : exec (.freeze n) s = .next ((halted (accepted s n 3 o) n).sendHolds n).run := by
  change execFreeze n s = _
  rw [execFreeze, accept_of_accepts _ h]
  rfl

theorem landsIn_freeze (h : Accepts s n 3 o) (r : Region) (hr : (s.slot n).region = some r) :
    landsIn s (.freeze n) (fun t => (t.slot n).st = 4 ∧ Said s (t.slot n) ∧ (t.slot n).holdSent = !s.busySlot n ∧
      (t.slot n).held = (s.slot n).held.map (fun a => { a with savek := (s.slot n).savek }) ∧
      ∃ r', (t.slot n).region = some r' ∧ r'.acts = false ∧ (s.busySlot n = false → r'.running = false) ∧ r'.lead = r.lead ∧ r'.next = r.next ∧
        r'.flight = r.flight) := by
  have hra : (accepted s n 3 o).region n = some r := (region_accepted ..).trans hr
  have hslot := slot_halted (accepted s n 3 o) n r hra
  have hregion : (halted (accepted s n 3 o) n).region n = some { r with halting := true } := by rw [State.region, hslot]
  have hbusy : (halted (accepted s n 3 o) n).busySlot n = s.busySlot n := by
    refine busySlot_of_halting s n _ r ?_ ?_ hr hregion
    · exact State.onRegion_ms ..
    · rw [hslot, slot_accepted]
      rfl
  rw [slot_accepted] at hslot
  refine landsIn_of (exec_freeze h) ?_
  cases hb : s.busySlot n with
  | true =>
    rw [sendHolds_of_busy _ n (hbusy.trans hb), hslot]
    exact ⟨rfl, said_acceptedSlot s n, rfl, rfl, _, rfl, by simp [Region.acts], Bool.noConfusion, rfl, rfl, rfl⟩
  | false =>
    obtain ⟨r', hsent, hrun, hlead, hnext, hflight⟩ :=
      slot_sendHolds_of_idle (halted (accepted s n 3 o) n) n _ hregion (by rw [hslot]) (by rw [hslot]) (hbusy.trans hb)
    rw [hsent, hslot]
    exact ⟨rfl, said_acceptedSlot s n, rfl, rfl, r', rfl, by simp [Region.acts, hrun], fun _ => hrun, hlead, hnext, hflight⟩

/-! RELEASE and RESTART -/

theorem exec_release (h : Accepts s n 5 o) : exec (.release n) s =
    .next (if (s.slot n).st = 0 then accepted s n 5 o else (accepted s n 5 o).regionReset n false).run := by
  change execRelease n s = _
  rw [execRelease, accept_of_accepts _ h, slot_accepted]
  simp [acceptedSlot]

theorem exec_restart (h : Accepts s n 6 o) (r : Region) (hr : (s.slot n).region = some r) : exec (.restart n) s =
    .next (((accepted s n 6 o).putSlot n (acceptedSlot s n).reread).startRegion n r).run := by
  change execRestart n s = _
  rw [execRestart, accept_of_accepts _ h, region_accepted, hr, slot_accepted]

theorem landsIn_restart (h : Accepts s n 6 o) (r : Region) (hr : (s.slot n).region = some r) :
    landsIn s (.restart n) (fun t => (t.slot n).st = 2 ∧ Said s (t.slot n) ∧
      ∃ r', (t.slot n).region = some r' ∧ r'.running = true ∧ r'.live = 0 ∧ r'.lead = 0 ∧ r'.next = 0 ∧ r'.started = s.time) := by
  obtain ⟨r', hslot, hrun, hlead, hnext, hstarted⟩ :=
    slotAtStart_startRegion ((accepted s n 6 o).putSlot n (acceptedSlot s n).reread) n r
  rw [State.slot_putSlot_same] at hslot
  refine landsIn_of (exec_restart h r hr) ?_
  rw [hslot]
  exact ⟨rfl, said_acceptedSlot s n, r', rfl, hrun, by simp [Region.live, hlead, hnext], hlead, hnext, hstarted⟩

end

/-! The ends of loads, drains and saves -/

/-- A frozen slot keeps its region as its save begins: the region it has, once its HOLDs are out [05 R118]. -/
theorem region_sendHolds (s : State) (n : Nat) (r : Region) (hr : (s.slot n).region = some r) (hst : (s.slot n).st = 4) (hidle : s.busySlot n = false) :
    ∃ q, (s.sendHolds n).region n = some q ∧ ((s.slot n).holdSent = true → q = r) := by
  cases hsent : (s.slot n).holdSent with
  | true => exact ⟨r, by rw [sendHolds_of_sent s n hsent]; exact hr, fun _ => rfl⟩
  | false =>
    obtain ⟨q, hslot, -⟩ := slot_sendHolds_of_idle s n r hr hst hsent hidle
    exact ⟨q, by rw [State.region, hslot], Bool.noConfusion⟩

section
variable (s : State) (n : Nat) (hreset : (s.slot n).reset = none)
include hreset

theorem landsIn_loadComplete_of_loading (r : Region) (hst : (s.slot n).st = 1) (hread : s.readsDone n = true) (hload : s.loaded n = .ok r) :
    landsIn s (.loadComplete n) (fun t => ∃ u : State, t = (u.launchDone n 0 none).stageTask n ∧ (u.slot n).st = 2 ∧
      ∃ r', (u.slot n).region = some r' ∧ r'.running = true ∧ r'.lead = 0 ∧ r'.next = 0 ∧ r'.started = s.time) := by
  let s1 := (s.useStaged (s.slot n).asRead r.sfree).putSlot n { s.slot n with load := none }
  have hexec : exec (.loadComplete n) s = .next (((s1.startRegion n r).launchDone n csOK none).stageTask n).run := by
    change execLoadComplete n s = _
    simp [execLoadComplete, hst, hreset, hread, hload, s1]
  obtain ⟨r', hslot, hrun, hlead, hnext, hstarted⟩ := slotAtStart_startRegion s1 n r
  refine landsIn_of hexec ⟨_, rfl, ?_⟩
  rw [hslot]
  exact ⟨rfl, r', rfl, hrun, hlead, hnext, hstarted⟩

theorem landsIn_loadComplete_of_restoring (r : Region) (hst : (s.slot n).st = 6) (hread : s.readsDone n = true) (hload : s.loaded n = .ok r) :
    landsIn s (.loadComplete n) (fun t => ∃ u : State, t = (u.requeuePops n r).wakeRanks n ∧
      (u.slot n).st = 2 ∧ (u.slot n).region = some r ∧ (u.slot n).saved = none) := by
  let s1 := (s.useStaged (s.slot n).asRead r.sfree).putSlot n { s.slot n with load := none }
  let s2 := { s1 with freeCount := s1.freeCount + 2097152 }.putSlot n
    { s.slot n with st := 2, region := some r, saved := none, load := none, holdSent := false }
  have hexec : exec (.loadComplete n) s = .next ((s2.requeuePops n r).wakeRanks n).run := by
    change execLoadComplete n s = _
    simp [execLoadComplete, hst, hreset, hread, hload, s1, s2]
  refine landsIn_of hexec ⟨s2, rfl, ?_⟩
  rw [State.slot_putSlot_same]
  exact ⟨rfl, rfl, rfl⟩

variable (r : Region) (hr : (s.slot n).region = some r)
include hr

theorem landsIn_drainComplete (hst : (s.slot n).st = 3) (hdrained : r.drained = true) :
    landsIn s (.drainComplete n) (fun t => (t.slot n).st = 1 ∧ (t.slot n).region = none) := by
  have hexec : exec (.drainComplete n) s = .next (s.beginLoad n).run := by
    change execDrainComplete n s = _
    simp [execDrainComplete, hr, hst, hreset, hdrained]
  obtain ⟨l, hslot⟩ := slot_beginLoad s n
  refine landsIn_of hexec ?_
  rw [hslot]
  exact ⟨rfl, rfl⟩

theorem lands_drainTimeout (hst : (s.slot n).st = 3) (hwcl : r.wcl ≠ 0) (hdue : (s.slot n).acct.toNat + r.l * r.wcl + 2000 ≤ s.time)
    (hlive : ∃ c ∈ r.liveColours, r.sum c ≠ 0) : lands s (.drainTimeout n) ((s.purgeAll n).record r.ten n 0xFFFF 0 0 (FaultInfo.of 9 1)) := by
  have hall : r.liveColours.all (fun c => r.sum c == 0) = false := by
    rw [List.all_eq_false]
    obtain ⟨c, hc, hsum⟩ := hlive
    exact ⟨c, hc, by simpa using hsum⟩
  change execDrainTimeout n s = _
  simp [execDrainTimeout, hr, hst, hreset, hwcl, Nat.not_lt.mpr hdue, hall]

theorem landsIn_saveComplete (hst : (s.slot n).st = 4) (hidle : s.busySlot n = false) (t : State)
    (hsave : (s.sendHolds n).saveCores r.ten ((s.sendHolds n).slot n).asRead.savek (List.range r.ncore) = (t, none)) :
    landsIn s (.saveComplete n) (fun u => (u.slot n).st = 5 ∧ (u.slot n).region = none ∧
      ∃ q, (s.sendHolds n).region n = some q ∧ ((s.slot n).holdSent = true → q = r) ∧
        (u.slot n).saved = some ⟨q, (s.sendHolds n).freeCount⟩) := by
  let u := (t.dropUnits n).putSlot n { (t.dropUnits n).slot n with
    st := 5, region := none, saved := ((s.sendHolds n).region n).map (fun q => ⟨q, (s.sendHolds n).freeCount⟩) }
  have hexec : exec (.saveComplete n) s = .next u.run := by
    change execSaveComplete n s = _
    simp [execSaveComplete, hr, hst, hreset, hidle, hsave, u]
  obtain ⟨q, hq, hkept⟩ := region_sendHolds s n r hr hst hidle
  refine landsIn_of hexec ?_
  rw [State.slot_putSlot_same]
  exact ⟨rfl, rfl, q, hq, hkept, by rw [hq]; rfl⟩

end

/-- The record that goes to a launch with a load's or save's error: that of a failed access, none of a failed check [04 R101; 05 R109]. -/
def failedAccess (f : FaultInfo) : LoadErr → Option FaultInfo
  | .access _ => some f
  | .check _ => none

theorem landsIn_loadFault (s : State) (n : Nat) (u : State) (e : LoadErr) (herr : s.slotError n = some (u, e)) :
    landsIn s (.loadFault n) (fun t => ∃ (v : State) (g : Option FaultInfo), t = v.slotFailed n e.code g ∧ (v.slot n).st = 8 ∧
      (v.slot n).lastst = BitVec.ofNat 16 e.code) := by
  let x := (u.cutSlot n (fun _ => false)).slot n
  let f := slotErrorInfo x.st.toNat e
  let y : Slot := { x with st := 8, load := none, lastst := BitVec.ofNat 16 e.code }
  let v := ((u.cutSlot n (fun _ => false)).putSlot n y).record (x.asRead.ten.toNat % 16) n 0xFFFF 0 0 f
  let g : Option FaultInfo := failedAccess f e
  have hexec : exec (.loadFault n) s = .next (v.slotFailed n e.code g).run := by
    change execLoadFault n s = _
    simp only [execLoadFault, herr]
    cases e <;> rfl
  have hslot : v.slot n = y := (slot_of_slots (State.record_slots ..) n).trans (State.slot_putSlot_same ..)
  refine landsIn_of hexec ⟨v, g, rfl, ?_⟩
  rw [hslot]
  exact ⟨rfl, rfl⟩

/-- Settles O45: the outcomes of acceptance, then each command and each end by what it leaves in its slot. -/
theorem slotCommandResult : Obligations.SlotCommandResult := by
  unfold Obligations.SlotCommandResult
  intro s n x
  refine ⟨fun cmd o hnext => ?_, fun hreset => ?_, fun u e => landsIn_loadFault s n u e⟩
  · intro named' s1 acc said
    refine ⟨fun hr i hi => ?_, fun hr => ⟨fun code hc i hi => ?_, fun hok => ?_⟩⟩
    · obtain ⟨g, hexec⟩ := exec_of_named s n cmd i hi
      rw [accept_of_reset g hnext hr] at hexec
      exact hexec
    · obtain ⟨g, hexec⟩ := exec_of_named s n cmd i hi
      rw [accept_of_refused g hnext hr code hc] at hexec
      exact hexec
    · have h : Accepts s n cmd o := ⟨hnext, hr, hok⟩
      refine ⟨?bind, ?idle, ?keep, ?discard, ?freeze, ?restore, ?release, ?released, ?restart⟩
      case bind => rintro rfl; exact landsIn_bind h
      case idle => rintro rfl hst; exact landsIn_reconf_of_idle h hst
      case keep => rintro r rfl hst hreg hflg; exact landsIn_reconf_of_keep h r hst hreg hflg
      case discard => rintro r rfl hst hreg hflg; exact landsIn_reconf_of_discard h r hst hreg hflg
      case freeze => rintro r rfl hreg; exact landsIn_freeze h r hreg
      case restore => rintro rfl; exact landsIn_restore h
      case release => rintro rfl hst; exact (exec_release h).trans (by rw [if_neg hst]; rfl)
      case released => rintro rfl hst; exact (exec_release h).trans (by rw [if_pos hst]; rfl)
      case restart => rintro r rfl hreg; exact landsIn_restart h r hreg
  · exact ⟨landsIn_loadComplete_of_loading s n hreset, landsIn_loadComplete_of_restoring s n hreset,
      fun r hr => landsIn_drainComplete s n hreset r hr, fun r hr => lands_drainTimeout s n hreset r hr,
      fun r t hr hst hidle hsave => landsIn_saveComplete s n hreset r hr hst hidle t hsave⟩

end Sys2Proof.Machine.SlotCommands
end

section
/-! PROOF. What a store or an update of a control-core thread stages, and what it knows, changes no byte of memory [09 R207, R211 to R216]. -/

namespace Sys2Proof.Machine.Staging

open Sys2Proof Sys2Proof.Machine Sys2Proof.Claims

/-- Two states that differ at most in what the paths have staged and what the threads know. -/
def OnlyStaging (s t : State) : Prop := ∃ m : MemSys, t = { s with ms := m } ∧ m.hbm = s.ms.hbm ∧ m.cxl = s.ms.cxl ∧ m.host = s.ms.host

namespace OnlyStaging

theorem refl (s : State) : OnlyStaging s s := ⟨s.ms, rfl, rfl, rfl, rfl⟩

variable {s t u : State}

theorem trans (h : OnlyStaging s t) (g : OnlyStaging t u) : OnlyStaging s u := by
  obtain ⟨m, rfl, hhbm, hcxl, hhost⟩ := h
  obtain ⟨n, rfl, ghbm, gcxl, ghost⟩ := g
  exact ⟨n, rfl, ghbm.trans hhbm, gcxl.trans hcxl, ghost.trans hhost⟩

theorem region (h : OnlyStaging s t) (i : Nat) : t.region i = s.region i := by obtain ⟨m, rfl, -⟩ := h; rfl

theorem bufRead (h : OnlyStaging s t) (sl c i off n : Nat) : t.bufRead sl c i off n = s.bufRead sl c i off n := by
  simp only [State.bufRead, h.region]

theorem locRead (h : OnlyStaging s t) (l : Loc) (n : Nat) : t.locRead l n = s.locRead l n := by
  obtain ⟨m, rfl, hhbm, hcxl, hhost⟩ := h
  cases l <;> simp only [State.locRead, State.stack, hhbm, hcxl, hhost]

theorem sameMemory (h : OnlyStaging s t) : SameMemory s t := ⟨fun l => h.locRead l 1, fun sl c b a => h.bufRead sl c b a 1⟩

end OnlyStaging

section
variable (s : State) (t : Nat × Nat × Nat)

theorem onlyStaging_dropStage (p : StageByte → Bool) : OnlyStaging s (s.dropStage p) := ⟨_, rfl, rfl, rfl, rfl⟩

theorem onlyStaging_dropPath (sl c path scope : Nat) : OnlyStaging s (s.dropPath sl c path scope) := onlyStaging_dropStage ..

theorem onlyStaging_putView (v : View) : OnlyStaging s (s.putView v) := ⟨_, rfl, rfl, rfl, rfl⟩

theorem onlyStaging_join (scope : Nat) (rels : List Rel) : OnlyStaging s (s.join t scope rels) :=
  (onlyStaging_putView ..).trans (onlyStaging_dropStage ..)

theorem onlyStaging_learns (l : List Nat × List Rel) : OnlyStaging s (s.learns t l) := by
  unfold State.learns
  split
  · exact .refl s
  · exact onlyStaging_putView ..

theorem onlyStaging_noteWrite (site : Option (Nat × Nat)) (own : StageByte → Bool) (space : Nat) (as : List Nat) (rels : Nat → List Rel) :
    OnlyStaging s (s.noteWrite site own space as rels).1 := by
  unfold State.noteWrite
  extract_lets behind ids here msgs
  split
  · exact .refl s
  · exact ⟨_, rfl, rfl, rfl, rfl⟩

theorem onlyStaging_ccWrote (space : Nat) (as : List Nat) (keep : Bool) (own : List Rel) : OnlyStaging s (s.ccWrote t space as keep own) :=
  (onlyStaging_noteWrite ..).trans (onlyStaging_learns ..)

theorem onlyStaging_fillBytes (u : Stream) (thr space : Nat) (bs : List (Nat × Byte)) : OnlyStaging s (s.fillBytes u thr space bs) :=
  (onlyStaging_dropStage ..).trans ⟨_, rfl, rfl, rfl, rfl⟩

theorem onlyStaging_fillStage (u : Stream) (thr space a : Nat) (b : List Byte) : OnlyStaging s (s.fillStage u thr space a b) :=
  (onlyStaging_dropStage ..).trans (onlyStaging_fillBytes ..)

/-- An update by a control-core thread is its write to the buffer and what it stages. -/
theorem onlyStaging_ccBufAtomic (k : Cc) (i off : Nat) (b : List Byte) (own : List Rel) :
    OnlyStaging (s.bufWrite k.slot k.core i off b 0) (s.ccBufAtomic k i off b own) :=
  (onlyStaging_ccWrote ..).trans (onlyStaging_fillStage ..)

end

/-! Buffers written and read -/

@[simp] theorem buf_putBuf_same (c : Core) (i : Nat) (m : Memory) : (c.putBuf i m).buf i = m := by
  match i with
  | 0 | 1 | _ + 2 => rfl

@[simp] theorem buf_putThread (c : Core) (i j : Nat) (t : Thread) : (c.putThread j t).buf i = c.buf i := rfl

section
variable {s : State} {sl c : Nat} {r : Region} (hr : s.region sl = some r)
include hr

theorem region_bufWrite (i off : Nat) (b : List Byte) :
    (s.bufWrite sl c i off b 0).region sl = some (r.putCore c ((r.core c).putBuf i (mwrite ((r.core c).buf i) off b))) := by
  simp [State.bufWrite, State.region_onRegion, hr]

/-- Bytes written to a buffer are read back there. -/
theorem bufRead_bufWrite_same (i off : Nat) (b : List Byte) : (s.bufWrite sl c i off b 0).bufRead sl c i off b.length = b := by
  simp [State.bufRead, region_bufWrite hr, mread_mwrite]

end

/-- A thread that is written back leaves every buffer as it was. -/
theorem bufRead_putThread (s : State) (sl c th : Nat) (t : Thread) (sl' c' i off n : Nat) :
    (s.putThread sl c th t).bufRead sl' c' i off n = s.bufRead sl' c' i off n := by
  unfold State.bufRead State.putThread
  rw [State.region_onRegion]
  by_cases hsl : sl' = sl
  · subst hsl
    cases s.region sl' with
    | none => simp
    | some r => by_cases hc : c' = c <;> simp [Region.core_putCore, hc]
  · rw [if_neg hsl]

theorem sameMemory_putThread (s : State) (sl c th : Nat) (t : Thread) : SameMemory s (s.putThread sl c th t) :=
  ⟨fun l => by cases l <;> simp [State.locRead, State.stack], fun _ _ _ _ => bufRead_putThread ..⟩

/-- A thread that has been written back is read there. -/
theorem thread_putThread_same {s : State} {sl c th : Nat} {r : Region} (hr : s.region sl = some r) (t : Thread) :
    (s.putThread sl c th t).thread sl c th = t :=
  (s.thread_putThread sl c th sl c th t r hr).trans (if_pos ⟨rfl, rfl, rfl⟩)

end Sys2Proof.Machine.Staging
end

section
/-! PROOF. A transaction barrier stands in 16 bytes, which give its fields back while each fits [08 R202, R203]. -/

namespace Sys2Proof.Machine.Barriers

open Sys2Proof Sys2Proof.Machine Sys2Proof.Claims Sys2Proof.Machine.Staging

/-- Each field of a barrier lies in its bits [08 R202]. -/
structure Fits (b : TBar) : Prop where
  phase : b.phase < 2 ^ 4
  parr : b.parr < 2 ^ 20
  exparr : b.exparr < 2 ^ 20
  psect : b.psect < 2 ^ 32
  flags : b.flags < 2 ^ 2
  sreload : b.sreload < 2 ^ 32

theorem bitsAt_lt (v lo n : Nat) : bitsAt v lo n < 2 ^ n := Nat.mod_lt _ (Nat.two_pow_pos n)

theorem fits_ofNum (v : Nat) : Fits (TBar.ofNum v) :=
  ⟨bitsAt_lt .., bitsAt_lt .., bitsAt_lt .., bitsAt_lt .., bitsAt_lt .., bitsAt_lt ..⟩

theorem fits_init {e s : Nat} (he : e < 2 ^ 20) (hs : s < 2 ^ 32) : Fits (TBar.init e s) :=
  ⟨Nat.two_pow_pos 4, he, he, hs, Nat.two_pow_pos 2, hs⟩

theorem fits_flip {b : TBar} (h : Fits b) : Fits b.flip := by
  obtain ⟨hphase, hparr, hexparr, hpsect, hflags, hsreload⟩ := h
  unfold TBar.flip
  split
  · exact ⟨Nat.mod_lt _ (by decide), hexparr, hexparr, hsreload, hflags, hsreload⟩
  · exact ⟨hphase, hparr, hexparr, hpsect, hflags, hsreload⟩

theorem fits_arrive {b : TBar} (h : Fits b) (a s : Nat) : Fits (b.arrive a s) := by
  obtain ⟨hphase, hparr, hexparr, hpsect, hflags, hsreload⟩ := h
  have hsum : (b.psect + s) % 2 ^ 32 < 2 ^ 32 := Nat.mod_lt _ (by decide)
  unfold TBar.arrive
  refine fits_flip ?_
  dsimp only
  split
  · exact ⟨hphase, Nat.two_pow_pos 20, hexparr, hsum, Nat.or_lt_two_pow hflags (by decide), hsreload⟩
  · exact ⟨hphase, Nat.lt_of_le_of_lt (Nat.sub_le ..) hparr, hexparr, hsum, hflags, hsreload⟩

theorem num_lt {b : TBar} (h : Fits b) : b.num < 2 ^ 128 := by
  obtain ⟨hphase, hparr, hexparr, hpsect, hflags, hsreload⟩ := h
  unfold TBar.num
  omega

theorem ofNum_num {b : TBar} (h : Fits b) : TBar.ofNum b.num = b := by
  obtain ⟨hphase, hparr, hexparr, hpsect, hflags, hsreload⟩ := h
  cases b
  simp only [TBar.ofNum, TBar.num, bitsAt, TBar.mk.injEq] at *
  omega

/-- ARRIVE, its underflow and its change of phase, in the terms of the statement [08 R203]. -/
theorem arrive_eq (b : TBar) (a s : Nat) :
    b.arrive a s =
      (let ps := (b.psect + s) % 2 ^ 32
       let pa := b.parr - a
       let fl := if b.parr < a then b.flags ||| 2 else b.flags
       if pa = 0 ∧ ps = 0 then { b with phase := (b.phase + 1) % 16, parr := b.exparr, psect := b.sreload, flags := fl }
       else { b with parr := pa, psect := ps, flags := fl }) := by
  by_cases hlt : b.parr < a
  · have hpa : b.parr - a = 0 := by omega
    simp [TBar.arrive, TBar.flip, hlt, hpa]
  · simp [TBar.arrive, TBar.flip, hlt]

/-! A barrier in a buffer -/

section
variable (s : State) (k : Cc) (hk : s.ccOf = some k) (m off : Nat)

theorem fits_tbar (sl c : Nat) : Fits (s.tbar sl c m off) := fits_ofNum _

include hk

/-- A thread's update of a barrier is read back, after the thread too has been written. -/
theorem tbar_tbarCc {b : TBar} (h : Fits b) (own : List Rel) (t : Thread) :
    ((s.tbarCc k m off b own).putThread k.slot k.core k.thr t).tbar k.slot k.core m off = b := by
  obtain ⟨-, -, -, hr, -, -, -⟩ := s.ccOf_some k hk
  have hbytes : ((s.tbarCc k m off b own).putThread k.slot k.core k.thr t).bufRead k.slot k.core m off 16 = leOf 16 b.num := by
    rw [bufRead_putThread, State.tbarCc, (onlyStaging_ccBufAtomic ..).bufRead]
    simpa using bufRead_bufWrite_same hr (c := k.core) m off (leOf 16 b.num)
  rw [State.tbar, hbytes, leNum_leOf, Nat.mod_eq_of_lt (num_lt h), ofNum_num h]

theorem thread_tbarCc (b : TBar) (own : List Rel) (t : Thread) :
    ((s.tbarCc k m off b own).putThread k.slot k.core k.thr t).thread k.slot k.core k.thr = t := by
  obtain ⟨-, -, -, hr, -, -, -⟩ := s.ccOf_some k hk
  exact thread_putThread_same (((onlyStaging_ccBufAtomic ..).region k.slot).trans (region_bufWrite hr ..)) t

end

end Sys2Proof.Machine.Barriers
end

section
/-! PROOF. What CHSTART, TBINIT, TBARR and TBWAIT do, one equation per instruction and outcome [08 R195, R200, R203; 12 R305 to R308]. -/

namespace Sys2Proof.Machine.Barriers

open Sys2Proof Sys2Proof.Machine Sys2Proof.Claims Sys2Proof.Machine.Staging Sys2Proof.Machine.WorkQueues

/-- The model's thread past an instruction of fixed latency is that of the statements. -/
theorem advance_wr_eq_past (k : Cc) (d : BitVec 5) (lat : Nat) (v : Word) : (k.t.wr d (k.c.clk + lat) v).advance = past k d lat v := by
  by_cases hd : d = 0#5 <;> simp [past, Thread.wr, Thread.advance, Thread.loopEnd, hd]

@[simp] theorem rd_zero (t : Thread) : t.rd 0#5 = 0 := by simp [Thread.rd]

/-- The operands of a thread that runs are its registers [12 R314]. -/
theorem opnd_of_run (k : Cc) (hrun : k.t.st = .run) (x y z : BitVec 5) : k.opnd x y z = (k.t.rd x, k.t.rd y, k.t.rd z) := by
  simp [Cc.opnd, hrun]

section
variable {s : State} {sl c : Nat} {r : Region} (hr : s.region sl = some r)
include hr

/-- A copy channel and then a thread of its core written: the channel is read there. -/
theorem chan_onChan_putThread (ch : Nat) (g : Chan → Chan) (th : Nat) (t : Thread) :
    ∃ r', ((s.onChan sl c ch g).putThread sl c th t).region sl = some r' ∧ (r'.core c).chan ch = g ((r.core c).chan ch) := by
  simp [State.putThread, State.onChan, State.region_onRegion, hr, Core.chan, Core.putThread, Core.putChan]

theorem region_onChan (ch : Nat) (g : Chan → Chan) :
    (s.onChan sl c ch g).region sl = some (r.putCore c ((r.core c).putChan ch (g ((r.core c).chan ch)))) := by
  simp [State.onChan, State.region_onRegion, hr]

end

section
variable (s : State) (k : Cc) (hk : s.ccOf = some k) (h : CcHd) (d a b : BitVec 5)
include hk

section
variable (c : BitVec 4) (ha : (k.t.rd a).toNat % 64 = 0)
include ha

theorem exec_chstart_of_start (hst : (k.c.chan c.toNat).st = .idle ∨ (k.c.chan c.toNat).st = .err) :
    exec (.chstart h d a c) s = .next (((s.dropPath k.slot k.core 2 3).onChan k.slot k.core c.toNat
      (fun x => { x with st := .walk, head := k.t.rd a, done := 0, errc := 0 })).putThread k.slot k.core k.thr (until_ k 4 (past k d 4 1))) := by
  change execChstart h d a c s = _
  rw [execChstart, s.cc_eq k _ hk]
  obtain hst | hst := hst <;> simp [ha, hst, advance_wr_eq_past, until_]

theorem exec_chstart_of_busy (hst : (k.c.chan c.toNat).st = .walk ∨ (k.c.chan c.toNat).st = .drain) :
    givesThread s k (.chstart h d a c) (until_ k 4 (past k d 4 0)) := by
  change execChstart h d a c s = _
  rw [execChstart, s.cc_eq k _ hk]
  obtain hst | hst := hst <;> simp [ha, hst, advance_wr_eq_past, until_]

end

section
variable (m off : Nat) (ha : (k.t.rd a).toNat % 16 = 0) (hw : k.r.window (k.t.rd a) 16 = some (m, off))
include ha hw

theorem exec_tbinit : exec (.tbinit h a b) s = .next ((s.tbarCc k m off
    (TBar.init (bitsAt (k.t.rd b).toNat 0 20) (bitsAt (k.t.rd b).toNat 20 32)) []).putThread k.slot k.core k.thr (answered k 0 0)) := by
  change execTbinit h a b s = _
  rw [execTbinit, s.cc_eq k _ hk]
  simp [Cc.slot16, ha, hw, answer_eq_answered]

theorem exec_tbarr : exec (.tbarr h a b) s = .next ((s.tbarCc k m off
    ((s.tbar k.slot k.core m off).arrive (bitsAt (k.t.rd b).toNat 0 20) (bitsAt (k.t.rd b).toNat 20 32)) (s.relOf k.id 1)).putThread
      k.slot k.core k.thr (answered k 0 0)) := by
  change execTbarr h a b s = _
  rw [execTbarr, s.cc_eq k _ hk]
  simp [Cc.slot16, ha, hw, answer_eq_answered]

variable (hrun : k.t.st = .run)
include hrun

theorem exec_tbwait_of_phase (hph : (s.tbar k.slot k.core m off).phase ≠ (k.t.rd b).toNat % 16 ∨ (s.tbar k.slot k.core m off).flags % 2 = 1) :
    ∃ s1, OnlyStaging s s1 ∧
      exec (.tbwait h d a b) s = .next (s1.putThread k.slot k.core k.thr (answered k d (s.tbar k.slot k.core m off).seen)) := by
  let l := s.ms.learnt (some (k.slot, k.core)) m off 16
  refine ⟨(s.learns k.id l).join k.id 1 l.2, (onlyStaging_learns ..).trans (onlyStaging_join ..), ?_⟩
  change execTbwait h d a b s = _
  rw [execTbwait, s.cc_eq k _ hk]
  have hgo : ((s.tbar k.slot k.core m off).phase != bitsAt (k.t.rd b).toNat 0 4 || (s.tbar k.slot k.core m off).flags % 2 == 1) = true := by
    simpa [bitsAt] using hph
  simp [Cc.slot16, opnd_of_run k hrun, ha, hw, hgo, Cc.answer, Cc.put, answer_eq_answered, l]

theorem exec_tbwait_of_wait (hph : ¬((s.tbar k.slot k.core m off).phase ≠ (k.t.rd b).toNat % 16 ∨ (s.tbar k.slot k.core m off).flags % 2 = 1)) :
    givesThread s k (.tbwait h d a b) (waits k (k.t.rd a) (k.t.rd b) 0) := by
  change execTbwait h d a b s = _
  rw [execTbwait, s.cc_eq k _ hk]
  have hstay : ((s.tbar k.slot k.core m off).phase != bitsAt (k.t.rd b).toNat 0 4 || (s.tbar k.slot k.core m off).flags % 2 == 1) = false := by
    simpa [bitsAt] using hph
  simp [Cc.slot16, opnd_of_run k hrun, ha, hw, hstay, Cc.wait, Cc.put, waits, rd_zero]

end

end

/-- Settles O17: a channel by its state, a barrier by what the thread writes or reads of its 16 bytes. -/
theorem channelAndBarrierResult : Obligations.ChannelAndBarrierResult := by
  unfold Obligations.ChannelAndBarrierResult
  intro s k hk hrun h d a b c v y ch
  obtain ⟨-, -, -, hr, hc, -, -⟩ := s.ccOf_some k hk
  refine ⟨fun ha hst => ?_, fun ha hst => exec_chstart_of_busy s k hk h d a c ha hst, fun m off ha hw => ?_⟩
  · have hr1 : (s.dropPath k.slot k.core 2 3).region k.slot = some k.r := ((onlyStaging_dropPath ..).region k.slot).trans hr
    obtain ⟨r', hregion, hchan⟩ := chan_onChan_putThread hr1 (c := k.core) c.toNat
      (fun x => { x with st := .walk, head := v, done := 0, errc := 0 }) k.thr (until_ k 4 (past k d 4 1))
    rw [← hc] at hchan
    exact ⟨_, r', exec_chstart_of_start s k hk h d a c ha hst, thread_putThread_same (region_onChan hr1 ..) _, hregion, hchan⟩
  · intro old
    have hold : Fits old := fits_tbar ..
    refine ⟨⟨_, exec_tbinit s k hk h a b m off ha hw, thread_tbarCc s k hk .., ?_⟩,
      ⟨_, exec_tbarr s k hk h a b m off ha hw, thread_tbarCc s k hk .., ?_⟩, ?_⟩
    · rw [tbar_tbarCc s k hk m off (fits_init (bitsAt_lt ..) (bitsAt_lt ..))]
      simp [TBar.init, bitsAt, y]
    · intro ps pa fl
      rw [tbar_tbarCc s k hk m off (fits_arrive hold ..), arrive_eq]
      simp [bitsAt, ps, pa, fl, y, old]
    · split
      next hph =>
        obtain ⟨s1, hs1, hexec⟩ := exec_tbwait_of_phase s k hk h d a b m off ha hw hrun hph
        have hmem := sameMemory_putThread s1 k.slot k.core k.thr (answered k d old.seen)
        exact ⟨_, hexec, ⟨fun l => (hmem.1 l).trans (hs1.locRead l 1), fun sl c b a => (hmem.2 sl c b a).trans (hs1.bufRead sl c b a 1)⟩,
          thread_putThread_same ((hs1.region k.slot).trans hr) _⟩
      next hph => exact exec_tbwait_of_wait s k hk h d a b m off ha hw hrun hph

end Sys2Proof.Machine.Barriers
end

section
/-! PROOF. What a steering node sends: its operand as it is re-emitted, a virtual zero as a tile of +0 [07 R180; 08 R186; 13 R315, R321, R326]. -/

namespace Sys2Proof.Machine.Steering

open Sys2Proof Sys2Proof.Machine Sys2Proof.Claims Sys2Proof.Machine.WorkQueues

/-! An operand that is sent on -/

section
variable (f : Fire) (t : Token)

/-- The model's operand, made a tile first and copied then, is the statements' token of its kind. -/
theorem pass_eq_again : f.pass t = again f t := by
  cases hk : t.kind with
  | zero => simp [Fire.pass, Fire.copy, Elem.zeroTok, Fire.auxOf, again, hk, Fire.tok, tokenOn, Token.mk0]
  | vrow => by_cases ha : f.a.kind = .vrow <;> simp [Fire.pass, Fire.copy, Elem.zeroTok, Fire.auxOf, again, hk, ha, Fire.tok, tokenOn, Token.mk0]
  | scalar | arow | tile | nil | eos | fault | marker | cfg =>
    simp [Fire.pass, Fire.copy, Elem.zeroTok, Fire.auxOf, again, hk, Fire.tok, tokenOn, Token.mk0]

theorem passOn_eq_emit : f.passOn t = f.emit (again f t) (isZero f t) := by rw [Fire.passOn, pass_eq_again, isZero]

theorem passTo_eq_emitTo (which : Nat) : f.passTo which t = f.emitTo which (again f t) (isZero f t) := by rw [Fire.passTo, pass_eq_again, isZero]

end

/-! SINK -/

/-- Only at an address generator does an EOS operand make a boundary [08 R186]. -/
theorem bound_of_not_ae (f : Fire) (s : State) (h : elemClass f.elem ≠ 3) : f.bound s = s := by simp [Fire.bound, h]

theorem exec_sink {s : State} {h : NodeHd} {cls : FireCls} {f : Fire} (hf : s.startFiring h = some (cls, f))
    (ha : f.a.kind ≠ .cfg) (hb : f.b.kind ≠ .cfg) (hp : f.p.kind ≠ .cfg) : exec (.sink h) s = .next (f.bound (f.finish s)) := by
  change execSink h s = _
  simp [execSink, hf, Fire.hasCfg, ha, hb, hp]

/-! Nodes whose units hold no NIL, EOS, FAULT or CFG -/

section
variable {s : State} {h : NodeHd} {f : Fire} (hf : Fires s h f)
include hf

theorem exec_steer (hk : f.b.kind = .scalar) (w : Nat) (hw : (if f.b.value.getLsbD 0 then 0 else 1) = w) :
    exec (.steer h) s = .next (((f.emitTo w (again f f.a) (isZero f f.a)).emitTo (1 - w) (tokenOn f .nil 0 .none) false).finish s) := by
  change execSteer h s = _
  simp only [execSteer, fire_of_fires s h f hf, hk, hw, passTo_eq_emitTo]
  rfl

theorem exec_select (hk : f.p.kind = .scalar) (t : Token) (ht : (if f.p.value.getLsbD 0 then f.a else f.b) = t) :
    emits s f (.select h) (again f t) (isZero f t) := by
  change execSelect h s = _
  simp only [execSelect, fire_of_fires s h f hf, hk, ht, passOn_eq_emit]
  rfl

theorem exec_dup : emits s f (.dup h) (again f f.a) (isZero f f.a) := by
  change execDup h s = _
  rw [execDup, fire_of_fires s h f hf, passOn_eq_emit]

theorem exec_gate : emits s f (.gate h) (again f f.a) (isZero f f.a) := by
  change execGate h s = _
  rw [execGate, fire_of_fires s h f hf, passOn_eq_emit]

theorem exec_join : emits s f (.join h) (scalarOn f 0) false := by
  change execJoin h s = _
  rw [execJoin, fire_of_fires s h f hf]
  rfl

theorem exec_eos : emits s f (.eos h) (tokenOn f .eos 0 .none) false := by
  change execEos h s = _
  rw [execEos, fire_of_fires s h f hf]
  rfl

theorem exec_invar : emits s f (.invar h) { again f f.a with act := 1 } false := by
  change execInvar h s = _
  rw [execInvar, fire_of_fires s h f hf, pass_eq_again]
  rfl

theorem exec_purgen : emits s f (.purgen h) { again f f.a with act := 2 } false := by
  change execPurgen h s = _
  rw [execPurgen, fire_of_fires s h f hf, pass_eq_again]
  rfl

end

/-- Settles O22: one equation for each node. -/
theorem steeringResult : Obligations.SteeringResult := by
  unfold Obligations.SteeringResult
  refine ⟨fun s h f cls hstart ha hb hp => ?_, fun s h f hf => ?_⟩
  · have hsink := exec_sink hstart ha hb hp
    exact ⟨hsink, fun hae => bound_of_not_ae f (f.finish s) hae ▸ hsink⟩
  · exact ⟨fun hk => exec_steer hf hk _ rfl, fun hk => exec_select hf hk _ rfl, exec_dup hf, exec_gate hf, exec_join hf, exec_eos hf, exec_invar hf,
      exec_purgen hf⟩

end Sys2Proof.Machine.Steering
end

section
/-! PROOF. A memory firing of an address generator enters the ordering unit, which releases the first that its waves let go and takes a boundary when that is
the oldest [08 R187 to R189; 15 R372 to R377]. -/

namespace Sys2Proof.Machine.AddressGenerators

open Sys2Proof Sys2Proof.Machine Sys2Proof.Claims Sys2Proof.Machine.WorkQueues

/-! Entry into the ordering unit -/

/-- The state after a firing's access has entered the ordering unit, as an outstanding operation of its colour. -/
def entered (s : State) (f : Fire) (l : LitA) (k : AccKind) (a : Word) (d : List Byte) : State := (f.open.order s (f.access s l k a d)).run

theorem extract_wave (l : LitA) (lo : Nat) : l.wave.extractLsb' lo 10 = BitVec.ofNat 10 (l.wave.toNat / 2 ^ lo) := by
  rw [BitVec.extractLsb', Nat.shiftRight_eq_div_pow]

/-- The wave numbers of an entry are fields of the literal's word [08 R187]. -/
theorem access_eq (s : State) (f : Fire) (l : LitA) (k : AccKind) (a : Word) (d : List Byte) :
    f.access s l k a d =
      { kind := k, node := f.node, ctx := f.ctx, colour := f.colour, a := a, data := d, own := BitVec.ofNat 10 (l.wave.toNat / 2 ^ 20),
        pred := BitVec.ofNat 10 (l.wave.toNat / 2 ^ 10), succ := BitVec.ofNat 10 l.wave.toNat, num := s.nextOp, waited := false } := by
  simp [Fire.access, waveOwn, wavePred, waveSucc, extract_wave]

theorem dataBytes_of_kind (e : Elem) (t : Token) (h : (e.zeroTok t).kind ∈ [.scalar, .arow, .vrow, .tile]) :
    e.dataBytes t = some (e.zeroTok t).bytes := by
  simp only [List.mem_cons, List.not_mem_nil, or_false] at h
  obtain hk | hk | hk | hk := h <;> simp [Elem.dataBytes, hk]

section
variable {s : State} {h : NodeHd} (l : LitA) {f : Fire}

theorem aeFire_of_taken {gathers : Bool} {g : Fire → Option (AccKind × Word × List Byte)} {k : AccKind} {a : Word} {d : List Byte}
    (hbegin : s.mayBegin gathers = true) (hstart : s.startFiring h = some (.normal, f)) (hg : g f = some (k, a, d)) :
    s.aeFire h l gathers g = .next (entered s f l k a d) := by
  simp [State.aeFire, hbegin, hstart, hg, entered]

/-- AEOS does not pass the ordering unit's room: it enters a boundary, for an EOS operand too [15 R377]. -/
theorem exec_aeos (hf : Fires s h f ∨ s.startFiring h = some (.eos, f)) :
    exec (.aeos h l) s = .next (entered s f l (.boundary (if l.opm = 0 then 1 else 2)) 0 []) := by
  change execAeos h l s = _
  obtain ⟨hstart, -, -, -⟩ | hstart := hf <;> simp [execAeos, hstart, entered]

variable (hbegin : ∀ g, s.mayBegin g = true) (hf : Fires s h f)

section
include hbegin hf

theorem exec_aload : exec (.aload h l) s = .next (entered s f l (.aload l.opm) 0 []) := by
  change execAload h l s = _
  exact aeFire_of_taken l (hbegin false) hf.1 rfl

theorem exec_astore (hd : (f.e.zeroTok f.a).kind ∈ [.scalar, .arow, .vrow, .tile]) :
    exec (.astore h l) s = .next (entered s f l .astore 0 (f.e.zeroTok f.a).bytes) := by
  change execAstore h l s = _
  exact aeFire_of_taken l (hbegin false) hf.1 (by simp [dataBytes_of_kind f.e f.a hd])

variable (hk : f.a.kind = .scalar)
include hk

theorem exec_agath : exec (.agath h l) s = .next (entered s f l (.agath l.opm) f.a.value []) := by
  change execAgath h l s = _
  exact aeFire_of_taken l (hbegin true) hf.1 (by simp [hk])

theorem exec_wld : exec (.wld h l) s = .next (entered s f l (.wld l.opm) f.a.value []) := by
  change execWld h l s = _
  exact aeFire_of_taken l (hbegin false) hf.1 (by simp [hk])

theorem exec_ascat (hd : (f.e.zeroTok f.b).kind ∈ [.scalar, .arow, .vrow, .tile]) :
    exec (.ascat h l) s = .next (entered s f l .ascat f.a.value (f.e.zeroTok f.b).bytes) := by
  change execAscat h l s = _
  exact aeFire_of_taken l (hbegin true) hf.1 (by simp [hk, dataBytes_of_kind f.e f.b hd])

theorem exec_wst (hb : f.b.kind = .scalar) :
    exec (.wst h l) s = .next (entered s f l (.wst l.opm) f.a.value (leOf (2 ^ l.opm.toNat) f.b.value.toNat)) := by
  change execWst h l s = _
  exact aeFire_of_taken l (hbegin false) hf.1 (by simp [hk, hb])

end

include hf in
theorem exec_acfg (hk : f.a.kind = .scalar) :
    exec (.acfg h l) s = .next ((f.emit (tokenOn f .cfg (BitVec.ofNat 8 l.opm.toNat) (.word f.a.value)) false).finish s).run := by
  change execAcfg h l s = _
  rw [BitVec.ofNat_toNat]
  simp only [execAcfg, fire_of_fires s h f hf, hk]
  rfl

end

/-! The release of the firings that wait -/

/-- An address generator's state after an entry has left the waiting ones. -/
def leftBy (s : State) (sl c e : Nat) (a : Access) : State := s.onAe sl c e (fun x => { x with waiting := dropFirst (· == a) x.waiting })

theorem elem_core (r : Region) (c e : Nat) : (r.core c).elem e = r.elem c e := rfl

section
variable {s : State} {sl c e : Nat} {r : Region} {a : Access} (hr : s.region sl = some r) (hready : (r.elem c e).ae.ready = [])
include hr hready

/-- With no boundary oldest, the first entry that may go is released. -/
theorem exec_waveRelease_of_access (hold : ∀ b, (r.elem c e).ae.waiting.find? Access.real = some b → b.isBound = false)
    (hgo : (r.elem c e).ae.waiting.find? (fun a => !a.isBound && (!(r.elem c e).waveOn || r.mayRelease (r.elem c e) a)) = some a) :
    exec (.waveRelease sl c e) s = .next ((leftBy s sl c e a).releaseAccess sl c e a).run := by
  change execWaveRelease sl c e s = _
  cases hb : (r.elem c e).ae.waiting.find? Access.real with
  | none => simp [execWaveRelease, State.aeStep, elem_core, hr, hready, hb, hgo, leftBy]
  | some b =>
    have hkind : ∀ n, b.kind ≠ .boundary n := fun n hn => by simpa [Access.isBound, hn] using hold b hb
    simp [execWaveRelease, State.aeStep, elem_core, hr, hready, hb, hgo, leftBy]

/-- A boundary that is the oldest that waits takes effect before any release. -/
theorem exec_waveRelease_of_boundary {n : Nat} (hold : (r.elem c e).ae.waiting.find? Access.real = some a) (hk : a.kind = .boundary n) :
    exec (.waveRelease sl c e) s = .next ((leftBy s sl c e a).takeBoundary sl c e a n).run := by
  change execWaveRelease sl c e s = _
  simp [execWaveRelease, State.aeStep, elem_core, hr, hready, hold, hk, leftBy]

end

/-! Wave order -/

section
variable {r : Region} {e : Elem} {a : Access}

/-- A wave of a colour that has one released goes on from the last released one [08 R188]. -/
theorem mayRelease_of_wave {w : Wave} (hw : e.ae.wave a.ctx a.colour = some w) :
    r.mayRelease e a = true ↔ a.pred = w.own ∧ a.pred ≠ 1023 ∨ w.succ = a.own ∧ w.succ ≠ 1023 := by
  simp [Region.mayRelease, hw]

/-- The first wave of a colour waits for every earlier colour of its context [08 R188]. -/
theorem mayRelease_of_first (hw : e.ae.wave a.ctx a.colour = none) :
    r.mayRelease e a = true ↔ a.own = 0 ∧ ∀ c ∈ (r.coloursOf a.ctx).takeWhile (fun c => c != a.colour),
      (∃ w, e.ae.wave a.ctx c = some w ∧ w.ended = true) ∨ c ∈ r.purged := by
  simp [Region.mayRelease, hw, Option.any_eq_true]

end

/-- Settles O33: the entries of each firing, the two moves of the ordering unit, and the two conditions of a wave. -/
theorem addressGeneratorResult : Obligations.AddressGeneratorResult := by
  unfold Obligations.AddressGeneratorResult
  refine ⟨⟨fun s h l f hbegin => ?_, fun s sl c e r a hr hready => ?_⟩,
    fun r e a => ⟨fun w hw => mayRelease_of_wave hw, fun hw => mayRelease_of_first hw⟩⟩
  · intro w enters addr data
    have henters : ∀ i k a d, exec i s = .next (entered s f l k a d) → enters i k a d := fun i k a d hexec => by
      change exec i s = _
      rw [hexec, entered, access_eq]
      rfl
    refine ⟨fun hf => henters _ _ _ _ (exec_aeos l hf), fun hf => ⟨henters _ _ _ _ (exec_aload l hbegin hf), fun hd => ?_, fun hk => ?_⟩⟩
    · exact henters _ _ _ _ (exec_astore l hbegin hf hd)
    · exact ⟨henters _ _ _ _ (exec_agath l hbegin hf hk), henters _ _ _ _ (exec_wld l hbegin hf hk),
        fun hd => henters _ _ _ _ (exec_ascat l hbegin hf hk hd), fun hb => henters _ _ _ _ (exec_wst l hbegin hf hk hb), exec_acfg l hf hk⟩
  · intro without
    exact ⟨fun hold hgo => exec_waveRelease_of_access hr hready hold hgo, fun n hold hk => exec_waveRelease_of_boundary hr hready hold hk⟩

end Sys2Proof.Machine.AddressGenerators
end
